-- ==== Sys2Proof/Word.lean ====
section
/-! DEFINITION. The word types of the C96 and their plainest arithmetic. -/

namespace Sys2Proof

/-- A register of the register space: 64 bits (R3). -/
abbrev Reg64 := BitVec 64

/-- One byte of a memory. -/
abbrev Byte := BitVec 8

end Sys2Proof
end

