-- ==== Sys2Proof/Syntax.lean ====
section
/-! DEFINITION. The commands of the C96 as data: one constructor per row of spec/opcode_table.json, with the operands the
row's rule gives it (what the outside, or an engine that finishes, brings with it). -/

namespace Sys2Proof

/-- An array group, 0 to 15 (R10). -/
abbrev AgId := Fin 16
/-- An array, 0 to 95: array a is array a mod 6 of AG ⌊a/6⌋ (R10). -/
abbrev ArrId := Fin 96
/-- A vector slice, 6 n + x for slice x of AG n (R137). -/
abbrev SliceId := Fin 96
/-- A DMA engine, 4 n + e for engine e of AG n (R130). -/
abbrev DmaId := Fin 64
/-- A bay, 0 to 7 (R166). -/
abbrev BayId := Fin 8
/-- A PCIe port: 0 A, 1 B (R432). -/
abbrev HostPort := Fin 2
/-- A function of a port: 0 PF0, 1 to 31 VF (R434). -/
abbrev FuncId := Fin 32
/-- A ring: 0 to 63 context ring 8 b + c, 64 and 65 the admin rings of ports A and B (R438). -/
abbrev RingId := Fin 66
/-- A fabric port, 0 to 49 (R276). -/
abbrev FabPort := Fin 50
/-- A power domain in the order of R12: 0 AO, 1 to 16 AG0 to AG15, 17 FAB0, 18 FAB1, 19 MEM. -/
abbrev DomId := Fin 20
/-- A firmware core, 0 to 18 (R397). -/
abbrev CoreId := Fin 19
/-- An HBM stack, 0 to 7. -/
abbrev StackId := Fin 8

/-- The path a register write or command takes into the device, which fixes its journal origin (R425) and its rights. -/
inductive Via where
  /-- A PCIe function: PF0 reaches the register space, a VF its ring pages (R434). -/
  | host (port : HostPort) (func : FuncId)
  | sec | pwr | sch
  | cc (ag : AgId)
  /-- The management port (R465). -/
  | mgmt
  /-- The fabric manager, over the fabric (R315). -/
  | fabric
  /-- Autonomous hardware. -/
  | auto
  deriving DecidableEq, Repr

/-- A block that owns joints (R192). -/
inductive JBlock where
  | tck | sch | mem | fab | col | flt | hif | mgt | pwr
  | ag (n : AgId)
  deriving DecidableEq, Repr

/-- What a read of a protected line finds. -/
inductive EccFinding where
  | corrected | uncorrectable
  deriving DecidableEq, Repr

/-- What reads an HBM line in which an error is found (R265 to R267): the patrol, a unit of a bay, or the device itself. -/
inductive HbmReader where
  | patrol
  | unit (bay : BayId)
  | device
  deriving DecidableEq, Repr

/-- An error that a read of an HBM line finds (R265, R266). -/
structure HbmFinding where
  ecc : EccFinding
  reader : HbmReader
  deriving DecidableEq, Repr

/-- A Horervar packet (R285): header fields, among them the reserved route flags and the payload length as the header says it,
the op-specific bytes 24 to 59 as one little-endian number, and the payload of 0 to 4,096 bytes. -/
structure Packet where
  dst : BitVec 15
  src : BitVec 15
  multicast : Bool
  broadcast : Bool
  det : Bool
  flagsRsv : BitVec 5
  tc : BitVec 3
  op : BitVec 8
  status : BitVec 8
  tag : BitVec 12
  len : BitVec 16
  seq : BitVec 32
  addr : BitVec 48
  hops : BitVec 8
  spec : BitVec 288
  payload : List Byte
  deriving DecidableEq, Repr

/-- What a port finds wrong: among the flits of a packet on a DIRECT port a CRC error in flit i, or a flit of a reserved kind (R284,
R287); in the frame of an ETHERNET port its FCS. -/
inductive RxFault where
  | crc (i : Nat)
  | reservedKind
  | fcs
  deriving DecidableEq, Repr

/-- The MACsec part of a frame (R298): association, packet number, and whether the frame proves authentic under the key. -/
structure SecTag where
  an : BitVec 2
  pn : BitVec 64
  authentic : Bool
  deriving DecidableEq, Repr

/-- What surrounds a packet in a frame of an ETHERNET port (R296): addresses, 802.1Q tag, EtherType and SecTAG. -/
structure FrameHdr where
  dst : BitVec 48
  src : BitVec 48
  vid : BitVec 12
  pcp : BitVec 3
  etype : BitVec 16
  sec : Option SecTag
  deriving DecidableEq, Repr

/-- How a packet reaches a port: on a DIRECT port as flits, of which its HEAD carries the given link sequence, those before the
first given one are not sent this time, and so many in all were sent on shared credits (R286, R287); on an ETHERNET port in a
frame (R296). -/
inductive RxUnit where
  | flits (lseq : BitVec 12) (first shared : Nat)
  | frame (hdr : FrameHdr)
  deriving DecidableEq, Repr

/-- A frame of the management segment (R458): addresses, the tag's PCP and VID, EtherType and payload. -/
structure Frame where
  dst : BitVec 48
  src : BitVec 48
  tag : Option (BitVec 3 × BitVec 12)
  etype : BitVec 16
  payload : List Byte
  deriving DecidableEq, Repr

/-- The transport an SPDM request comes over (R422). -/
inductive SpdmPath where
  | doe (port : HostPort)
  | mgmt
  | fabric
  deriving DecidableEq, Repr

/-- How a host is lost (R449). -/
inductive LossCause where
  | perst | hotReset | linkDown | flrPf0 | busMasterOff
  deriving DecidableEq, Repr

/-- Cycles in which traffic of an AG waited for a mesh link (R136): static traffic within its share, and best-effort traffic. -/
structure MeshWait where
  static : Nat
  bestEffort : Nat
  deriving DecidableEq, Repr

/-- How a feeder's staging of a block ends (R69, R117, R136): the cycles that a pass in flight waited for it, what it waited for mesh
links, and the buffer line that it found in error, if any. -/
structure StagingEnd where
  stall : Nat
  mesh : MeshWait
  buf : Option (Fin 32768 × EccFinding)
  deriving DecidableEq, Repr

/-- How a DMA descriptor ends: its place among those in flight, and what it waited for mesh links (R132, R136). -/
structure DmaEnd where
  slot : Fin 8
  mesh : MeshWait
  deriving DecidableEq, Repr

/-- A received Delay_Req: its source address and its time of arrival (R322). -/
structure PtpReq where
  src : BitVec 48
  t4 : BitVec 64
  deriving DecidableEq, Repr

/-- An uncorrectable error in a core's own memory, or in the line of reserved HBM that is named (R266, R399). -/
structure CoreError where
  core : CoreId
  lost : Option (BitVec 39)
  deriving DecidableEq, Repr

/-- The commands of the block: one constructor per row of the opcode table. -/
inductive Instr where
  /-- REGISTER_WRITE (R6): A write to a register that has no row of its own takes effect field by field under the class of each field. -/
  | registerWrite (via : Via) (off : BitVec 26) (size : Nat) (value : Reg64)
  /-- ARM (R192): The arm op of JOINT_COMMIT arms a joint for the open edge set, or commits it at once if its block is stopped. -/
  | arm (via : Via) (block : JBlock) (joint : BitVec 8) (token : BitVec 16)
  /-- DISARM (R192): The disarm op of JOINT_COMMIT disarms a joint, keeps its shadows and reports the result as discarded. -/
  | disarm (via : Via) (block : JBlock) (joint : BitVec 8) (token : BitVec 16)
  /-- JOINT_REVERT (R192): The revert op of JOINT_COMMIT sets the shadows of an unarmed joint to the values in effect, and is refused for an armed joint. -/
  | jointRevert (via : Via) (block : JBlock) (joint : BitVec 8) (token : BitVec 16)
  /-- PEG_ADD (R125): A write to AGn_PEG_ADD adds an amount to a peg as an increment, and is refused for peg 0xFFF. -/
  | pegAdd (via : Via) (ag : AgId) (peg : BitVec 12) (amount : BitVec 16)
  /-- DOMAIN_REQUEST (R390): A write of req in PWR_DOMd asks PWR to move a power domain, or is refused under R13 and R14. -/
  | domainRequest (via : Via) (dom : DomId) (req : BitVec 2)
  /-- PRETHAW_TARGET (R387): A write of prethaw_w sets a draw that the device reaches on holding load before work needs it. -/
  | prethawTarget (via : Via) (watts : BitVec 16)
  /-- BAY_THAW (R451): A write of thaw to HIF_BAYb_CTL through PF0 of a serving port returns a FROZEN bay to RAISED at the next edge. -/
  | bayThaw (via : Via) (bay : BayId)
  /-- RING_ENABLE (R438): A write of en = 1 to a ring CFG register starts the ring, or is refused and sets cfg_refused. -/
  | ringEnable (via : Via) (ring : RingId)
  /-- RING_DISABLE (R442): A write of en = 0 stops fetching, completes unstarted commands with PREEMPTED and drains the ring to OFF. -/
  | ringDisable (via : Via) (ring : RingId)
  /-- SQ_TAIL_DOORBELL (R439): A host writes a new SQ tail index to a ring's doorbell; a doorbell from another function or with a bad index is dropped. -/
  | sqTailDoorbell (port : HostPort) (func : FuncId) (ring : RingId) (index : BitVec 16)
  /-- CQ_HEAD_DOORBELL (R441): A host reports consumed completions by writing the CQ head, which frees room for held completions. -/
  | cqHeadDoorbell (port : HostPort) (func : FuncId) (ring : RingId) (index : BitVec 16)
  /-- COMMAND_FETCH (R439): The device fetches command entries from the SQ head up to the tail once fewer than 64 commands are in flight. -/
  | commandFetch (ring : RingId) (fails : Bool)
  /-- MSIX_COALESCE_TIMEOUT (R441): coal_us after the first pending completion, the device sends the ring's MSI-X vector. -/
  | msixCoalesceTimeout (ring : RingId)
  /-- NOP (R445): The NOP command completes with result 0 when it starts. -/
  | nop (ring : RingId)
  /-- RAISE (R182): The RAISE command admits a bent image into a bay and begins its raise phases. -/
  | raise (ring : RingId)
  /-- STRIKE (R189): The STRIKE command is admitted into an edge set to remove the bent of a RAISED, FROZEN or RAISING bay. -/
  | strike (ring : RingId)
  /-- STEP (R445): The STEP command asks the bay to run one step of the ring's context, and completes at the step's close. -/
  | step (ring : RingId)
  /-- COPY (R445): The COPY command copies bytes between addresses, possibly on a remote device, on a host-command engine. -/
  | copy (ring : RingId)
  /-- FILL (R445): The FILL command writes a repeated pattern over a destination range. -/
  | fill (ring : RingId)
  /-- SNAPSHOT (R356): The SNAPSHOT command asks for a snapshot of the bay's unreplicated state at the next eligible version. -/
  | snapshot (ring : RingId)
  /-- RESTORE (R367): The RESTORE command refills a bay from a host snapshot, from sister bays, or from a local sister slot. -/
  | restore (ring : RingId)
  /-- FENCE (R440): The FENCE command completes once every earlier command of its ring has completed. -/
  | fence (ring : RingId)
  /-- QUERY (R446): The QUERY command returns one selected bay register, read when the command starts. -/
  | query (ring : RingId)
  /-- PREEMPT (R245): The PREEMPT command suspends a context at its step boundary, or urgently pre-empts the running context. -/
  | preempt (ring : RingId)
  /-- RESUME (R245): The RESUME command returns a SUSPENDED context to READY or IDLE. -/
  | resume (ring : RingId)
  /-- TELEMETRY (R446): The TELEMETRY command writes a block of bay or device registers as they stood at action 2 of the latest edge. -/
  | telemetry (ring : RingId)
  /-- RAISE_STAGING_DONE (R182): The bent image has been copied into the staging area and its header checked, ending phase 2 of a raise. -/
  | raiseStagingDone (bay : BayId) (readable : Bool)
  /-- RAISE_VERIFICATION_DONE (R182): SEC finishes verifying both signatures of the image, ending phase 3 of a raise. -/
  | raiseVerificationDone (bay : BayId)
  /-- RAISE_CONTENT_CHECK_DONE (R182): SCH finishes checking sections, descriptors, programs and register joints, ending phase 4 of a raise. -/
  | raiseContentCheckDone (bay : BayId)
  /-- RAISE_RESERVATION_DONE (R182): SCH and PWR finish reserving AGs, extents, HBM, shares and thaw, ending phase 5 of a raise. -/
  | raiseReservationDone (bay : BayId)
  /-- RAISE_LOAD_DONE (R185): The tile sections, HBM data, pegs, routes and kind-0 register entries have been loaded, ending phase 6 of a raise. -/
  | raiseLoadDone (bay : BayId) (lost : Option (BitVec 39))
  /-- RAISE_THAW_TIMEOUT (R184): The AGs of a raise are not all thawed within 2 s of the request, and the raise completes with NO_RESOURCE. -/
  | raiseThawTimeout (bay : BayId)
  /-- STRIKE_RELEASE (R190): Once the struck bay's last work in flight has completed, its joints are disarmed, its blocks stopped and its fields reset. -/
  | strikeRelease (bay : BayId)
  /-- STRIKE_SCRUB_DONE (R190): The scrub and release of a struck bay end, the bay becomes EMPTY and the STRIKE completes with OK. -/
  | strikeScrubDone (bay : BayId)
  /-- HBM_PAGE_ZEROED (R263): A struck bay's HBM page has been zeroed by the fill engines and returns to the free pool. -/
  | hbmPageZeroed (unit : BitVec 18)
  /-- EDGE_SET_CLOSE (R26): 250 ns before an edge, the edge set closes and later arrivals belong to the following edge. -/
  | edgeSetClose
  /-- TICK_EDGE (R26): At each tick edge the device takes its seven ordered edge actions. -/
  | tickEdge
  /-- TICK_PEG_INCREMENT (R120): Within 2 µs after each edge of a step, the AG's control core increments the tick peg. -/
  | tickPegIncrement (ag : AgId)
  /-- WS_GEMM (R76): A weight-stationary pass streams rows of A through a weight tile and writes output rows. -/
  | wsGemm (arr : ArrId) (cycle : Nat) (stall : Nat)
  /-- OS_GEMM (R78): An output-stationary pass accumulates products in every cell within an OS chain. -/
  | osGemm (arr : ArrId) (cycle : Nat) (stall : Nat)
  /-- WLOAD (R77): A WLOAD pass loads a weight tile into the shadow registers, or completes at once when its key already matches. -/
  | wload (arr : ArrId) (cycle : Nat) (stall : Nat)
  /-- DRAIN (R78): A DRAIN pass shifts out the accumulators of an OS chain, writes the output and zeroes the accumulators. -/
  | drain (arr : ArrId) (cycle : Nat) (stall : Nat)
  /-- PASS_COMPLETE (R74): A pass completes and its output peg is incremented in the next cycle. -/
  | passComplete (arr : ArrId)
  /-- ARRAY_START_GRANT (R84): The AG's start arbiter grants an array a current-ramp start, at least 16 cycles after the last. -/
  | arrayStartGrant (ag : AgId) (cycle : Nat)
  /-- STAGING_COMPLETE (R118): A block that the feeder requested has been staged into the feeder buffer. -/
  | stagingComplete (arr : ArrId) (isB : Bool) (fin : StagingEnd)
  /-- DRAIN_ROW_ENQUEUE (R141): A drain row that waited for room enters the slice's drain queue. -/
  | drainRowEnqueue (arr : ArrId) (waited : Nat)
  /-- LOCATE_TEST (R87): In the first idle window, an array runs a 2,048-cycle locate test that FLT requested. -/
  | locateTest (arr : ArrId)
  /-- LOCATE_TEST_DONE (R87): The locate test ends and FLT writes and arms a repair, or sets unrepairable or locate_clean. -/
  | locateTestDone (arr : ArrId) (faults : List (Fin 130 × Fin 130))
  /-- PEG_FORWARD_LAND (R123): A forwarded peg increment lands in the target AG, or is dropped as stale. -/
  | pegForwardLand (src dst : AgId)
  /-- TM_PATROL (R113): The tile-memory patrol reads and corrects lines of an ACTIVE or IDLE slice in idle bank cycles. -/
  | tmPatrol (ag : AgId) (line : BitVec 22) (finding : EccFinding)
  /-- TM_LINE_RETIRE (R114): A line is copied to a spare line and remapped, or its extent fails when its bank has no spare. -/
  | tmLineRetire (ag : AgId) (line : BitVec 22)
  /-- DMA_COPY (R132): A COPY DMA descriptor moves rows from a source to a destination once its wait is satisfied. -/
  | dmaCopy (eng : DmaId) (lost : Option (BitVec 48))
  /-- DMA_FILL (R131): A FILL DMA descriptor writes a repeated pattern over every row of its destination. -/
  | dmaFill (eng : DmaId)
  /-- DMA_COMPLETE (R132): A DMA descriptor completes when every write is acknowledged, and its done peg is incremented. -/
  | dmaComplete (eng : DmaId) (fin : DmaEnd)
  /-- PROGRAM_COPY_DONE (R143): The copy of a committed vector program into the slice's program store ends. -/
  | programCopyDone (slice : SliceId)
  /-- VECTOR_NOP (R151): The vector NOP instruction does nothing. -/
  | vNop (slice : SliceId) (stall : Nat)
  /-- ADD (R151): ADD writes a + b per element. -/
  | vAdd (slice : SliceId) (stall : Nat)
  /-- SUB (R151): SUB writes a − b per element. -/
  | vSub (slice : SliceId) (stall : Nat)
  /-- MUL (R151): MUL writes a × b per element. -/
  | vMul (slice : SliceId) (stall : Nat)
  /-- FMA (R151): FMA writes a × b + c with one rounding. -/
  | vFma (slice : SliceId) (stall : Nat)
  /-- FNMA (R151): FNMA writes c − a × b with one rounding. -/
  | vFnma (slice : SliceId) (stall : Nat)
  /-- DIV (R151): DIV writes a / b per element. -/
  | vDiv (slice : SliceId) (stall : Nat)
  /-- SQRT (R151): SQRT writes the square root of a per element. -/
  | vSqrt (slice : SliceId) (stall : Nat)
  /-- MIN (R151): MIN writes the IEEE minimum per element. -/
  | vMin (slice : SliceId) (stall : Nat)
  /-- MAX (R151): MAX writes the IEEE maximum per element. -/
  | vMax (slice : SliceId) (stall : Nat)
  /-- MINN (R151): MINN writes the IEEE minimumNumber per element. -/
  | vMinn (slice : SliceId) (stall : Nat)
  /-- MAXN (R151): MAXN writes the IEEE maximumNumber per element. -/
  | vMaxn (slice : SliceId) (stall : Nat)
  /-- ABS (R151): ABS clears the sign of each element. -/
  | vAbs (slice : SliceId) (stall : Nat)
  /-- NEG (R151): NEG flips the sign of each element. -/
  | vNeg (slice : SliceId) (stall : Nat)
  /-- RINT (R151): RINT rounds each element to an integral value under rm. -/
  | vRint (slice : SliceId) (stall : Nat)
  /-- AND (R151): AND writes the bitwise AND of a and b. -/
  | vAnd (slice : SliceId) (stall : Nat)
  /-- OR (R151): OR writes the bitwise OR of a and b. -/
  | vOr (slice : SliceId) (stall : Nat)
  /-- XOR (R151): XOR writes the bitwise XOR of a and b. -/
  | vXor (slice : SliceId) (stall : Nat)
  /-- SHL (R151): SHL shifts each element left by b mod 32. -/
  | vShl (slice : SliceId) (stall : Nat)
  /-- SHR (R151): SHR shifts each element arithmetically right by b mod 32. -/
  | vShr (slice : SliceId) (stall : Nat)
  /-- SHRL (R151): SHRL shifts each element logically right by b mod 32. -/
  | vShrl (slice : SliceId) (stall : Nat)
  /-- CMP (R155): CMP writes a predicate from a comparison of a and b under the condition in imm. -/
  | vCmp (slice : SliceId) (stall : Nat)
  /-- SEL (R151): SEL writes a or b per element as the predicate selects. -/
  | vSel (slice : SliceId) (stall : Nat)
  /-- PSET (R155): PSET writes a predicate from a pattern in imm. -/
  | vPset (slice : SliceId) (stall : Nat)
  /-- PLOG (R151): PLOG writes a logical combination of two predicates. -/
  | vPlog (slice : SliceId) (stall : Nat)
  /-- EXP (R158): EXP computes e^x in FP32 within 2 ulp. -/
  | vExp (slice : SliceId) (stall : Nat)
  /-- LOG (R158): LOG computes ln x in FP32. -/
  | vLog (slice : SliceId) (stall : Nat)
  /-- RSQRT (R158): RSQRT computes 1/√x in FP32 within 1 ulp. -/
  | vRsqrt (slice : SliceId) (stall : Nat)
  /-- SIGM (R158): SIGM computes the logistic sigmoid in FP32. -/
  | vSigm (slice : SliceId) (stall : Nat)
  /-- TANH (R158): TANH computes tanh x in FP32. -/
  | vTanh (slice : SliceId) (stall : Nat)
  /-- SILU (R158): SILU computes x × SIGM(x) in FP32. -/
  | vSilu (slice : SliceId) (stall : Nat)
  /-- GELU (R158): GELU computes the tanh form of GELU in FP32. -/
  | vGelu (slice : SliceId) (stall : Nat)
  /-- CVT (R157): CVT converts elements in registers from fmt to fmt2. -/
  | vCvt (slice : SliceId) (stall : Nat)
  /-- RSUM (R161): RSUM adds the elements of a in a fixed tree. -/
  | vRsum (slice : SliceId) (stall : Nat)
  /-- RMAX (R161): RMAX takes the maximum of the elements of a in a fixed tree. -/
  | vRmax (slice : SliceId) (stall : Nat)
  /-- RMIN (R161): RMIN takes the minimum of the elements of a in a fixed tree. -/
  | vRmin (slice : SliceId) (stall : Nat)
  /-- PERM (R151): PERM permutes the elements of a by the indices in b. -/
  | vPerm (slice : SliceId) (stall : Nat)
  /-- SHUF (R159): SHUF applies a fixed permutation pattern to the elements. -/
  | vShuf (slice : SliceId) (stall : Nat)
  /-- PACK (R160): PACK writes the low bits of each element of a into packed slots of d. -/
  | vPack (slice : SliceId) (stall : Nat)
  /-- UNPK (R160): UNPK reads packed slots of a into the elements of d, with sign or zero extension. -/
  | vUnpk (slice : SliceId) (stall : Nat)
  /-- BCAST (R151): BCAST copies one element of a into every element of d. -/
  | vBcast (slice : SliceId) (stall : Nat)
  /-- MOVS (R151): MOVS copies a scalar register into every element of d. -/
  | vMovs (slice : SliceId) (stall : Nat)
  /-- MOVV (R151): MOVV copies one element of a into a scalar register. -/
  | vMovv (slice : SliceId) (stall : Nat)
  /-- VLD (R151): VLD loads 512 raw bytes into a vector register. -/
  | vVld (slice : SliceId) (stall : Nat)
  /-- VST (R163): VST stores 512 raw bytes of a vector register. -/
  | vVst (slice : SliceId) (stall : Nat)
  /-- VLDC (R156): VLDC loads elements of one format and decodes them exactly into a wider format. -/
  | vVldc (slice : SliceId) (stall : Nat)
  /-- VSTC (R156): VSTC converts elements to fmt2 and stores them. -/
  | vVstc (slice : SliceId) (stall : Nat)
  /-- VSTB (R156): VSTB stores FP32 elements in a block-scaled format together with their E8M0 scales. -/
  | vVstb (slice : SliceId) (stall : Nat)
  /-- GATH (R153): GATH gathers indexed elements of an array in tile memory into a register. -/
  | vGath (slice : SliceId) (stall : Nat)
  /-- SCAT (R154): SCAT scatters the elements of a register to indexed elements of an array. -/
  | vScat (slice : SliceId) (stall : Nat)
  /-- SCTA (R154): SCTA adds the elements of a register to indexed FP32 elements of an array. -/
  | vScta (slice : SliceId) (stall : Nat)
  /-- VRECV (R140): VRECV takes the next drain-queue entry into a register, waiting while the queue is empty. -/
  | vVrecv (slice : SliceId) (stall : Nat)
  /-- SLI (R151): SLI loads a sign-extended immediate into a scalar register. -/
  | vSli (slice : SliceId) (stall : Nat)
  /-- SLIH (R151): SLIH shifts a scalar register left by 16 and ORs in an immediate. -/
  | vSlih (slice : SliceId) (stall : Nat)
  /-- SADD (R151): SADD adds two scalar registers and a sign-extended immediate. -/
  | vSadd (slice : SliceId) (stall : Nat)
  /-- SMUL (R151): SMUL multiplies two scalar registers. -/
  | vSmul (slice : SliceId) (stall : Nat)
  /-- SAND (R151): SAND writes the bitwise AND of two scalar registers. -/
  | vSand (slice : SliceId) (stall : Nat)
  /-- SSHL (R151): SSHL shifts a scalar register left by b mod 64. -/
  | vSshl (slice : SliceId) (stall : Nat)
  /-- SSHR (R151): SSHR shifts a scalar register logically right by b mod 64. -/
  | vSshr (slice : SliceId) (stall : Nat)
  /-- SRD (R151): SRD reads the repetition index, tick, step number, slice, AG or global time into a scalar register. -/
  | vSrd (slice : SliceId) (stall : Nat)
  /-- BNE (R151): BNE jumps by an immediate when two scalar registers differ. -/
  | vBne (slice : SliceId) (stall : Nat)
  /-- BLT (R151): BLT jumps by an immediate when one scalar register is less than another, signed. -/
  | vBlt (slice : SliceId) (stall : Nat)
  /-- WAIT (R121): WAIT holds the slice until a peg reaches the threshold of its selector. -/
  | vWait (slice : SliceId) (stall : Nat)
  /-- INC (R122): INC increments a peg once the stores before it are visible. -/
  | vInc (slice : SliceId) (stall : Nat)
  /-- VECTOR_FENCE (R151): The vector FENCE waits until every earlier store of the slice is acknowledged. -/
  | vFence (slice : SliceId) (stall : Nat)
  /-- END (R145): END adds one to the repetition index and continues at instruction 0. -/
  | vEnd (slice : SliceId) (stall : Nat)
  /-- GATE_DECISION (R220): The update gate decides RUN or SKIP when the first update-class item reaches it and enough gating collectives have completed. -/
  | gateDecision (bay : BayId)
  /-- PREEMPT_DRAIN_END (R244): The drain of an urgent pre-emption ends, and the context becomes READY with saved = 3. -/
  | preemptDrainEnd (bay : BayId)
  /-- CONTEXT_SAVE_DONE (R247): The save copy of a context switch ends, and the restore starts. -/
  | contextSaveDone (bay : BayId) (us : Nat) (lost : Option (BitVec 32))
  /-- CONTEXT_RESTORE_DONE (R247): The restore copy of a context switch ends, and the chosen context becomes resident. -/
  | contextRestoreDone (bay : BayId) (us : Nat)
  /-- HBM_PATROL (R267): The HBM patrol reads and corrects every line of every usable stack once per scrub period. -/
  | hbmPatrol (addr : BitVec 39) (finding : HbmFinding)
  /-- HBM_TEMPERATURE_READ (R268): Every 1 ms the controller reads each stack's temperature and sets its refresh rate. -/
  | hbmTemperatureRead (temps : Vector (BitVec 8) 8)
  /-- HBM_ROW_REPAIR (R269): A lasting HBM row fault is repaired by sPPR or by remap, or fails the channel. -/
  | hbmRowRepair (addr : BitVec 39)
  /-- PORT_SIGNAL_DETECT (R279): A port in DETECT finds signal on its lanes and enters TRAIN. -/
  | portSignalDetect (port : FabPort) (lanes : BitVec 8)
  /-- LINK_TRAINING_DONE (R279): Auto-negotiation and link training end, and the port enters ALIGN. -/
  | linkTrainingDone (port : FabPort)
  /-- TRAIN_TIMEOUT (R280): TRAIN times out after 500 ms, and the port returns to DETECT or becomes FAILED. -/
  | trainTimeout (port : FabPort)
  /-- ALIGN_DONE (R279): FEC lock and deskew are achieved on every lane, and the port enters LINK_INIT. -/
  | alignDone (port : FabPort)
  /-- ALIGN_TIMEOUT (R279): ALIGN has not finished after 2 ms, and the port returns to DETECT. -/
  | alignTimeout (port : FabPort)
  /-- INIT (R279): INIT flits exchange credit counts and reset sequence numbers, and the port moves on to HANDSHAKE or ACTIVE. -/
  | initFlits (port : FabPort) (counts : Vector (BitVec 8) 8)
  /-- HANDSHAKE (R282): A received handshake record is checked, and the port becomes ACTIVE or enters QUARANTINE. -/
  | handshake (port : FabPort) (record : BitVec 384)
  /-- HANDSHAKE_RESEND (R281): Every 10 µs in HANDSHAKE, the port sends its record again. -/
  | handshakeResend (port : FabPort)
  /-- ACK_CREDIT (R286): A received ACK_CREDIT flit releases retry-buffer flits and returns credits. -/
  | ackCredit (port : FabPort) (seq : BitVec 12) (counts : Vector (BitVec 16) 8) (shared : BitVec 16) (rtt : BitVec 14)
  /-- ACK_CREDIT_TIMER (R286): 100 ns after the first unreported flit, the receiver sends an ACK_CREDIT. -/
  | ackCreditTimer (port : FabPort)
  /-- NAK (R287): A received NAK makes the sender resend from the named sequence. -/
  | nak (port : FabPort) (seq : BitVec 12)
  /-- RETRAIN (R289): An ACTIVE port with no progress, repeated resends or lost FEC lock enters RETRAIN and discards its retry buffers. -/
  | retrain (port : FabPort) (fecLost : Bool)
  /-- HEARTBEAT (R299): A received HEARTBEAT flit renews the liveness of the peer on its port. -/
  | heartbeat (port : FabPort) (device : BitVec 15) (count : BitVec 32)
  /-- HEARTBEAT_SEND (R299): Every 1,000 ns an ACTIVE port sends a heartbeat flit, or heartbeat packets to its named peers. -/
  | heartbeatSend (port : FabPort)
  /-- PEER_DEAD (R299): 8,050 ns without a heartbeat, a port declares its peer dead and signals routing. -/
  | peerDead (port : FabPort) (peer : Option (BitVec 15))
  /-- RETIRE (R301): A received RETIRE flit requests, accepts or refuses the retirement of a lane. -/
  | retire (port : FabPort) (code lane : BitVec 8)
  /-- RETIRE_REQUEST_TIMEOUT (R301): A lane retirement request that is not accepted within 10 µs is sent again. -/
  | retireRequestTimeout (port : FabPort)
  /-- WITHDRAW_DRAINED (R301): A WITHDRAWN port's retry buffer becomes empty, and the port goes on to ALIGN on 7 lanes or to DISABLED. -/
  | withdrawDrained (port : FabPort)
  /-- LANE_RETIRE (R301): FLT retires a lane of a port whose FEC errors lasted, and the port withdraws. -/
  | laneRetire (port : FabPort) (lane : Fin 8)
  /-- FEC_RATE_SECOND (R370): Each second, FLT checks every lane's corrected FEC symbol count against rate_thr. -/
  | fecRateSecond (port : FabPort) (corrected : Vector (BitVec 32) 8) (uncorrected : BitVec 16)
  /-- PORT_ENABLE (R279): A write of admin_en = 1 brings a port up from DISABLED. -/
  | portEnable (via : Via) (port : FabPort)
  /-- PORT_DISABLE (R301): A write of admin_en = 0 withdraws the port and then disables it. -/
  | portDisable (via : Via) (port : FabPort)
  /-- PFC_PAUSE (R297): A received priority flow control pause or release stops or resumes sending on that priority. -/
  | pfcPause (port : FabPort) (mask : BitVec 8) (on : Bool)
  /-- PACKET_RECEIVE (R312): A packet taken whole is delivered locally or forwarded after route lookup, or dropped. -/
  | packetReceive (port : FabPort) (unit : RxUnit) (pkt : Packet) (fault : Option RxFault)
  /-- WRITE (R293): A received WRITE packet is performed and acknowledged end to end. -/
  | write
  /-- READ_REQ (R293): A received READ_REQ is answered with READ_RESP packets. -/
  | readReq (uncorrectable : Bool)
  /-- READ_RESP (R295): A received READ_RESP delivers read data or a status to the requester. -/
  | readResp
  /-- E2E_ACK (R293): A received E2E_ACK releases acknowledged packets from the resend area. -/
  | e2eAck
  /-- E2E_NACK (R295): A received E2E_NACK ends its packet with the error that its status names. -/
  | e2eNack
  /-- E2E_ACK_COALESCE (R293): 1 µs after a stream's first unacknowledged packet, the destination sends a coalesced E2E_ACK. -/
  | e2eAckCoalesce (src : BitVec 15) (tc : BitVec 3)
  /-- E2E_TIMEOUT (R294): A packet not acknowledged within e2e_timeout_us is resent, or fails as target unreachable. -/
  | e2eTimeout (dst : BitVec 15) (tc : BitVec 3) (seq : BitVec 32)
  /-- ANNOUNCE (R320): A received ANNOUNCE updates the best key, the parent and the tick master choice. -/
  | announce
  /-- ANNOUNCE_SEND (R319): Every announce interval the device sends an ANNOUNCE on each face of its domain. -/
  | announceSend
  /-- ANNOUNCE_AGE_OUT (R320): A key not announced for three intervals ages out, and the master or parent is chosen again. -/
  | announceAgeOut
  /-- SYNC_MEASURE (R321): Every sync_interval a non-master device sends SYNC_REQ to its parent. -/
  | syncMeasure
  /-- SYNC_REQ (R321): A received SYNC_REQ is answered with a timestamped SYNC_RESP. -/
  | syncReq (t2 t3 : BitVec 64)
  /-- SYNC_RESP (R321): A received SYNC_RESP gives the offset and delay, updates the edges and pending change, and corrects the tick under R36. -/
  | syncResp (t4 : BitVec 64)
  /-- SYNC (R322): A received IEEE 1588 Sync carries t1 on an ETHERNET parent port. -/
  | syncMsg (port : FabPort) (t1 corr t2 : BitVec 64)
  /-- DELAY_REQ (R322): A received IEEE 1588 Delay_Req is answered with Delay_Resp. -/
  | delayReq (port : FabPort) (req : PtpReq)
  /-- DELAY_RESP (R322): A received IEEE 1588 Delay_Resp completes a delay measurement. -/
  | delayResp (port : FabPort) (t4 corr : BitVec 64)
  /-- PPS_PULSE (R324): A PPS edge lets the tick master steer its frequency towards whole seconds. -/
  | ppsPulse
  /-- DISCOVER (R311): A received DISCOVER is forwarded along its port path, or answered with a DISCOVER_REPLY by its target. -/
  | discover
  /-- DISCOVER_REPLY (R310): A received DISCOVER_REPLY is forwarded along its path to the manager. -/
  | discoverReply
  /-- DISCOVER_REPLY_DELAY (R463): After a random delay of 0 to 10 ms, the device answers a DISCOVER sent to a group address on the segment. -/
  | discoverReplyDelay
  /-- ASSIGN (R307): An accepted ASSIGN writes FAB_ID and FAB_MGR, and the device resends its handshake record. -/
  | assign
  /-- HEARTBEAT_CONTROL (R299): A received heartbeat control packet renews the liveness of a peer beyond a switch. -/
  | heartbeatControl
  /-- REDUCE_SCATTER (R329): A REDUCE_SCATTER instance is issued, and each member sends its segments of each slice to the slice's owner. -/
  | reduceScatter (bay : BayId) (tbl : BitVec 8)
  /-- ALL_GATHER (R329): An ALL_GATHER instance is issued, and each member sends its slice to every other member. -/
  | allGather (bay : BayId) (tbl : BitVec 8)
  /-- ALL_REDUCE (R329): An ALL_REDUCE instance is issued, and owners reduce their slices and send the results to every member. -/
  | allReduce (bay : BayId) (tbl : BitVec 8)
  /-- ALL_TO_ALL (R329): An ALL_TO_ALL instance is issued, and each member sends block j to member j. -/
  | allToAll (bay : BayId) (tbl : BitVec 8)
  /-- COLLECTIVE (R336): A received collective packet opens an instance, is reduced or written, closes a segment, or is handled as late. -/
  | collective
  /-- COLLECTIVE_COMPLETE (R345): An instance completes on a member, its done peg is incremented and gate_done rises. -/
  | collectiveComplete (bay : BayId) (tbl : BitVec 8)
  /-- LEAVE (R341): A received LEAVE makes its sender gone from the instance. -/
  | leave
  /-- FAULT_NOTICE (R361): A received FAULT_NOTICE adds a device to the dead list, makes it gone, and triggers gap acknowledgements. -/
  | faultNotice
  /-- FAULT_RESEND_TIMER (R362): 6 µs after a fault notice, each source resends every unacknowledged packet sent before the notice. -/
  | faultResendTimer
  /-- SISTER_BIND (R354): A received SISTER_BIND is accepted or refused, and a slot is allocated in the sister region. -/
  | sisterBind
  /-- SISTER_REPLY (R354): A received SISTER_REPLY sets the bind state of the sister. -/
  | sisterReply
  /-- SISTER_BIND_RETRY (R354): A bind with no reply is repeated after 1 ms, and after 3 attempts the sister becomes GONE. -/
  | sisterBindRetry (bay : BayId) (sister : Fin 2)
  /-- SNAPSHOT_READ_DONE (R356): The snapshot engine has read every list entry, and the gate may decide. -/
  | snapshotReadDone (bay : BayId)
  /-- SNAP_COMMIT (R357): A received SNAP_COMMIT marks the written generation complete and newest. -/
  | snapCommit
  /-- REFILL_REQ (R367): A received REFILL_REQ is accepted at a step boundary, opening a read window and setting refill_hold. -/
  | refillReq
  /-- REFILL_REPLY (R367): A received REFILL_REPLY lets the target read chunks or move to its next source. -/
  | refillReply
  /-- DEAD_CLR (R355): A write to FLT_DEAD_CLR removes a device from the dead list and releases its slots. -/
  | deadClr (via : Via) (dev : BitVec 15)
  /-- UNFENCE (R363): A write of 1 to fenced in FLT_STATUS unfences the device. -/
  | unfence (via : Via)
  /-- CLEAR_DROPPED (R365): A write of 1 to dropped in FLT_BAYb_STATE lets the bay run STEPs again. -/
  | clearDropped (via : Via) (bay : BayId)
  /-- GOVERNOR_INTERVAL (R377): In each 1 µs interval the governor forms the draw estimate and enforces its three rules. -/
  | governorInterval (raw : BitVec 32)
  /-- CALIBRATION_READ (R376): Every 1 ms PWR reads the regulators over PMBus and updates the calibration gain. -/
  | calibrationRead (measured : Option (BitVec 32)) (status : BitVec 16)
  /-- CALIBRATION_TIMEOUT (R376): 100 ms without a valid reading sets cal_fault and raises the gain to at least 1.10. -/
  | calibrationTimeout
  /-- POWER_MODE_EXIT (R392): POWER mode ends after 1 s without a cause. -/
  | powerModeExit
  /-- PMB_ALERT (R496): A low level on PMB_ALERT_N makes PWR read STATUS_WORD from every regulator within 100 µs. -/
  | pmbAlert (status : BitVec 16)
  /-- JUNCTION_SAMPLE (R391): Every 10 µs the 64 junction sensors are sampled. -/
  | junctionSample (temps : Vector (BitVec 8) 64)
  /-- THERMAL_MODE_EXIT (R392): After 100 ms below 100 °C, the governor returns to NORMAL. -/
  | thermalModeExit
  /-- THERMAL_TRIP (R393): At 115 °C the comparator asserts THERMTRIP_N and turns the AG, FAB and MEM domains OFF. -/
  | thermalTrip
  /-- RAIL_UNDERVOLTAGE (R490): A rail monitor trips below 92 % of nominal and enters POWER mode. -/
  | railUndervoltage (rail : Fin 21) (deep : Bool)
  /-- CLOCK_STATE_CONFIRM (R489): Once every AG rail reports its new voltage, or 500 µs pass, PWR raises ACLK or keeps the lower clock. -/
  | clockStateConfirm (confirmed : Bool)
  /-- DOMAIN_TRANSITION_DONE (R389): A power domain finishes its move to a new power state. -/
  | domainTransitionDone (dom : DomId)
  /-- TOKEN_WINDOW (R381): A token window begins at the device's slot offset, and its rise limit and requests are renewed. -/
  | tokenWindow
  /-- COORD_ANNOUNCE (R382): A received COORD_ANNOUNCE takes part in the election of the power coordinator. -/
  | coordAnnounce
  /-- COORD_ANNOUNCE_SEND (R382): Every 10 ms a coordinator candidate broadcasts COORD_ANNOUNCE. -/
  | coordAnnounceSend
  /-- COORDINATOR_LOST (R385): No coordinator heard on either path for 30 ms limits rises to step_w per window. -/
  | coordinatorLost
  /-- TOKEN_REQ (R384): A received TOKEN_REQ enters the coordinator's queue, or cancels or reports a forced rise. -/
  | tokenReq
  /-- TOKEN_GRANT (R383): A received TOKEN_GRANT allows a rise in its window, or is discarded as late. -/
  | tokenGrant
  /-- WATCHDOG (R399): A core that has not kicked its watchdog in time is restarted with cause 1. -/
  | watchdog (core : CoreId)
  /-- FATAL_TRAP (R399): A trap inside the trap handler restarts the core with cause 2. -/
  | fatalTrap (core : CoreId)
  /-- CORE_MEMORY_ERROR (R399): An uncorrectable error in a core's memory restarts the core with cause 3. -/
  | coreMemoryError (err : CoreError)
  /-- CORE_RESTART_DONE (R402): A restarted core reports RUNNING, rebuilds its state and takes up waiting work. -/
  | coreRestartDone (core : CoreId) (us : BitVec 16)
  /-- STAGE (R404): The stage op of GLB_FW_CMD makes SEC verify a bundle and program it into the role-B slot. -/
  | stage (via : Via)
  /-- STAGE_DONE (R404): Staging ends, and b_valid is set or stage_fail is recorded. -/
  | stageDone (programmed : Bool)
  /-- ACTIVATE (R405): The activate op loads role-B images into the cores of a mask, one core at a time. -/
  | activate (via : Via) (mask : BitVec 19)
  /-- CANCEL (R406): The cancel op removes cores not yet started from the pending activation mask. -/
  | cancel (via : Via)
  /-- RESTART (R409): The restart op restarts each core of the mask with cause 5. -/
  | restart (via : Via) (mask : BitVec 19)
  /-- REVERT (R407): The revert op activates role-A images on cores that run role B, or clears b_valid. -/
  | revert (via : Via) (mask : BitVec 19)
  /-- INSTALL_KEY_PACKAGE (R420): The install op of SEC_CMD verifies and installs a key package. -/
  | installKeyPackage (via : Via)
  /-- PRESENT_OWNER_RECORD (R418): The present op of SEC_CMD accepts or refuses an owner record. -/
  | presentOwnerRecord (via : Via)
  /-- SEAL_NOW (R429): The seal op of SEC_CMD makes SEC append a seal entry at once. -/
  | sealNow (via : Via)
  /-- SEAL (R429): After 65,536 entries, or 1 s with an entry, SEC appends a signed seal entry. -/
  | seal
  /-- JOURNAL_ROOM_FREED (R430): Room frees in a full journal ring, and waiting writers and queued events are appended. -/
  | journalRoomFreed
  /-- EXPORT_ENABLE (R431): A write of export_en = 1 starts copying journal entries to the host ring from the oldest entry. -/
  | exportEnable (via : Via)
  /-- EXPORT_POLL (R431): Every 100 µs the device reads the consumer sequence of the export ring and releases consumed entries. -/
  | exportPoll (readable : Bool)
  /-- SPDM_REQUEST (R421): An SPDM request from the DOE mailbox, the management port or the fabric is answered by SEC. -/
  | spdmRequest (path : SpdmPath) (requester : BitVec 48) (msg : List Byte)
  /-- IDE_FAIL (R424): An IDE stream fails its integrity check, becomes insecure and sets ide_fail. -/
  | ideFail (port : HostPort) (stream : Fin 9)
  /-- LINK_UP (R448): A PCIe link completes training, and link_up is set. -/
  | linkUp (port : HostPort) (width : BitVec 2) (rate : BitVec 3) (flit : Bool)
  /-- HOST_LOSS (R449): PERST_N, a hot reset, a link-down, an FLR of PF0 or a cleared Bus Master Enable stops the port's rings and apertures. -/
  | hostLoss (port : HostPort) (cause : LossCause)
  /-- VF_FLR (R452): An FLR of a VF stops its rings and clears its apertures. -/
  | vfFlr (port : HostPort) (vf : Fin 31)
  /-- TDI_ERROR (R452): A TDI entering ERROR acts on its VF as a VF FLR does. -/
  | tdiError (port : HostPort) (vf : Fin 31)
  /-- ATS_INVALIDATION (R437): An ATS invalidation is honoured within 40 µs, holding accesses that use the entry. -/
  | atsInvalidation (port : HostPort) (func : FuncId) (base : BitVec 64) (len : BitVec 64) (mapped : Bool)
  /-- MAC_ENABLE (R468): A write of mac_en = 1 enables the management MAC. -/
  | macEnable (via : Via)
  /-- MAC_DISABLE (R468): A write of mac_en = 0 drops every queued frame of the management MAC. -/
  | macDisable (via : Via)
  /-- FRAME_RECEIVE (R461): A frame received on the management segment is filtered and steered to a receive queue. -/
  | frameReceive (frame : Frame) (bad : Bool)
  /-- FRAME_TRANSMIT (R459): The MAC takes the head of the highest non-empty transmit queue for a transmission attempt. -/
  | frameTransmit (collides : Bool)
  /-- COLLISION (R456): A collision jams the frame and starts a back-off, or drops it at the attempt limit. -/
  | collision (late : Bool)
  /-- BACKOFF_EXPIRY (R456): A back-off ends, and the frame may be attempted again. -/
  | backoffExpiry
  /-- BEACON_LOST (R457): 10 ms without a PLCA beacon makes the device fall back to CSMA/CD. -/
  | beaconLost
  /-- REG_READ (R465): A REG_READ management message reads one register and is answered with REG_RESP. -/
  | regRead
  /-- REG_WRITE (R465): A REG_WRITE management message from a permitted peer writes one register and is answered with REG_RESP. -/
  | regWrite
  /-- STAGE_DATA (R467): A STAGE_DATA message writes bytes into the staging buffer and is answered with STAGE_ACK. -/
  | stageData
  /-- POWER_ON_RESET (R470): PORST_N low or a VDD_AO brown-out resets the device, and its release begins start-up. -/
  | powerOnReset
  /-- AO_RELEASE (R473): The release of PORST_N samples the straps and starts the start-up steps. -/
  | aoRelease (feed : BitVec 4) (slot : BitVec 6) (mode : BitVec 2) (refA : Bool)
  /-- ACLK_LOCK_TIMEOUT (R16): ACLK not locked 2 ms after AO release makes start-up stop with cause 0x01. -/
  | aclkLockTimeout
  /-- STARTUP_STEP_COMPLETE (R473): A start-up step completes, boot_step advances and the next step begins. -/
  | startupStepComplete (aclk : Bool) (verified : BitVec 4) (cause : BitVec 8) (holdMax : BitVec 10)
  /-- HBM_TRAINING_DONE (R274): HBM stack training ends, and repair maps are applied to the stacks that passed. -/
  | hbmTrainingDone (trained : BitVec 8) (attempts : Vector (BitVec 2) 8) (codes : Vector (BitVec 4) 8)
  /-- WRST_N_ASSERT (R483): WRST_N held low for at least 10 µs starts a warm reset. -/
  | wrstNAssert
  /-- WARM_RESET (R499): A write to GLB_RESET with warm = 1 and the right key starts a warm reset. -/
  | warmReset (via : Via) (key : BitVec 16)
  /-- PPS_ABSENT (R491): 2 s after the last PPS edge, pps_present clears and the tick master key loses its PPS preference. -/
  | ppsAbsent
  /-- PLCA_BEACON (R457): A PLCA beacon starts a transmit-opportunity cycle; node 0 sends it, and on other nodes its arrival restores PLCA after a fallback. -/
  | plcaBeacon
  /-- PERST_N_DEASSERT (R448): PERST_N going high, or the port's reference clock starting, lets the port enter Detect and begin link training within 1 ms. -/
  | perstNDeassert (port : HostPort)
  /-- I3C_PAGE_REFRESH (R495): Every 1 ms the device refreshes its 32-byte I3C page from GLB_STATUS, PWR_STATUS, PWR_THERM and TCK_TICK. -/
  | i3cPageRefresh
  /-- I3C_DYNAMIC_ADDRESS (R495): A dynamic address assignment from the I3C controller replaces the device's static address 0x5C. -/
  | i3cDynamicAddress (addr : BitVec 7)
  deriving DecidableEq, Repr

end Sys2Proof
end

