-- ==== Sys2Proof/Decode.lean ====
section
/-! DEFINITION. The words of the opcode table: no row of it has bits, so no word spells a command. -/

namespace Sys2Proof

/-- The command a word spells by the table's bits: none, because the table gives its rows no bits. -/
def decodeTableWord (_nbits _w : Nat) : Option Instr := none

end Sys2Proof
end

