-- ==== Sys2Proof/Config.lean ====
section
/-! DEFINITION. What the spec leaves open: opaque constants with no body. A statement that mentions one holds for every value of it. -/

namespace Sys2Proof.Config

/-- The device's own choice within the bound of R158 for function `op` (0 EXP .. 6 GELU) on the FP32 bits `x`;
used only where it lies within the bound. -/
opaque functionResult (op : Nat) (x : Nat) : Nat

/-- Whether FMA raises invalid for 0 × ∞ plus a quiet NaN, which IEEE 754-2019 leaves to the implementation (R46). -/
opaque fmaInvalidOnQuietNaN : Bool

/-- The index that a conversion to T4 gives where the block's table has no entry of the kind the value asks for: a finite value
and no finite entry, or an infinity and nothing but NaNs (R53 states none). -/
opaque t4Open (table : List Nat) : Nat

/-- What a cell's weight register holds where nothing of its array's tile was loaded into it, by the number of the repair commit
that brought it under a logical cell (R65). -/
opaque cellWeight (n i : Nat) : Nat

/-- Byte i of a value the spec leaves undefined, by the number of the event that left it open (an overlapping copy, R132; the
layout of a save region, R247; an altered save region). -/
opaque freeByte (n i : Nat) : BitVec 8

/-- The bank an HBM row lies in, which the spec gives no numbering for (R269).
-/
opaque hbmBank (row : Nat) : Nat

/-- Both signatures of a signature block verify over its digest under the keys of its context (R412): the algorithms are those
of RFC 8032 and FIPS 204, which the spec does not restate. -/
opaque signaturesValid (context : Nat) (keys : List Nat) (block : List (BitVec 8)) : Bool

/-- The keys a key package wraps, where decapsulation and the GCM tag succeed (R419, R420). -/
opaque unwrapKeys (package : List (BitVec 8)) : Option Nat

/-- Byte i of the key stream that a job snapshot key gives a unit of a snapshot (R358: AES-256-GCM encrypts in counter mode). -/
opaque keystreamByte (key nonce i : Nat) : BitVec 8

/-- The AES-256-GCM tag of an encrypted unit of a snapshot, from its key, its number and its content (R358). -/
opaque gcmTag (key nonce : Nat) (unit : List (BitVec 8)) : BitVec 128

/-- A 64-byte line under AES-256-XTS with a bay's keys, and back; the tweak is the line's number, its local address divided by 64
(R272: IEEE 1619, which the spec does not restate). -/
opaque xtsEncrypt (key line : Nat) (data : List (BitVec 8)) : List (BitVec 8)
opaque xtsDecrypt (key line : Nat) (data : List (BitVec 8)) : List (BitVec 8)

/-- The settings that full training finds for a stack, by the number of the training (R274 gives them no form). -/
opaque hbmSettings (n stack : Nat) : Nat

/-- What the device's random generator draws, by the number of the draw (R272, R428). -/
opaque randomDraw (n : Nat) : Nat

/-- The frequency correction, in 0.01 ppm and within ±200 ppm, that a device chooses for its n-th measurement: R36 bounds it
and gives no rule for it. -/
opaque freqAdj (n : Nat) : BitVec 16

/-- The answer of SEC to an SPDM request, given the measurements of R423 and the answer of the message it carries as
application data, if any: the protocol is DSP0274's, which the spec does not restate. -/
opaque spdmAnswer (request inner : List (BitVec 8)) (measurements : List Nat) (n : Nat) : List (BitVec 8)

/-- The digest of a mask ROM or firmware image that is running, by its kind and level (R423). -/
opaque imageDigest (kind level : Nat) : Nat

/-- What an owner record carries (R415, R418). -/
structure OwnerRecord where
  length : Nat               -- of the record, its signature block included
  kind : Nat                 -- 0 enrolment, 1 settings change, 2 transfer, 3 release
  keys : List Nat            -- key IDs of the owner it names
  epoch : Nat
  coords : Option (Nat × Nat × Nat)
  selfAssign : Bool
  sysId : Nat
  domId : Nat
  rack : Nat
  masterEn : Bool
  adminEn : Nat
  siteEn : Bool
  envW : Nat
  upMax : Option Nat
  dnMax : Option Nat
  deriving DecidableEq, Repr

/-- The owner record that bytes hold, if any: R415 and R418 give its content and not its layout. -/
opaque ownerRecord (bytes : List (BitVec 8)) : Option OwnerRecord

/-- The ID of an alias key, Ed25519 (0) or ML-DSA-65 (1), of a device identity under a SEC image (R413: derived from secrets that
never leave SEC). -/
opaque aliasKeyId (identity image k : Nat) : Nat

/-- The signatures of a seal over its digest, under alias keys, named by their IDs, that never leave SEC (R413, R429). -/
opaque sealSignature (ed mldsa digest : Nat) : Nat

/-- The new value of the journal entry of a failed IDE stream: R424 has it made, and R501 lists no code for it. -/
opaque ideEvent (port stream : Nat) : Nat

/-- The MAC address of a fabric port, by the base address of the board record: R415 holds a base, and the spec gives no rule by
which a port's address follows from it. -/
opaque portMac (base port : Nat) : Nat

/-- The base of the SPDM mailbox window that a device keeps for a source device (R422): the spec gives its size alone. -/
opaque spdmWindow (src : Nat) : Nat

/-- What the n-th SPDM request served does to the secured sessions of its transport: 1 opens one, 2 closes one (R421). -/
opaque spdmSession (request : List (BitVec 8)) (n : Nat) : Nat

/-- The TDI that the n-th SPDM request served moves, and whether it is locked or runs afterwards (R452, by TDISP). -/
opaque tdiChange (request : List (BitVec 8)) (n : Nat) : Option (Nat × Bool)

/-- What a secured SPDM message on the management port carries as application data (R465): a management message, or with
`true` the ASSIGN packet of a frame. -/
opaque spdmApplication (request : List (BitVec 8)) (n : Nat) : Option (Bool × List (BitVec 8))

/-- The digest of a section of the board record, by its index in R423 and the number of its writes. -/
opaque sectionDigest (index writes : Nat) : Nat

end Sys2Proof.Config
end

