-- ==== Sys2Proof/Machine/Flags.lean ====
section
/-! DEFINITION. The five IEEE exception flags (R47, R162) and their sticky combination. -/

namespace Sys2Proof.Machine

/-- The five IEEE 754-2019 exceptions an operation raises (R47). -/
structure FFlags where
  invalid   : Bool := false
  divZero   : Bool := false
  overflow  : Bool := false
  underflow : Bool := false
  inexact   : Bool := false
  deriving DecidableEq, Repr

/-- No flag raised. -/
def FFlags.none : FFlags := {}

/-- The flags raised by either of two operations (R162: sticky flags are an OR). -/
def FFlags.or (a b : FFlags) : FFlags :=
  { invalid := a.invalid || b.invalid, divZero := a.divZero || b.divZero,
    overflow := a.overflow || b.overflow, underflow := a.underflow || b.underflow,
    inexact := a.inexact || b.inexact }

/-- The flags as bits of SCH_BAY_VFLAG.flags: bit 0 invalid, 1 division by zero, 2 overflow, 3 underflow, 4 inexact. -/
def FFlags.toNat (f : FFlags) : Nat :=
  f.invalid.toNat + 2 * f.divZero.toNat + 4 * f.overflow.toNat + 8 * f.underflow.toNat + 16 * f.inexact.toNat

/-- The OR of the flags of many elements. -/
def FFlags.orAll (l : List FFlags) : FFlags := l.foldl FFlags.or FFlags.none

end Sys2Proof.Machine
end

