-- ==== Sys2Proof/Machine/Num.lean ====
section
/-! DEFINITION. The fifteen number formats, exact values, rounding, conversions and the elementary operations
(spec/03_number_formats.md, R40 to R62; the function bounds of R158). -/

namespace Sys2Proof.Machine

/-- The formats of R40. -/
inductive Fmt where
  | fp64 | fp32 | bf16 | fp16 | e4m3 | e5m2 | e3m2 | e2m3 | e2m1
  | int32 | int16 | int8 | int4 | t4 | e8m0
  deriving DecidableEq, Repr

/-- The format of a code; codes 0x0F to 0x1F are reserved (R40). -/
def Fmt.ofCode : Nat → Option Fmt
  | 0x00 => some .fp64 | 0x01 => some .fp32 | 0x02 => some .bf16 | 0x03 => some .fp16
  | 0x04 => some .e4m3 | 0x05 => some .e5m2 | 0x06 => some .e3m2 | 0x07 => some .e2m3
  | 0x08 => some .e2m1 | 0x09 => some .int32 | 0x0A => some .int16 | 0x0B => some .int8
  | 0x0C => some .int4 | 0x0D => some .t4 | 0x0E => some .e8m0
  | _ => none

/-- Width in bits (R40). -/
def Fmt.width : Fmt → Nat
  | .fp64 => 64 | .fp32 => 32 | .bf16 => 16 | .fp16 => 16 | .e4m3 => 8 | .e5m2 => 8 | .e3m2 => 6 | .e2m3 => 6
  | .e2m1 => 4 | .int32 => 32 | .int16 => 16 | .int8 => 8 | .int4 => 4 | .t4 => 4 | .e8m0 => 8

/-- The seven short floats of R51. -/
def Fmt.isShort : Fmt → Bool
  | .bf16 | .fp16 | .e4m3 | .e5m2 | .e3m2 | .e2m3 | .e2m1 => true
  | _ => false

/-- The integer formats. -/
def Fmt.isInt : Fmt → Bool
  | .int32 | .int16 | .int8 | .int4 => true
  | _ => false

/-- The parameters of a float format (R43): exponent and significand widths, bias, whether it has infinities,
and the encoding of its largest finite magnitude. -/
structure FloatParams where
  ew : Nat
  mw : Nat
  bias : Nat
  hasInf : Bool
  maxEnc : Nat
  deriving DecidableEq, Repr

/-- The float parameters of a format (R43); none for the integer, table and scale formats. -/
def Fmt.params : Fmt → Option FloatParams
  | .fp64 => some ⟨11, 52, 1023, true, 0x7FEFFFFFFFFFFFFF⟩
  | .fp32 => some ⟨8, 23, 127, true, 0x7F7FFFFF⟩
  | .bf16 => some ⟨8, 7, 127, true, 0x7F7F⟩
  | .fp16 => some ⟨5, 10, 15, true, 0x7BFF⟩
  | .e4m3 => some ⟨4, 3, 7, false, 0x7E⟩
  | .e5m2 => some ⟨5, 2, 15, true, 0x7B⟩
  | .e3m2 => some ⟨3, 2, 3, false, 0x1F⟩
  | .e2m3 => some ⟨2, 3, 1, false, 0x1F⟩
  | .e2m1 => some ⟨2, 1, 1, false, 0x7⟩
  | _ => none

/-- An exact value: a NaN with its sign and its fraction left-aligned to 52 bits, an infinity,
or (−1)^neg × m × 2^e. -/
inductive Val where
  | nan (neg : Bool) (payload : Nat)
  | inf (neg : Bool)
  | fin (neg : Bool) (m : Nat) (e : Int)
  deriving DecidableEq, Repr

/-- +0. -/
def Val.zero : Val := .fin false 0 0

/-- The NaN an invalid operation generates: sign 0, canonical pattern (R44). -/
def Val.canonNaN : Val := .nan false (2 ^ 51)

/-- Neither an infinity nor a NaN. -/
def Val.isFinite : Val → Bool
  | .fin .. => true
  | _ => false

/-- A NaN. -/
def Val.isNaN : Val → Bool
  | .nan .. => true
  | _ => false

/-- A signalling NaN: the quiet bit of its fraction is clear. -/
def Val.isSignalling : Val → Bool
  | .nan _ p => !(p.testBit 51)
  | _ => false

/-- The NaN with its quiet bit set (R46). -/
def Val.quiet : Val → Val
  | .nan s p => if p.testBit 51 then .nan s p else .nan s (p + 2 ^ 51)
  | v => v

/-- The sign of a value. -/
def Val.sign : Val → Bool
  | .nan s _ => s
  | .inf s => s
  | .fin s _ _ => s

/-- The value with its sign flipped (a NaN keeps its sign). -/
def Val.negate : Val → Val
  | .nan s p => .nan s p
  | .inf s => .inf (!s)
  | .fin s m e => .fin (!s) m e

/-- A value that is zero of either sign. -/
def Val.isZero : Val → Bool
  | .fin _ m _ => m == 0
  | _ => false

/-- The exact value of an integer. -/
def Val.ofInt (i : Int) : Val := .fin (decide (i < 0)) i.natAbs 0

/-- Number of bits of a natural number: 0 for 0, else ⌊log2 n⌋ + 1. -/
def bitLen (n : Nat) : Nat := if n = 0 then 0 else Nat.log2 n + 1

/-- The value of a float encoding (R42, R43). -/
def FloatParams.decode (p : FloatParams) (bits : Nat) : Val :=
  let neg := bits.testBit (p.ew + p.mw)
  let mag := bits % 2 ^ (p.ew + p.mw)
  let e := mag / 2 ^ p.mw
  let f := mag % 2 ^ p.mw
  if mag > p.maxEnc then
    if p.hasInf && f == 0 then .inf neg
    else if p.mw == 52 || p.mw == 23 then .nan neg (f * 2 ^ (52 - p.mw))
    else .nan neg (2 ^ 51)
  else if e = 0 then .fin neg f (1 - (p.bias : Int) - p.mw)
  else .fin neg (2 ^ p.mw + f) ((e : Int) - p.bias - p.mw)

/-- Two's-complement value of the low w bits. -/
def signedOf (w bits : Nat) : Int :=
  let v := bits % 2 ^ w
  if v < 2 ^ (w - 1) then (v : Int) else (v : Int) - 2 ^ w

/-- The low w bits of an integer in two's complement. -/
def wrapInt (w : Nat) (i : Int) : Nat := (i % (2 ^ w : Int)).toNat

/-- The value of E8M0 bits: 2^(e−127), or NaN for 0xFF (R45). -/
def decodeE8M0 (bits : Nat) : Val :=
  if bits % 256 = 255 then Val.canonNaN else .fin false 1 ((bits % 256 : Nat) - 127)

/-- The value of an encoding; a T4 index takes its entry of `table` (BF16, R59). -/
def Fmt.decode (f : Fmt) (bits : Nat) (table : List Nat := []) : Val :=
  match f with
  | .e8m0 => decodeE8M0 bits
  | .t4 => (FloatParams.mk 8 7 127 true 0x7F7F).decode ((table.getD (bits % 16) 0))
  | f =>
    match f.params with
    | some p => p.decode bits
    | none => Val.ofInt (signedOf f.width bits)

/-- Rounding modes, by their code in the instruction word (R149): nearest even, toward zero, toward +∞,
toward −∞, and stochastic with its 16-bit random number (R51). -/
inductive RMode where
  | rne | rtz | rtp | rtn
  | stoch (u : Nat)
  deriving DecidableEq, Repr

/-- The IEEE mode of an rm code (0 to 3). -/
def RMode.ofCode : Nat → RMode
  | 1 => .rtz | 2 => .rtp | 3 => .rtn | _ => .rne

/-- ⌊m × 2^k⌋ for an integer k. -/
def shiftInt (m : Nat) (k : Int) : Nat :=
  if k < 0 then m >>> (-k).toNat else m <<< k.toNat

/-- Rounding of m × 2^e to an integer number of units 2^q: the count and whether the result is inexact. -/
def roundUnits (rm : RMode) (neg : Bool) (m : Nat) (e q : Int) : Nat × Bool :=
  if q ≤ e then (m <<< (e - q).toNat, false)
  else
    let sh := (q - e).toNat
    let n := m >>> sh
    let rem := m % 2 ^ sh
    if rem = 0 then (n, false)
    else
      let up : Bool := match rm with
        | .rne => decide (2 ^ sh < 2 * rem) || (2 * rem == 2 ^ sh && n % 2 == 1)
        | .rtz => false
        | .rtp => !neg
        | .rtn => neg
        | .stoch u => decide (65536 ≤ (2 ^ 16 * rem) / 2 ^ sh + u % 65536)
      (if up then n + 1 else n, true)

/-- How a destination treats a finite value beyond its largest (R53). -/
inductive OverflowRule where
  | ieee      -- ±∞, or the IEEE result under a directed mode
  | saturate  -- ± the largest finite value
  deriving DecidableEq, Repr

/-- The exponent of the unit in the last place of a magnitude m × 2^e (m ≠ 0) in a format. -/
def FloatParams.unitExp (p : FloatParams) (m : Nat) (e : Int) : Int :=
  max ((bitLen m : Int) - 1 + e) (1 - (p.bias : Int)) - p.mw

/-- Whether the magnitude overflows: beyond the largest after rounding, and under nearest-even from the largest plus
half its spacing on (R53). Under the other modes R53 gives no threshold, and a magnitude beyond the largest that rounds down
to it is inexact alone (DEDUCED, log entry 157: overflow is judged on the rounded result, as IEEE judges it). -/
def FloatParams.overflows (p : FloatParams) (rm : RMode) (m : Nat) (e : Int) (enc : Nat) : Bool :=
  decide (p.maxEnc < enc) ||
    (rm == .rne && enc == p.maxEnc &&
      (let q := p.unitExp m e
       let n := p.maxEnc % 2 ^ p.mw + 2 ^ p.mw
       -- 2 |x| ≥ (2 n + 1) units
       decide (q > e) && decide ((2 * n + 1) * 2 ^ (q - e).toNat ≤ 2 * m)))

/-- The encoding of a finite or infinite magnitude after rounding, without its sign, with its flags (R46, R50 to R53).
Tininess is detected after rounding. -/
def FloatParams.encodeMag (p : FloatParams) (rm : RMode) (ov : OverflowRule) (neg : Bool) (m : Nat) (e : Int) :
    Nat × FFlags :=
  if m = 0 then (0, .none)
  else
    let q := p.unitExp m e
    let (n, inx) := roundUnits rm neg m e q
    let enc := ((q + p.mw + p.bias - 1) * 2 ^ p.mw + n).toNat
    if p.overflows rm m e enc then
      let toInf : Bool := match ov, rm with
        | .saturate, _ => false
        | .ieee, .rtz => false
        | .ieee, .rtp => !neg
        | .ieee, .rtn => neg
        | .ieee, _ => true
      (if toInf then (2 ^ p.ew - 1) * 2 ^ p.mw else p.maxEnc, { overflow := true, inexact := true })
    else
      -- tiny after rounding with unbounded exponent
      let qu : Int := (bitLen m : Int) - 1 + e - p.mw
      let (nu, _) := roundUnits rm neg m e qu
      let tiny : Bool := decide ((bitLen nu : Int) - 1 + qu < 1 - (p.bias : Int))
      (enc, { underflow := tiny && inx, inexact := inx })

/-- Sign bit of a float format. -/
def FloatParams.signBit (p : FloatParams) (neg : Bool) : Nat := if neg then 2 ^ (p.ew + p.mw) else 0

/-- Conversion of a value to a float format (R53); `sat` is the saturate option, which only BF16, FP16 and E5M2 heed. A
signalling NaN raises invalid only where the row's flags name it: FP64 and FP32 by IEEE, E3M2, E2M3 and E2M1 for any NaN. -/
def encodeFloat (f : Fmt) (p : FloatParams) (rm : RMode) (sat : Bool) (v : Val) : Nat × FFlags :=
  match v with
  | .nan s pay =>
    match f with
    | .fp64 => (p.signBit s + 0x7FF0000000000000 + (if pay.testBit 51 then pay else pay + 2 ^ 51),
        { invalid := !(pay.testBit 51) })
    | .fp32 => (p.signBit s + 0x7F800000 + (if pay.testBit 51 then pay else pay + 2 ^ 51) / 2 ^ 29,
        { invalid := !(pay.testBit 51) })
    | .e4m3 => (p.signBit s + 0x7F, .none)
    | .e3m2 | .e2m3 | .e2m1 => (0, { invalid := true })
    | _ => (p.signBit s + (2 ^ p.ew - 1) * 2 ^ p.mw + 2 ^ (p.mw - 1), .none)
  | .inf s =>
    match f with
    | .e4m3 => (p.signBit s + 0x7F, { invalid := true })
    | .e3m2 | .e2m3 | .e2m1 => (p.signBit s + p.maxEnc, { invalid := true })
    | _ => (p.signBit s + (2 ^ p.ew - 1) * 2 ^ p.mw, .none)
  | .fin s m e =>
    let ov : OverflowRule :=
      match f with
      | .fp64 | .fp32 => .ieee
      | .bf16 | .fp16 | .e5m2 => if sat then .saturate else .ieee
      | _ => .saturate
    let (enc, fl) := p.encodeMag rm ov s m e
    (p.signBit s + enc, fl)

/-- Conversion to an integer format of w bits (R53). Whether a value is out of range is judged after rounding, for INT8 and
INT4 as IEEE 754-2019 judges it for INT32 and INT16 (DEDUCED, log entry 158). -/
def encodeInt (w : Nat) (rm : RMode) (v : Val) : Nat × FFlags :=
  let top : Nat := 2 ^ (w - 1)
  match v with
  | .nan .. => (0, { invalid := true })
  | .inf s => (if s then top else top - 1, { invalid := true })
  | .fin s m e =>
    -- a magnitude of 2^64 or more is out of range of every integer format; the cut keeps the shift small
    if decide (m ≠ 0) && decide ((bitLen m : Int) + e > 64) then (if s then top else top - 1, { invalid := true })
    else
      let (n, inx) := roundUnits rm s m e 0
      if s then
        if n ≤ top then (wrapInt w (-(n : Int)), { inexact := inx }) else (top, { invalid := true })
      else if n < top then (n, { inexact := inx }) else (top - 1, { invalid := true })

/-- Conversion to E8M0: the magnitude rounded down to a power of two (R53). -/
def encodeE8M0 (v : Val) : Nat × FFlags :=
  match v with
  | .nan .. => (0xFF, { invalid := true })
  | .inf _ => (0xFF, { invalid := true })
  | .fin _ m e =>
    if m = 0 then (0, .none)
    else
      let l : Int := (bitLen m : Int) - 1 + e + 127
      (if l < 0 then 0 else if l > 254 then 254 else l.toNat, .none)

/-- Compare two finite values: negative, zero or positive difference of their exact values. -/
def cmpFin (s1 : Bool) (m1 : Nat) (e1 : Int) (s2 : Bool) (m2 : Nat) (e2 : Int) : Ordering :=
  let e := min e1 e2
  let a : Int := (m1 <<< (e1 - e).toNat : Nat)
  let b : Int := (m2 <<< (e2 - e).toNat : Nat)
  compare (if s1 then -a else a) (if s2 then -b else b)

/-- Order of two values that are not NaN (−0 equals +0). -/
def Val.cmp : Val → Val → Ordering
  | .inf s, .inf t => if s == t then .eq else if s then .lt else .gt
  | .inf s, _ => if s then .lt else .gt
  | _, .inf t => if t then .gt else .lt
  | .fin s m e, .fin t n k => cmpFin s m e t n k
  | _, _ => .eq

/-- Sum of two exact finite values, aligned to the lower exponent; an exact zero sum of opposite signs is +0, or −0
when rounding toward −∞ (R46). -/
def addFin (rm : RMode) (s1 : Bool) (m1 : Nat) (e1 : Int) (s2 : Bool) (m2 : Nat) (e2 : Int) : Val :=
  let e := if m1 = 0 then e2 else if m2 = 0 then e1 else min e1 e2
  let a : Int := (m1 <<< (e1 - e).toNat : Nat)
  let b : Int := (m2 <<< (e2 - e).toNat : Nat)
  let r := (if s1 then -a else a) + (if s2 then -b else b)
  if r = 0 then
    if m1 = 0 && s1 == s2 then .fin s1 0 0
    else .fin (rm == .rtn) 0 0
  else .fin (decide (r < 0)) r.natAbs e

/-- The first NaN operand in operand order, quieted, and invalid when any operand signals (R46). -/
def nanResult (ops : List Val) : Option (Val × FFlags) :=
  match ops.find? Val.isNaN with
  | some v => some (v.quiet, { invalid := ops.any Val.isSignalling })
  | none => none

/-- Exact sum with the IEEE special cases (R46). -/
def vadd (rm : RMode) (a b : Val) : Val × FFlags :=
  match nanResult [a, b] with
  | some r => r
  | none =>
    match a, b with
    | .inf s, .inf t => if s == t then (.inf s, .none) else (Val.canonNaN, { invalid := true })
    | .inf s, _ => (.inf s, .none)
    | _, .inf t => (.inf t, .none)
    | .fin s m e, .fin t n k => (addFin rm s m e t n k, .none)
    | _, _ => (Val.canonNaN, .none)

/-- Exact product with the IEEE special cases. -/
def vmul (a b : Val) : Val × FFlags :=
  match nanResult [a, b] with
  | some r => r
  | none =>
    let s := a.sign != b.sign
    match a, b with
    | .fin _ m e, .fin _ n k => (.fin s (m * n) (e + k), .none)
    | a, b => if a.isZero || b.isZero then (Val.canonNaN, { invalid := true }) else (.inf s, .none)

/-- a × b + c, exact, with one rounding left to the encoder; `negP` negates the product (FNMA). -/
def vfma (rm : RMode) (negP : Bool) (a b c : Val) : Val × FFlags :=
  let zeroTimesInf := (a.isZero && b == .inf b.sign) || (b.isZero && a == .inf a.sign)
  match nanResult [a, b, c] with
  | some (v, fl) =>
    (v, { fl with invalid := fl.invalid || (zeroTimesInf && Config.fmaInvalidOnQuietNaN) })
  | none =>
    let (p, fl) := vmul a b
    if p.isNaN then (p, fl)
    else
      let p := if negP then p.negate else p
      let (r, fl2) := vadd rm p c
      (r, fl.or fl2)

/-- Bits of precision kept below the exact quotient or root: enough for a correct rounding of every format, with a
sticky last bit. -/
def sticky (q : Nat) (rest : Bool) : Nat := 2 * q + rest.toNat

/-- Quotient with the IEEE special cases; the last bit of the magnitude is sticky, so every later rounding is correct. -/
def vdiv (a b : Val) : Val × FFlags :=
  match nanResult [a, b] with
  | some r => r
  | none =>
    let s := a.sign != b.sign
    match a, b with
    | .inf _, .inf _ => (Val.canonNaN, { invalid := true })
    | .inf _, _ => (.inf s, .none)
    | _, .inf _ => (.fin s 0 0, .none)
    | .fin _ m e, .fin _ n k =>
      if n = 0 then
        if m = 0 then (Val.canonNaN, { invalid := true }) else (.inf s, { divZero := true })
      else if m = 0 then (.fin s 0 0, .none)
      else
        let sh := 64 + bitLen n
        let num := m <<< sh
        (.fin s (sticky (num / n) (num % n != 0)) (e - k - sh - 1), .none)
    | _, _ => (Val.canonNaN, .none)

/-- ⌊√n⌋ by trial bits from bit `b − 1` down. -/
def isqrtBits (n : Nat) : Nat → Nat → Nat
  | 0, acc => acc
  | b + 1, acc =>
    let t := acc + 2 ^ b
    isqrtBits n b (if t * t ≤ n then t else acc)

/-- ⌊√n⌋. -/
def isqrt (n : Nat) : Nat := isqrtBits n (bitLen n / 2 + 1) 0

/-- Square root with the IEEE special cases; the last bit of the magnitude is sticky. -/
def vsqrt (a : Val) : Val × FFlags :=
  match nanResult [a] with
  | some r => r
  | none =>
    match a with
    | .inf s => if s then (Val.canonNaN, { invalid := true }) else (.inf false, .none)
    | .fin s m e =>
      if m = 0 then (.fin s 0 0, .none)
      else if s then (Val.canonNaN, { invalid := true })
      else
        let sh : Nat := 128 + (e % 2).toNat
        let n := m <<< sh
        let r := isqrt n
        (.fin false (sticky r (r * r != n)) ((e - sh) / 2 - 1), .none)
    | v => (v, .none)

/-- IEEE minimum and maximum: NaN propagates and −0 < +0 (R151); `mx` selects maximum. -/
def vminmax (mx : Bool) (a b : Val) : Val × FFlags :=
  match nanResult [a, b] with
  | some r => r
  | none =>
    let lt : Bool := match a.cmp b with
      | .lt => true
      | .gt => false
      | .eq => a.sign && !b.sign
    (if lt != mx then a else b, .none)

/-- IEEE minimumNumber and maximumNumber: a number is chosen over a NaN; a signalling NaN raises invalid (R46). -/
def vminmaxNum (mx : Bool) (a b : Val) : Val × FFlags :=
  let fl : FFlags := { invalid := a.isSignalling || b.isSignalling }
  if a.isNaN && b.isNaN then (a.quiet, fl)
  else if a.isNaN then (b, fl)
  else if b.isNaN then (a, fl)
  else vminmax mx a b

/-- roundToIntegral under a rounding mode; it raises invalid for a signalling NaN and never inexact (R46). -/
def vrint (rm : RMode) (a : Val) : Val × FFlags :=
  match a with
  | .nan .. => (a.quiet, { invalid := a.isSignalling })
  | .inf s => (.inf s, .none)
  | .fin s m e => if 0 ≤ e then (a, .none) else (.fin s (roundUnits rm s m e 0).1 0, .none)

/-- The comparison conditions of CMP (R155): 0 EQ, 1 NE, 2 LT, 3 LE, 4 GT, 5 GE, 6 UN, 7 ORD. Only LT, LE, GT and GE raise
invalid for a NaN; the others raise nothing, a signalling NaN included (DEDUCED: R155's own words go before R46's). -/
def vcmp (cond : Nat) (a b : Val) : Bool × FFlags :=
  let un := a.isNaN || b.isNaN
  let o := a.cmp b
  match cond % 8 with
  | 0 => (!un && o == .eq, .none)
  | 1 => (un || o != .eq, .none)
  | 2 => (!un && o == .lt, { invalid := un })
  | 3 => (!un && o != .gt, { invalid := un })
  | 4 => (!un && o == .gt, { invalid := un })
  | 5 => (!un && o != .lt, { invalid := un })
  | 6 => (un, .none)
  | _ => (!un, .none)

/-- Distance of a finite value from a finite table entry, as an exact magnitude over a common exponent −`k`. -/
def distFin (v w : Val) : Option (Nat × Int) :=
  match v, w with
  | .fin s m e, .fin t n k =>
    match addFin .rne s m e (!t) n k with
    | .fin _ d x => some (d, x)
    | _ => none
  | _, _ => none

/-- Strict order of two magnitudes m × 2^e. -/
def magLt (a b : Nat × Int) : Bool := cmpFin false a.1 a.2 false b.1 b.2 == .lt

/-- The index of the T4 entry for a value (R53): the nearest finite entry, lower index on a tie; ±∞ takes the greatest or
least entry; NaN takes the first NaN entry, or index 0 with invalid. A finite value with no finite entry, and an infinity where
every entry is a NaN, take a free index (DESIGN CHOICE, log entry 159: R53 states none). -/
def encodeT4 (table : List Nat) (v : Val) : Nat × FFlags :=
  let entries := (List.range 16).map fun i => (i, Fmt.decode .bf16 (table.getD i 0))
  match v with
  | .nan .. =>
    match entries.find? (fun x => x.2.isNaN) with
    | some (i, _) => (i, .none)
    | none => (0, { invalid := true })
  | .inf s =>
    let best := entries.foldl (fun (acc : Option (Nat × Val)) x =>
      if x.2.isNaN then acc else
      match acc with
      | none => some x
      | some y => if (if s then x.2.cmp y.2 == .lt else x.2.cmp y.2 == .gt) then some x else acc) none
    ((best.map (·.1)).getD (Config.t4Open table % 16), .none)
  | .fin .. =>
    let best := entries.foldl (fun (acc : Option (Nat × (Nat × Int))) x =>
      match distFin v x.2 with
      | none => acc
      | some d =>
        match acc with
        | none => some (x.1, d)
        | some y => if magLt d y.2 then some (x.1, d) else acc) none
    ((best.map (·.1)).getD (Config.t4Open table % 16), .none)

/-- Conversion of a value to any format under R53. -/
def Fmt.encode (f : Fmt) (rm : RMode) (sat : Bool) (v : Val) (table : List Nat := []) : Nat × FFlags :=
  match f with
  | .e8m0 => encodeE8M0 v
  | .t4 => encodeT4 table v
  | f =>
    match f.params with
    | some p => encodeFloat f p rm sat v
    | none => encodeInt f.width rm v

/-- Round a value to FP32 by nearest even and decode it again: the accumulator's rounding (R62). -/
def roundF32 (v : Val) : Val := Fmt.decode .fp32 (Fmt.encode .fp32 .rne false v).1

/-! ### Functions of R158

Each is evaluated to a dyadic with at least 90 correct bits; the device's result is a free value within the bound. -/

/-- Fractional bits of the fixed-point evaluation. -/
def fixP : Nat := 256

/-- atanh(1/z) style series: Σ t^(2k+1)/(2k+1) for t = num/2^fixP, `n` terms from index k. -/
def atanhSeries (t2 : Nat) : Nat → Nat → Nat → Nat → Nat
  | 0, _, _, acc => acc
  | n + 1, k, pw, acc => atanhSeries t2 n (k + 1) ((pw * t2) >>> fixP) (acc + pw / (2 * k + 1))

/-- ln 2 × 2^fixP. -/
def ln2Fix : Nat :=
  let t := 2 ^ fixP / 3
  2 * atanhSeries ((t * t) >>> fixP) 90 0 t 0

/-- Taylor series of e^r for r × 2^fixP in [0, ln 2). -/
def expSeries (r : Nat) : Nat → Nat → Nat → Nat → Nat
  | 0, _, _, acc => acc
  | n + 1, k, term, acc => expSeries r n (k + 1) (((term * r) >>> fixP) / (k + 1)) (acc + term)

/-- e^x as a dyadic magnitude, x given in units of 2^−fixP (|x| < 2^11 keeps the exponent small). -/
def expDyadic (x : Int) : Nat × Int :=
  let k : Int := x / (ln2Fix : Int)
  let r : Nat := (x - k * ln2Fix).toNat
  (expSeries r 64 0 (2 ^ fixP) 0, k - fixP)

/-- A finite value in units of 2^−fixP, truncated, and clamped to ±2^10. -/
def toFix (s : Bool) (m : Nat) (e : Int) : Int :=
  let a : Nat := if (bitLen m : Int) + e > 11 then 2 ^ (fixP + 10) else min (shiftInt m (e + fixP)) (2 ^ (fixP + 10))
  if s then -(a : Int) else a

/-- num/den as a dyadic with 192 bits below the leading one of den. -/
def ratDyadic (num : Nat) (ne : Int) (den : Nat) (de : Int) : Nat × Int :=
  let sh := 192 + bitLen den
  ((num <<< sh) / den, ne - de - sh)

/-- Sum of two positive dyadics. -/
def addDyadic (a b : Nat × Int) : Nat × Int :=
  let e := min a.2 b.2
  ((a.1 <<< (a.2 - e).toNat) + (b.1 <<< (b.2 - e).toNat), e)

/-- 1/(1 + e^−x) as a dyadic. -/
def sigmDyadic (x : Int) : Nat × Int :=
  if x < 0 then
    let t := expDyadic x
    let d := addDyadic (1, 0) t
    ratDyadic t.1 t.2 d.1 d.2
  else
    let d := addDyadic (1, 0) (expDyadic (-x))
    ratDyadic 1 0 d.1 d.2

/-- ln(m × 2^e) for m > 0, in units of 2^−fixP. -/
def lnFix (m : Nat) (e : Int) : Int :=
  -- scale to f in [3/4, 3/2)
  let b := bitLen m
  let k0 : Int := (b : Int) - 1 + e
  let f0 : Nat := shiftInt m ((fixP : Int) - ((b : Int) - 1))
  let big := decide (3 * 2 ^ fixP ≤ 2 * f0)
  let k := if big then k0 + 1 else k0
  let f := if big then f0 / 2 else f0
  let one := 2 ^ fixP
  let neg := decide (f < one)
  let num := if neg then one - f else f - one
  let t := (num <<< fixP) / (f + one)
  let a : Int := (2 * atanhSeries ((t * t) >>> fixP) 64 0 t 0 : Nat)
  k * ln2Fix + (if neg then -a else a)

/-- The exact (to at least 90 bits) result of function `op` (0 EXP, 1 LOG, 2 RSQRT, 3 SIGM, 4 TANH, 5 SILU, 6 GELU)
on a finite non-special argument. -/
def funcExact (op : Nat) (s : Bool) (m : Nat) (e : Int) : Val :=
  match op with
  | 0 => let r := expDyadic (toFix s m e); .fin false r.1 r.2
  | 1 => let r := lnFix m e; .fin (decide (r < 0)) r.natAbs (-(fixP : Int))
  | 2 =>
    -- 1/√(m 2^e) = √(2^(2k)/m) with an even exponent
    let sh : Nat := 400 + (e % 2).toNat
    let n := 2 ^ sh / m
    .fin false (sticky (isqrt n) true) ((-e - sh) / 2 - 1)
  | 3 => let r := sigmDyadic (toFix s m e); .fin false r.1 r.2
  | 4 =>
    if (bitLen m : Int) + e < -20 then
      -- x − x³/3 + 2x⁵/15 = x (15 − 5x² + 2x⁴)/15 with x² = m² 2^(2e)
      let k := (-e).toNat
      let x2 := m * m
      let num := 15 * 2 ^ (4 * k) + 2 * x2 * x2 - 5 * x2 * 2 ^ (2 * k)
      let r := ratDyadic (m * num) (e - 4 * k) 15 0
      .fin s r.1 r.2
    else
      let t := expDyadic (-2 * toFix false m e)
      let d := addDyadic (1, 0) t
      let one : Nat := 1 <<< (-t.2).toNat
      let r := ratDyadic (one - t.1) t.2 d.1 d.2
      .fin s r.1 r.2
  | 5 => let r := sigmDyadic (toFix s m e); .fin s (m * r.1) (e + r.2)
  | _ =>
    -- x × sigmoid(2u), 2u = 1.5957692 (x + 0.044715 x³)
    let x := toFix s m e
    let x3 := x * x * x / 2 ^ (2 * fixP)
    let u2 := 15957692 * (x + 44715 * x3 / 1000000) / 10000000
    let lim : Int := 2 ^ (fixP + 10)
    let r := sigmDyadic (max (-lim) (min lim u2))
    .fin s (m * r.1) (e + r.2)

/-- Whether candidate bits lie within the bound of R158: `k` ulp of the exactly rounded result, or the absolute bound that
the function's row adds (`abs`: exponent of two). -/
def withinBound (k : Nat) (abs : Option Int) (exact : Val) (rounded cand : Nat) : Bool :=
  match Fmt.decode .fp32 cand, exact with
  | .fin cs cm ce, .fin s m e =>
    let ulpExp : Int := max ((((rounded % 2 ^ 31) / 2 ^ 23 : Nat) : Int) - 127) (-126) - 23
    match addFin .rne cs cm ce (!s) m e with
    | .fin _ d x =>
      decide (cand < 2 ^ 32) &&
      (!(magLt (k, ulpExp) (d, x)) || (match abs with | some q => !(magLt (1, q) (d, x)) | none => false))
    | _ => false
  | _, _ => false

/-- The bound of a function at a result (R158). -/
def funcBound (op : Nat) (arg : Val) (exact : Val) : Nat × Option Int :=
  match op with
  | 1 =>
    -- absolute 2^-26 for x in [0.97, 1.03]
    let inside := match arg with
      | .fin false m e =>
        !(magLt (100 * m, e) (97, 0)) && !(magLt (103, 0) (100 * m, e))
      | _ => false
    (2, if inside then some (-26) else none)
  | 2 => (1, none)
  | 5 => (3, none)
  | 6 =>
    let small := match exact with
      | .fin _ m e => magLt (m, e) (1, -20)
      | _ => false
    if small then (0, some (-40)) else (4, none)
  | _ => (2, none)

/-- A function of R158 on FP32 bits: the special results, else the free value within the bound, else (where the free value
lies outside the bound) the exactly rounded result. -/
def funcApply (op : Nat) (bits : Nat) : Nat × FFlags :=
  let v := Fmt.decode .fp32 bits
  let pinf := 0x7F800000
  let ninf := 0xFF800000
  let one := 0x3F800000
  let qnan := 0x7FC00000
  let general (s : Bool) (m : Nat) (e : Int) : Nat × FFlags :=
    let ex := funcExact op s m e
    let r := (Fmt.encode .fp32 .rne false ex).1
    let (k, ab) := funcBound op v ex
    let c := Config.functionResult op bits
    (if withinBound k ab ex r c then c else r, .none)
  match v with
  | .nan .. => ((Fmt.encode .fp32 .rne false v.quiet).1, .none)
  | .inf s =>
    match op with
    | 0 => (if s then 0 else pinf, .none)
    | 1 => if s then (qnan, { invalid := true }) else (pinf, .none)
    | 2 => if s then (qnan, { invalid := true }) else (0, .none)
    | 3 => (if s then 0 else one, .none)
    | 4 => (if s then one + 2 ^ 31 else one, .none)
    | _ => (if s then 2 ^ 31 else pinf, .none)
  | .fin s m e =>
    match op with
    | 0 => if !s && magLt (887228, 0) (10000 * m, e) then (pinf, { overflow := true }) else general s m e
    | 1 => if m = 0 then (ninf, { divZero := true }) else if s then (qnan, { invalid := true }) else general s m e
    | 2 =>
      if m = 0 then (if s then ninf else pinf, { divZero := true })
      else if s then (qnan, { invalid := true }) else general s m e
    | 4 => if m = 0 then (if s then 2 ^ 31 else 0, .none) else general s m e
    | _ => general s m e

/-! ### Block parameters (R55 to R59) -/

/-- The exponent of the largest finite value of a block-scaled format: emax of R56. -/
def Fmt.emax : Fmt → Int
  | .e4m3 => 8
  | .e5m2 => 15
  | .e3m2 => 4
  | _ => 2

/-- The E8M0 scale of a block of values (R56). -/
def blockScale (f : Fmt) (vals : List Val) : Nat :=
  if vals.any (fun v => !v.isFinite) then 0xFF
  else
    let amax := vals.foldl (fun (acc : Nat × Int) v =>
      match v with
      | .fin _ m e => if m ≠ 0 && (acc.1 = 0 || magLt acc (m, e)) then (m, e) else acc
      | _ => acc) (0, 0)
    if amax.1 = 0 then 0
    else
      let x : Int := (bitLen amax.1 : Int) - 1 + amax.2 - f.emax
      (max (-127) (min 127 x) + 127).toNat

/-- An element divided exactly by the block scale (R56). By the scale 0xFF, which is a NaN, every element gives a NaN: the
element itself where it is one (the first NaN operand, R46), else the scale's, whose sign is clear as E8M0 has none. -/
def scaleDown (scale : Nat) (v : Val) : Val :=
  match v with
  | .nan s p => .nan s p
  | .inf s => if scale = 0xFF then Fmt.decode .e8m0 0xFF else .inf s
  | .fin s m e => if scale = 0xFF then Fmt.decode .e8m0 0xFF else .fin s m (e - ((scale : Int) - 127))

/-- A decoded element times its block's scale (R55). -/
def scaleUp (scale : Nat) (v : Val) : Val :=
  match decodeE8M0 scale with
  | .nan .. => Val.canonNaN
  | _ =>
    match v with
    | .fin s m e => .fin s m (e + ((scale % 256 : Nat) : Int) - 127)
    | v => v

/-- Expansion of an INT8 or INT4 element with its parameter record (R58): (q − z) × s, rounded once by nearest even. -/
def expandInt (isInt4 : Bool) (record q : Nat) (dst : Fmt) : Val :=
  let s := Fmt.decode .bf16 (record % 2 ^ 16)
  let z0 := signedOf 8 (record / 2 ^ 16)
  let z := if isInt4 then max (-8) (min 7 z0) else z0
  let qv := signedOf (if isInt4 then 4 else 8) q
  let (p, _) := vmul (Val.ofInt (qv - z)) s
  dst.decode (dst.encode .rne false p).1

/-- Expansion of a T4 element (R59). -/
def expandT4 (table : List Nat) (q : Nat) (dst : Fmt) : Val :=
  let v := Fmt.decode .t4 q table
  match dst with
  | .bf16 => v
  | d => d.decode (d.encode .rne false v).1

/-! ### The stochastic-rounding generator (R502) -/

/-- One Philox4x32 round: the two 32-bit products of the published multipliers.  PRESUMED: the constants are those of
the publication R502 names. -/
def philoxRound (k0 k1 : Nat) (c : Nat × Nat × Nat × Nat) : Nat × Nat × Nat × Nat :=
  let p0 := 0xD2511F53 * c.1
  let p1 := 0xCD9E8D57 * c.2.2.1
  ((p1 / 2 ^ 32) ^^^ c.2.1 ^^^ k0, p1 % 2 ^ 32, (p0 / 2 ^ 32) ^^^ c.2.2.2 ^^^ k1, p0 % 2 ^ 32)

/-- `n` rounds, the key words advancing by the published increments. -/
def philoxRounds : Nat → Nat → Nat → Nat × Nat × Nat × Nat → Nat × Nat × Nat × Nat
  | 0, _, _, c => c
  | n + 1, k0, k1, c =>
    philoxRounds n ((k0 + 0x9E3779B9) % 2 ^ 32) ((k1 + 0xBB67AE85) % 2 ^ 32) (philoxRound k0 k1 c)

/-- The e-th 16-bit number of unit u, column or lane c, for a seed and a step number (R502). -/
def stochNumber (seed step u c e : Nat) : Nat :=
  let ctr := (e / 8 % 2 ^ 32, u + 2 ^ 12 * c + 2 ^ 19 * (e / 2 ^ 35 % 2 ^ 13), step % 2 ^ 32, step / 2 ^ 32 % 2 ^ 16)
  let o := philoxRounds 10 (seed % 2 ^ 32) (seed / 2 ^ 32 % 2 ^ 32) ctr
  let j := e % 8
  let w := match j / 2 with
    | 0 => o.1
    | 1 => o.2.1
    | 2 => o.2.2.1
    | _ => o.2.2.2
  w / 2 ^ (16 * (j % 2)) % 2 ^ 16

/-! ### Bit strings (R41) -/

/-- The w-bit element i of a bit string held as a number. -/
def elemAt (w i s : Nat) : Nat := (s >>> (w * i)) % 2 ^ w

/-- The bit string of a list of w-bit elements, element 0 lowest. -/
def packElems (w : Nat) : List Nat → Nat
  | [] => 0
  | x :: xs => x % 2 ^ w + 2 ^ w * packElems w xs

/-- The elements 0 to n − 1 of a bit string. -/
def unpackElems (w n s : Nat) : List Nat := (List.range n).map fun i => elemAt w i s

/-- How far a counter that wraps at m has gone from b to a. (The sum is written with its literal on the left, which Lean's kernel
does not count down.) -/
def aheadOf (m a b : Nat) : Nat := (m - b % m + a) % m

/-- The bytes of a number, lowest first. -/
def toBytes (n v : Nat) : List Byte := (List.range n).map fun i => BitVec.ofNat 8 (v >>> (8 * i))

/-- The number of a list of bytes, lowest first. -/
def ofBytes : List Byte → Nat
  | [] => 0
  | b :: bs => b.toNat + 256 * ofBytes bs

end Sys2Proof.Machine
end

