-- ==== Sys2Proof/Machine/RegMap.lean ====
section
/-! DEFINITION. The register map: every register of the spec's field tables with its place, fields, access codes, reset
values and joint (R3 to R8, R19, and the register sections of every chapter).  A register instance is named by its offset
in the 64 MiB register space; a field is named REGISTER.field and gives its place. -/

namespace Sys2Proof.Machine

/-- Access codes (R6). -/
inductive Access where
  | ro | rw | w1c | w1s | wo | jw | sw
  deriving DecidableEq, Repr

/-- One field of a register: lowest bit, width, access code, reset value, and for a joint field the least and greatest
value and the alignment that its description states (R195). -/
structure FieldDef where
  lo : Nat
  w : Nat
  acc : Access
  reset : Nat
  range : Option (Nat × Nat × Nat)
  deriving DecidableEq, Repr

/-- A register or an array of registers: offset of the first instance, one (stride, count) per index, the joint ID of
its JW fields as a base plus one coefficient per index, and its fields (bits of no field are reserved). -/
structure RegDef where
  base : Nat
  dims : List (Nat × Nat)
  jointBase : Nat
  jointCoef : List Nat
  fields : List FieldDef
  deriving DecidableEq, Repr

/-- A field of one register instance: register offset, lowest bit, width. -/
structure RF where
  off : Nat
  lo : Nat
  w : Nat
  deriving DecidableEq, Repr

/-- GLB_IDENT: spec/01_device_organisation.md, R19. -/
def GLB_IDENT.off : Nat := 0x0
def GLB_IDENT.vendor : RF := ⟨GLB_IDENT.off, 0, 16⟩
def GLB_IDENT.part : RF := ⟨GLB_IDENT.off, 16, 16⟩
def GLB_IDENT.stepping : RF := ⟨GLB_IDENT.off, 32, 8⟩
def GLB_IDENT.variant : RF := ⟨GLB_IDENT.off, 40, 2⟩

/-- GLB_SERIAL: spec/01_device_organisation.md, R19. -/
def GLB_SERIAL.off : Nat := 0x8
def GLB_SERIAL.serial : RF := ⟨GLB_SERIAL.off, 0, 64⟩

/-- GLB_STATUS: spec/01_device_organisation.md, R19. -/
def GLB_STATUS.off : Nat := 0x10
def GLB_STATUS.boot_step : RF := ⟨GLB_STATUS.off, 0, 4⟩
def GLB_STATUS.ready : RF := ⟨GLB_STATUS.off, 4, 1⟩
def GLB_STATUS.boot_fail : RF := ⟨GLB_STATUS.off, 5, 1⟩
def GLB_STATUS.boot_cause : RF := ⟨GLB_STATUS.off, 6, 8⟩
def GLB_STATUS.aclk_lock : RF := ⟨GLB_STATUS.off, 14, 1⟩
def GLB_STATUS.pcie_ref_sel : RF := ⟨GLB_STATUS.off, 15, 1⟩
def GLB_STATUS.pps_present : RF := ⟨GLB_STATUS.off, 16, 1⟩
def GLB_STATUS.ag_usable : RF := ⟨GLB_STATUS.off, 17, 16⟩
def GLB_STATUS.stack_usable : RF := ⟨GLB_STATUS.off, 33, 8⟩

/-- GLB_BAD_ACCESS: spec/01_device_organisation.md, R20. -/
def GLB_BAD_ACCESS.off : Nat := 0x18
def GLB_BAD_ACCESS.count : RF := ⟨GLB_BAD_ACCESS.off, 0, 32⟩
def GLB_BAD_ACCESS.last_offset : RF := ⟨GLB_BAD_ACCESS.off, 32, 26⟩
def GLB_BAD_ACCESS.last_write : RF := ⟨GLB_BAD_ACCESS.off, 58, 1⟩
def GLB_BAD_ACCESS.last_origin : RF := ⟨GLB_BAD_ACCESS.off, 59, 2⟩

/-- TCK_PERIOD: spec/02_the_tick.md, R39. -/
def TCK_PERIOD.off : Nat := 0x3800000
def TCK_PERIOD.period_us : RF := ⟨TCK_PERIOD.off, 0, 14⟩
def TCK_PERIOD.guard_pct : RF := ⟨TCK_PERIOD.off, 16, 6⟩
def TCK_PERIOD.skew_domain : RF := ⟨TCK_PERIOD.off, 22, 1⟩

/-- TCK_CHANGE_AT: spec/02_the_tick.md, R39. -/
def TCK_CHANGE_AT.off : Nat := 0x3800008
def TCK_CHANGE_AT.change_tick : RF := ⟨TCK_CHANGE_AT.off, 0, 48⟩

/-- TCK_TICK: spec/02_the_tick.md, R39. -/
def TCK_TICK.off : Nat := 0x3800010
def TCK_TICK.tick : RF := ⟨TCK_TICK.off, 0, 48⟩

/-- TCK_TIME: spec/02_the_tick.md, R39. -/
def TCK_TIME.off : Nat := 0x3800018
def TCK_TIME.time_ns : RF := ⟨TCK_TIME.off, 0, 64⟩

/-- TCK_STATUS: spec/02_the_tick.md, R39. -/
def TCK_STATUS.off : Nat := 0x3800020
def TCK_STATUS.synced : RF := ⟨TCK_STATUS.off, 0, 1⟩
def TCK_STATUS.master : RF := ⟨TCK_STATUS.off, 1, 1⟩
def TCK_STATUS.skew_class : RF := ⟨TCK_STATUS.off, 2, 1⟩
def TCK_STATUS.pps_aligned : RF := ⟨TCK_STATUS.off, 3, 1⟩
def TCK_STATUS.master_id : RF := ⟨TCK_STATUS.off, 4, 15⟩

/-- TCK_OFFSET: spec/02_the_tick.md, R39. -/
def TCK_OFFSET.off : Nat := 0x3800028
def TCK_OFFSET.offset_ns : RF := ⟨TCK_OFFSET.off, 0, 32⟩
def TCK_OFFSET.freq_adj : RF := ⟨TCK_OFFSET.off, 32, 16⟩

/-- TCK_SLIP_CFG: spec/02_the_tick.md, R39. -/
def TCK_SLIP_CFG.off : Nat := 0x3800030
def TCK_SLIP_CFG.window_ticks : RF := ⟨TCK_SLIP_CFG.off, 0, 24⟩

/-- TCK_BAY_SLIP: spec/02_the_tick.md, R39. -/
def TCK_BAY_SLIP.off (b : Nat) : Nat := 0x3800040 + 0x8 * b
def TCK_BAY_SLIP.threshold (b : Nat) : RF := ⟨TCK_BAY_SLIP.off b, 0, 16⟩
def TCK_BAY_SLIP.own_count (b : Nat) : RF := ⟨TCK_BAY_SLIP.off b, 16, 16⟩
def TCK_BAY_SLIP.upstream_count (b : Nat) : RF := ⟨TCK_BAY_SLIP.off b, 32, 16⟩
def TCK_BAY_SLIP.over (b : Nat) : RF := ⟨TCK_BAY_SLIP.off b, 48, 1⟩

/-- TCK_EVENT: spec/02_the_tick.md, R39. -/
def TCK_EVENT.off : Nat := 0x3800080
def TCK_EVENT.over_bay : RF := ⟨TCK_EVENT.off, 0, 8⟩
def TCK_EVENT.sync_lost : RF := ⟨TCK_EVENT.off, 8, 1⟩
def TCK_EVENT.period_changed : RF := ⟨TCK_EVENT.off, 9, 1⟩
def TCK_EVENT.change_refused : RF := ⟨TCK_EVENT.off, 10, 1⟩
def TCK_EVENT.guard_short : RF := ⟨TCK_EVENT.off, 11, 1⟩

/-- SCH_BAY_SEED: spec/03_number_formats.md, R52. -/
def SCH_BAY_SEED.off (b : Nat) : Nat := 0x3f0000 + 0x8 * b
def SCH_BAY_SEED.seed (b : Nat) : RF := ⟨SCH_BAY_SEED.off b, 0, 64⟩

/-- AG_ARR_STATUS: spec/04_matrix_arrays.md, R93. -/
def AG_ARR_STATUS.off (n x : Nat) : Nat := 0x800000 + 0x100000 * n + 0x1000 * x
def AG_ARR_STATUS.state (n x : Nat) : RF := ⟨AG_ARR_STATUS.off n x, 0, 2⟩
def AG_ARR_STATUS.groups_ungated (n x : Nat) : RF := ⟨AG_ARR_STATUS.off n x, 2, 5⟩
def AG_ARR_STATUS.repair_skew (n x : Nat) : RF := ⟨AG_ARR_STATUS.off n x, 7, 2⟩
def AG_ARR_STATUS.checked_capable (n x : Nat) : RF := ⟨AG_ARR_STATUS.off n x, 9, 1⟩
def AG_ARR_STATUS.repair_pending (n x : Nat) : RF := ⟨AG_ARR_STATUS.off n x, 10, 1⟩
def AG_ARR_STATUS.unrepairable (n x : Nat) : RF := ⟨AG_ARR_STATUS.off n x, 11, 1⟩
def AG_ARR_STATUS.passes (n x : Nat) : RF := ⟨AG_ARR_STATUS.off n x, 32, 32⟩

/-- AG_ARR_EVENT: spec/04_matrix_arrays.md, R93. -/
def AG_ARR_EVENT.off (n x : Nat) : Nat := 0x800008 + 0x100000 * n + 0x1000 * x
def AG_ARR_EVENT.mismatch (n x : Nat) : RF := ⟨AG_ARR_EVENT.off n x, 0, 1⟩
def AG_ARR_EVENT.check_lost (n x : Nat) : RF := ⟨AG_ARR_EVENT.off n x, 1, 1⟩
def AG_ARR_EVENT.desc_error (n x : Nat) : RF := ⟨AG_ARR_EVENT.off n x, 2, 1⟩
def AG_ARR_EVENT.static_write_err (n x : Nat) : RF := ⟨AG_ARR_EVENT.off n x, 3, 1⟩
def AG_ARR_EVENT.locate_done (n x : Nat) : RF := ⟨AG_ARR_EVENT.off n x, 4, 1⟩
def AG_ARR_EVENT.locate_clean (n x : Nat) : RF := ⟨AG_ARR_EVENT.off n x, 5, 1⟩

/-- AG_ARR_TABLE: spec/04_matrix_arrays.md, R93. -/
def AG_ARR_TABLE.off (n x : Nat) : Nat := 0x800010 + 0x100000 * n + 0x1000 * x
def AG_ARR_TABLE.tbl_base (n x : Nat) : RF := ⟨AG_ARR_TABLE.off n x, 0, 32⟩
def AG_ARR_TABLE.tbl_len (n x : Nat) : RF := ⟨AG_ARR_TABLE.off n x, 32, 16⟩

/-- AG_ARR_REPAIR: spec/04_matrix_arrays.md, R93. -/
def AG_ARR_REPAIR.off (n x : Nat) : Nat := 0x800018 + 0x100000 * n + 0x1000 * x
def AG_ARR_REPAIR.row_en0 (n x : Nat) : RF := ⟨AG_ARR_REPAIR.off n x, 0, 1⟩
def AG_ARR_REPAIR.row0 (n x : Nat) : RF := ⟨AG_ARR_REPAIR.off n x, 1, 8⟩
def AG_ARR_REPAIR.row_en1 (n x : Nat) : RF := ⟨AG_ARR_REPAIR.off n x, 9, 1⟩
def AG_ARR_REPAIR.row1 (n x : Nat) : RF := ⟨AG_ARR_REPAIR.off n x, 10, 8⟩
def AG_ARR_REPAIR.col_en0 (n x : Nat) : RF := ⟨AG_ARR_REPAIR.off n x, 18, 1⟩
def AG_ARR_REPAIR.col0 (n x : Nat) : RF := ⟨AG_ARR_REPAIR.off n x, 19, 8⟩
def AG_ARR_REPAIR.col_en1 (n x : Nat) : RF := ⟨AG_ARR_REPAIR.off n x, 27, 1⟩
def AG_ARR_REPAIR.col1 (n x : Nat) : RF := ⟨AG_ARR_REPAIR.off n x, 28, 8⟩

/-- AG_ARR_CHECK: spec/04_matrix_arrays.md, R93. -/
def AG_ARR_CHECK.off (n x : Nat) : Nat := 0x800020 + 0x100000 * n + 0x1000 * x
def AG_ARR_CHECK.tol_exp (n x : Nat) : RF := ⟨AG_ARR_CHECK.off n x, 0, 6⟩
def AG_ARR_CHECK.mismatches (n x : Nat) : RF := ⟨AG_ARR_CHECK.off n x, 16, 16⟩
def AG_ARR_CHECK.checked_skipped (n x : Nat) : RF := ⟨AG_ARR_CHECK.off n x, 32, 16⟩

/-- AG_ARR_THR: spec/04_matrix_arrays.md, R93. -/
def AG_ARR_THR.off (n x q : Nat) : Nat := 0x800040 + 0x100000 * n + 0x1000 * x + 0x8 * q
def AG_ARR_THR.thr_4q (n x q : Nat) : RF := ⟨AG_ARR_THR.off n x q, 0, 16⟩
def AG_ARR_THR.thr_4q1 (n x q : Nat) : RF := ⟨AG_ARR_THR.off n x q, 16, 16⟩
def AG_ARR_THR.thr_4q2 (n x q : Nat) : RF := ⟨AG_ARR_THR.off n x q, 32, 16⟩
def AG_ARR_THR.thr_4q3 (n x q : Nat) : RF := ⟨AG_ARR_THR.off n x q, 48, 16⟩

/-- AG_ARR_SCLA: spec/04_matrix_arrays.md, R93. -/
def AG_ARR_SCLA.off (n x s : Nat) : Nat := 0x800110 + 0x100000 * n + 0x1000 * x + 0x10 * (s - 1)
def AG_ARR_SCLA.descriptor (n x s : Nat) : RF := ⟨AG_ARR_SCLA.off n x s, 0, 64⟩

/-- AG_ARR_SCLB: spec/04_matrix_arrays.md, R93. -/
def AG_ARR_SCLB.off (n x s : Nat) : Nat := 0x800118 + 0x100000 * n + 0x1000 * x + 0x10 * (s - 1)
def AG_ARR_SCLB.descriptor (n x s : Nat) : RF := ⟨AG_ARR_SCLB.off n x s, 0, 64⟩

/-- AG_FDR_CFG: spec/04_matrix_arrays.md, R93. -/
def AG_FDR_CFG.off (n x : Nat) : Nat := 0x808000 + 0x100000 * n + 0x100 * x
def AG_FDR_CFG.a_share (n x : Nat) : RF := ⟨AG_FDR_CFG.off n x, 0, 3⟩
def AG_FDR_CFG.prefetch (n x : Nat) : RF := ⟨AG_FDR_CFG.off n x, 4, 3⟩

/-- AG_FDR_STATUS: spec/04_matrix_arrays.md, R93. -/
def AG_FDR_STATUS.off (n x : Nat) : Nat := 0x808008 + 0x100000 * n + 0x100 * x
def AG_FDR_STATUS.stalled (n x : Nat) : RF := ⟨AG_FDR_STATUS.off n x, 0, 1⟩
def AG_FDR_STATUS.stall_cycles (n x : Nat) : RF := ⟨AG_FDR_STATUS.off n x, 32, 32⟩

/-- AG_TM_STATUS: spec/06_tile_memory_and_mesh.md, R136. -/
def AG_TM_STATUS.off (n : Nat) : Nat := 0x810000 + 0x100000 * n
def AG_TM_STATUS.spares_min (n : Nat) : RF := ⟨AG_TM_STATUS.off n, 0, 9⟩
def AG_TM_STATUS.failed_extents (n : Nat) : RF := ⟨AG_TM_STATUS.off n, 16, 7⟩

/-- AG_TM_ERR: spec/06_tile_memory_and_mesh.md, R136. -/
def AG_TM_ERR.off (n : Nat) : Nat := 0x810008 + 0x100000 * n
def AG_TM_ERR.corrected (n : Nat) : RF := ⟨AG_TM_ERR.off n, 0, 32⟩
def AG_TM_ERR.uncorrectable (n : Nat) : RF := ⟨AG_TM_ERR.off n, 32, 16⟩
def AG_TM_ERR.retired (n : Nat) : RF := ⟨AG_TM_ERR.off n, 48, 16⟩

/-- AG_TM_LAST: spec/06_tile_memory_and_mesh.md, R136. -/
def AG_TM_LAST.off (n : Nat) : Nat := 0x810010 + 0x100000 * n
def AG_TM_LAST.line (n : Nat) : RF := ⟨AG_TM_LAST.off n, 0, 22⟩
def AG_TM_LAST.uncorrectable (n : Nat) : RF := ⟨AG_TM_LAST.off n, 22, 1⟩
def AG_TM_LAST.in_feeder (n : Nat) : RF := ⟨AG_TM_LAST.off n, 23, 1⟩
def AG_TM_LAST.feeder_arr (n : Nat) : RF := ⟨AG_TM_LAST.off n, 24, 3⟩

/-- AG_TM_EVENT: spec/06_tile_memory_and_mesh.md, R136. -/
def AG_TM_EVENT.off (n : Nat) : Nat := 0x810018 + 0x100000 * n
def AG_TM_EVENT.corrected (n : Nat) : RF := ⟨AG_TM_EVENT.off n, 0, 1⟩
def AG_TM_EVENT.uncorrectable (n : Nat) : RF := ⟨AG_TM_EVENT.off n, 1, 1⟩
def AG_TM_EVENT.retired (n : Nat) : RF := ⟨AG_TM_EVENT.off n, 2, 1⟩
def AG_TM_EVENT.extent_failed (n : Nat) : RF := ⟨AG_TM_EVENT.off n, 3, 1⟩

/-- AG_MROUTE: spec/06_tile_memory_and_mesh.md, R136. -/
def AG_MROUTE.off (n r : Nat) : Nat := 0x820000 + 0x100000 * n + 0x8 * r
def AG_MROUTE.valid (n r : Nat) : RF := ⟨AG_MROUTE.off n r, 0, 1⟩
def AG_MROUTE.dst_stop (n r : Nat) : RF := ⟨AG_MROUTE.off n r, 1, 5⟩
def AG_MROUTE.share (n r : Nat) : RF := ⟨AG_MROUTE.off n r, 6, 6⟩

/-- AG_MESH_STATUS: spec/06_tile_memory_and_mesh.md, R136. -/
def AG_MESH_STATUS.off (n : Nat) : Nat := 0x820100 + 0x100000 * n
def AG_MESH_STATUS.be_wait (n : Nat) : RF := ⟨AG_MESH_STATUS.off n, 0, 32⟩
def AG_MESH_STATUS.static_wait (n : Nat) : RF := ⟨AG_MESH_STATUS.off n, 32, 32⟩

/-- AG_PEG: spec/06_tile_memory_and_mesh.md, R136. -/
def AG_PEG.off (n p : Nat) : Nat := 0x840000 + 0x100000 * n + 0x8 * p
def AG_PEG.value (n p : Nat) : RF := ⟨AG_PEG.off n p, 0, 16⟩

/-- AG_PEG_ADD: spec/06_tile_memory_and_mesh.md, R136. -/
def AG_PEG_ADD.off (n : Nat) : Nat := 0x848000 + 0x100000 * n
def AG_PEG_ADD.peg (n : Nat) : RF := ⟨AG_PEG_ADD.off n, 0, 12⟩
def AG_PEG_ADD.amount (n : Nat) : RF := ⟨AG_PEG_ADD.off n, 16, 16⟩

/-- AG_PEG_FWD: spec/06_tile_memory_and_mesh.md, R136. -/
def AG_PEG_FWD.off (n f : Nat) : Nat := 0x850000 + 0x100000 * n + 0x8 * f
def AG_PEG_FWD.valid (n f : Nat) : RF := ⟨AG_PEG_FWD.off n f, 0, 1⟩
def AG_PEG_FWD.src_peg (n f : Nat) : RF := ⟨AG_PEG_FWD.off n f, 1, 12⟩
def AG_PEG_FWD.dst_ag (n f : Nat) : RF := ⟨AG_PEG_FWD.off n f, 13, 4⟩
def AG_PEG_FWD.dst_peg (n f : Nat) : RF := ⟨AG_PEG_FWD.off n f, 17, 12⟩

/-- AG_PEG_STATUS: spec/06_tile_memory_and_mesh.md, R136. -/
def AG_PEG_STATUS.off (n : Nat) : Nat := 0x850800 + 0x100000 * n
def AG_PEG_STATUS.stale_inc (n : Nat) : RF := ⟨AG_PEG_STATUS.off n, 0, 16⟩

/-- AG_DMA_TABLE: spec/06_tile_memory_and_mesh.md, R136. -/
def AG_DMA_TABLE.off (n e : Nat) : Nat := 0x860000 + 0x100000 * n + 0x100 * e
def AG_DMA_TABLE.tbl_base (n e : Nat) : RF := ⟨AG_DMA_TABLE.off n e, 0, 32⟩
def AG_DMA_TABLE.tbl_len (n e : Nat) : RF := ⟨AG_DMA_TABLE.off n e, 32, 16⟩

/-- AG_DMA_STATUS: spec/06_tile_memory_and_mesh.md, R136. -/
def AG_DMA_STATUS.off (n e : Nat) : Nat := 0x860008 + 0x100000 * n + 0x100 * e
def AG_DMA_STATUS.state (n e : Nat) : RF := ⟨AG_DMA_STATUS.off n e, 0, 2⟩
def AG_DMA_STATUS.entry (n e : Nat) : RF := ⟨AG_DMA_STATUS.off n e, 2, 16⟩
def AG_DMA_STATUS.error (n e : Nat) : RF := ⟨AG_DMA_STATUS.off n e, 18, 3⟩
def AG_DMA_STATUS.completed (n e : Nat) : RF := ⟨AG_DMA_STATUS.off n e, 32, 32⟩

/-- AG_DMA_THR: spec/06_tile_memory_and_mesh.md, R136. -/
def AG_DMA_THR.off (n e q : Nat) : Nat := 0x860040 + 0x100000 * n + 0x100 * e + 0x8 * q
def AG_DMA_THR.thr_4q (n e q : Nat) : RF := ⟨AG_DMA_THR.off n e q, 0, 16⟩
def AG_DMA_THR.thr_4q1 (n e q : Nat) : RF := ⟨AG_DMA_THR.off n e q, 16, 16⟩
def AG_DMA_THR.thr_4q2 (n e q : Nat) : RF := ⟨AG_DMA_THR.off n e q, 32, 16⟩
def AG_DMA_THR.thr_4q3 (n e q : Nat) : RF := ⟨AG_DMA_THR.off n e q, 48, 16⟩

/-- AG_VEC_STATUS: spec/07_vector_engine.md, R165. -/
def AG_VEC_STATUS.off (n x : Nat) : Nat := 0x870000 + 0x100000 * n + 0x1000 * x
def AG_VEC_STATUS.state (n x : Nat) : RF := ⟨AG_VEC_STATUS.off n x, 0, 2⟩
def AG_VEC_STATUS.pc (n x : Nat) : RF := ⟨AG_VEC_STATUS.off n x, 2, 11⟩
def AG_VEC_STATUS.prog_pending (n x : Nat) : RF := ⟨AG_VEC_STATUS.off n x, 13, 1⟩
def AG_VEC_STATUS.dq_entries (n x : Nat) : RF := ⟨AG_VEC_STATUS.off n x, 14, 7⟩
def AG_VEC_STATUS.wait_on (n x : Nat) : RF := ⟨AG_VEC_STATUS.off n x, 21, 3⟩
def AG_VEC_STATUS.rep (n x : Nat) : RF := ⟨AG_VEC_STATUS.off n x, 32, 32⟩

/-- AG_VEC_EVENT: spec/07_vector_engine.md, R165. -/
def AG_VEC_EVENT.off (n x : Nat) : Nat := 0x870008 + 0x100000 * n + 0x1000 * x
def AG_VEC_EVENT.out_of_bay (n x : Nat) : RF := ⟨AG_VEC_EVENT.off n x, 0, 1⟩
def AG_VEC_EVENT.gather_oor (n x : Nat) : RF := ⟨AG_VEC_EVENT.off n x, 1, 1⟩
def AG_VEC_EVENT.scatter_dropped (n x : Nat) : RF := ⟨AG_VEC_EVENT.off n x, 2, 1⟩
def AG_VEC_EVENT.dq_discard (n x : Nat) : RF := ⟨AG_VEC_EVENT.off n x, 3, 1⟩
def AG_VEC_EVENT.prog_refused (n x : Nat) : RF := ⟨AG_VEC_EVENT.off n x, 4, 1⟩

/-- AG_VEC_PROG: spec/07_vector_engine.md, R165. -/
def AG_VEC_PROG.off (n x : Nat) : Nat := 0x870010 + 0x100000 * n + 0x1000 * x
def AG_VEC_PROG.code_base (n x : Nat) : RF := ⟨AG_VEC_PROG.off n x, 0, 32⟩
def AG_VEC_PROG.code_len (n x : Nat) : RF := ⟨AG_VEC_PROG.off n x, 32, 12⟩

/-- AG_VEC_DWIN: spec/07_vector_engine.md, R165. -/
def AG_VEC_DWIN.off (n x : Nat) : Nat := 0x870018 + 0x100000 * n + 0x1000 * x
def AG_VEC_DWIN.dwin_base (n x : Nat) : RF := ⟨AG_VEC_DWIN.off n x, 0, 32⟩
def AG_VEC_DWIN.dwin_len (n x : Nat) : RF := ⟨AG_VEC_DWIN.off n x, 32, 24⟩

/-- AG_VEC_COUNT: spec/07_vector_engine.md, R165. -/
def AG_VEC_COUNT.off (n x : Nat) : Nat := 0x870020 + 0x100000 * n + 0x1000 * x
def AG_VEC_COUNT.out_of_bay (n x : Nat) : RF := ⟨AG_VEC_COUNT.off n x, 0, 16⟩
def AG_VEC_COUNT.gather_oor (n x : Nat) : RF := ⟨AG_VEC_COUNT.off n x, 16, 16⟩
def AG_VEC_COUNT.scatter_dropped (n x : Nat) : RF := ⟨AG_VEC_COUNT.off n x, 32, 16⟩
def AG_VEC_COUNT.dq_discard (n x : Nat) : RF := ⟨AG_VEC_COUNT.off n x, 48, 16⟩

/-- AG_VEC_PERF: spec/07_vector_engine.md, R165. -/
def AG_VEC_PERF.off (n x : Nat) : Nat := 0x870028 + 0x100000 * n + 0x1000 * x
def AG_VEC_PERF.stall_cycles (n x : Nat) : RF := ⟨AG_VEC_PERF.off n x, 0, 32⟩
def AG_VEC_PERF.drain_wait (n x : Nat) : RF := ⟨AG_VEC_PERF.off n x, 32, 32⟩

/-- AG_VEC_THR: spec/07_vector_engine.md, R165. -/
def AG_VEC_THR.off (n x q : Nat) : Nat := 0x870040 + 0x100000 * n + 0x1000 * x + 0x8 * q
def AG_VEC_THR.thr_4q (n x q : Nat) : RF := ⟨AG_VEC_THR.off n x q, 0, 16⟩
def AG_VEC_THR.thr_4q1 (n x q : Nat) : RF := ⟨AG_VEC_THR.off n x q, 16, 16⟩
def AG_VEC_THR.thr_4q2 (n x q : Nat) : RF := ⟨AG_VEC_THR.off n x q, 32, 16⟩
def AG_VEC_THR.thr_4q3 (n x q : Nat) : RF := ⟨AG_VEC_THR.off n x q, 48, 16⟩

/-- SCH_BAY_VFLAG: spec/07_vector_engine.md, R165. -/
def SCH_BAY_VFLAG.off (b : Nat) : Nat := 0x3f0100 + 0x8 * b
def SCH_BAY_VFLAG.flags (b : Nat) : RF := ⟨SCH_BAY_VFLAG.off b, 0, 5⟩
def SCH_BAY_VFLAG.flags_last (b : Nat) : RF := ⟨SCH_BAY_VFLAG.off b, 8, 5⟩
def SCH_BAY_VFLAG.nonfinite (b : Nat) : RF := ⟨SCH_BAY_VFLAG.off b, 16, 1⟩
def SCH_BAY_VFLAG.nonfinite_last (b : Nat) : RF := ⟨SCH_BAY_VFLAG.off b, 17, 1⟩
def SCH_BAY_VFLAG.nf_writes (b : Nat) : RF := ⟨SCH_BAY_VFLAG.off b, 32, 16⟩

/-- SCH_BAY_STATE: spec/08_bents_bays_and_joints.md, R200. -/
def SCH_BAY_STATE.off (b : Nat) : Nat := 0x320000 + 0x100 * b
def SCH_BAY_STATE.state (b : Nat) : RF := ⟨SCH_BAY_STATE.off b, 0, 3⟩
def SCH_BAY_STATE.light_ok (b : Nat) : RF := ⟨SCH_BAY_STATE.off b, 3, 1⟩
def SCH_BAY_STATE.ag_mask (b : Nat) : RF := ⟨SCH_BAY_STATE.off b, 8, 16⟩
def SCH_BAY_STATE.fab_tag (b : Nat) : RF := ⟨SCH_BAY_STATE.off b, 24, 12⟩

/-- SCH_BAY_RES: spec/08_bents_bays_and_joints.md, R200. -/
def SCH_BAY_RES.off (b : Nat) : Nat := 0x320008 + 0x100 * b
def SCH_BAY_RES.extents (b : Nat) : RF := ⟨SCH_BAY_RES.off b, 0, 11⟩
def SCH_BAY_RES.hbm_chan (b : Nat) : RF := ⟨SCH_BAY_RES.off b, 16, 9⟩
def SCH_BAY_RES.hbm_share (b : Nat) : RF := ⟨SCH_BAY_RES.off b, 25, 10⟩
def SCH_BAY_RES.fab_share (b : Nat) : RF := ⟨SCH_BAY_RES.off b, 35, 10⟩
def SCH_BAY_RES.hbm_2m (b : Nat) : RF := ⟨SCH_BAY_RES.off b, 45, 19⟩

/-- SCH_BAY_BUILD0: spec/08_bents_bays_and_joints.md, R200. -/
def SCH_BAY_BUILD0.off (b : Nat) : Nat := 0x320010 + 0x100 * b
def SCH_BAY_BUILD0.build_id (b : Nat) : RF := ⟨SCH_BAY_BUILD0.off b, 0, 64⟩

/-- SCH_BAY_BUILD1: spec/08_bents_bays_and_joints.md, R200. -/
def SCH_BAY_BUILD1.off (b : Nat) : Nat := 0x320018 + 0x100 * b
def SCH_BAY_BUILD1.build_id (b : Nat) : RF := ⟨SCH_BAY_BUILD1.off b, 0, 64⟩

/-- SCH_BAY_CFG: spec/08_bents_bays_and_joints.md, R200. -/
def SCH_BAY_CFG.off (b : Nat) : Nat := 0x320020 + 0x100 * b
def SCH_BAY_CFG.joint_hold_ticks (b : Nat) : RF := ⟨SCH_BAY_CFG.off b, 0, 16⟩

/-- SCH_BAY_PEND: spec/08_bents_bays_and_joints.md, R200. -/
def SCH_BAY_PEND.off (b : Nat) : Nat := 0x320028 + 0x100 * b
def SCH_BAY_PEND.boundary_pending (b : Nat) : RF := ⟨SCH_BAY_PEND.off b, 0, 1⟩
def SCH_BAY_PEND.joint_hold (b : Nat) : RF := ⟨SCH_BAY_PEND.off b, 1, 1⟩
def SCH_BAY_PEND.pending_ticks (b : Nat) : RF := ⟨SCH_BAY_PEND.off b, 32, 32⟩

/-- SCH_BAY_RAISE: spec/08_bents_bays_and_joints.md, R200. -/
def SCH_BAY_RAISE.off (b : Nat) : Nat := 0x320030 + 0x100 * b
def SCH_BAY_RAISE.status (b : Nat) : RF := ⟨SCH_BAY_RAISE.off b, 0, 8⟩
def SCH_BAY_RAISE.phase (b : Nat) : RF := ⟨SCH_BAY_RAISE.off b, 8, 4⟩
def SCH_BAY_RAISE.commit_tick (b : Nat) : RF := ⟨SCH_BAY_RAISE.off b, 12, 48⟩

/-- SCH_RES_FREE: spec/08_bents_bays_and_joints.md, R200. -/
def SCH_RES_FREE.off : Nat := 0x320800
def SCH_RES_FREE.free_ags : RF := ⟨SCH_RES_FREE.off, 0, 16⟩
def SCH_RES_FREE.free_chan : RF := ⟨SCH_RES_FREE.off, 16, 9⟩
def SCH_RES_FREE.free_hbm_2m : RF := ⟨SCH_RES_FREE.off, 25, 19⟩

/-- SCH_BAY_SCHED: spec/09_training_execution.md, R231. -/
def SCH_BAY_SCHED.off (b : Nat) : Nat := 0x320040 + 0x100 * b
def SCH_BAY_SCHED.dir_offset (b : Nat) : RF := ⟨SCH_BAY_SCHED.off b, 0, 32⟩
def SCH_BAY_SCHED.dir_valid (b : Nat) : RF := ⟨SCH_BAY_SCHED.off b, 32, 1⟩

/-- SCH_BAY_DISP: spec/09_training_execution.md, R231. -/
def SCH_BAY_DISP.off (b : Nat) : Nat := 0x320048 + 0x100 * b
def SCH_BAY_DISP.rank_fwd (b : Nat) : RF := ⟨SCH_BAY_DISP.off b, 0, 2⟩
def SCH_BAY_DISP.rank_ig (b : Nat) : RF := ⟨SCH_BAY_DISP.off b, 2, 2⟩
def SCH_BAY_DISP.rank_wg (b : Nat) : RF := ⟨SCH_BAY_DISP.off b, 4, 2⟩
def SCH_BAY_DISP.rank_upd (b : Nat) : RF := ⟨SCH_BAY_DISP.off b, 6, 2⟩
def SCH_BAY_DISP.age_ticks (b : Nat) : RF := ⟨SCH_BAY_DISP.off b, 8, 16⟩

/-- SCH_BAY_LSCFG: spec/09_training_execution.md, R231. -/
def SCH_BAY_LSCFG.off (b : Nat) : Nat := 0x320050 + 0x100 * b
def SCH_BAY_LSCFG.ls_init (b : Nat) : RF := ⟨SCH_BAY_LSCFG.off b, 0, 8⟩
def SCH_BAY_LSCFG.ls_min (b : Nat) : RF := ⟨SCH_BAY_LSCFG.off b, 8, 8⟩
def SCH_BAY_LSCFG.ls_max (b : Nat) : RF := ⟨SCH_BAY_LSCFG.off b, 16, 8⟩
def SCH_BAY_LSCFG.clean_steps (b : Nat) : RF := ⟨SCH_BAY_LSCFG.off b, 24, 16⟩
def SCH_BAY_LSCFG.ls_enable (b : Nat) : RF := ⟨SCH_BAY_LSCFG.off b, 40, 1⟩
def SCH_BAY_LSCFG.skip_alarm (b : Nat) : RF := ⟨SCH_BAY_LSCFG.off b, 41, 8⟩

/-- SCH_BAY_GATECFG: spec/09_training_execution.md, R231. -/
def SCH_BAY_GATECFG.off (b : Nat) : Nat := 0x320058 + 0x100 * b
def SCH_BAY_GATECFG.line_offset (b : Nat) : RF := ⟨SCH_BAY_GATECFG.off b, 0, 32⟩
def SCH_BAY_GATECFG.line_en (b : Nat) : RF := ⟨SCH_BAY_GATECFG.off b, 32, 1⟩
def SCH_BAY_GATECFG.gate_colls (b : Nat) : RF := ⟨SCH_BAY_GATECFG.off b, 33, 8⟩

/-- SCH_BAY_TRAIN: spec/09_training_execution.md, R231. -/
def SCH_BAY_TRAIN.off (b : Nat) : Nat := 0x320060 + 0x100 * b
def SCH_BAY_TRAIN.ls_exp (b : Nat) : RF := ⟨SCH_BAY_TRAIN.off b, 0, 8⟩
def SCH_BAY_TRAIN.clean_count (b : Nat) : RF := ⟨SCH_BAY_TRAIN.off b, 8, 16⟩
def SCH_BAY_TRAIN.skip_run (b : Nat) : RF := ⟨SCH_BAY_TRAIN.off b, 24, 8⟩
def SCH_BAY_TRAIN.gate (b : Nat) : RF := ⟨SCH_BAY_TRAIN.off b, 32, 2⟩
def SCH_BAY_TRAIN.running_flag (b : Nat) : RF := ⟨SCH_BAY_TRAIN.off b, 34, 1⟩
def SCH_BAY_TRAIN.gate_done (b : Nat) : RF := ⟨SCH_BAY_TRAIN.off b, 35, 8⟩
def SCH_BAY_TRAIN.last_decision (b : Nat) : RF := ⟨SCH_BAY_TRAIN.off b, 43, 2⟩

/-- SCH_BAY_STEPNO: spec/09_training_execution.md, R231. -/
def SCH_BAY_STEPNO.off (b : Nat) : Nat := 0x320068 + 0x100 * b
def SCH_BAY_STEPNO.step (b : Nat) : RF := ⟨SCH_BAY_STEPNO.off b, 0, 48⟩

/-- SCH_BAY_UPDATES: spec/09_training_execution.md, R231. -/
def SCH_BAY_UPDATES.off (b : Nat) : Nat := 0x320070 + 0x100 * b
def SCH_BAY_UPDATES.updates (b : Nat) : RF := ⟨SCH_BAY_UPDATES.off b, 0, 48⟩

/-- SCH_BAY_TEVENT: spec/09_training_execution.md, R231. -/
def SCH_BAY_TEVENT.off (b : Nat) : Nat := 0x320078 + 0x100 * b
def SCH_BAY_TEVENT.skipped (b : Nat) : RF := ⟨SCH_BAY_TEVENT.off b, 0, 1⟩
def SCH_BAY_TEVENT.ls_floor (b : Nat) : RF := ⟨SCH_BAY_TEVENT.off b, 1, 1⟩
def SCH_BAY_TEVENT.skip_alarm (b : Nat) : RF := ⟨SCH_BAY_TEVENT.off b, 2, 1⟩
def SCH_BAY_TEVENT.late_nonfinite (b : Nat) : RF := ⟨SCH_BAY_TEVENT.off b, 3, 1⟩
def SCH_BAY_TEVENT.deadline_late (b : Nat) : RF := ⟨SCH_BAY_TEVENT.off b, 4, 1⟩
def SCH_BAY_TEVENT.sched_error (b : Nat) : RF := ⟨SCH_BAY_TEVENT.off b, 5, 1⟩

/-- SCH_BAY_TCOUNT: spec/09_training_execution.md, R231. -/
def SCH_BAY_TCOUNT.off (b : Nat) : Nat := 0x320080 + 0x100 * b
def SCH_BAY_TCOUNT.skipped_steps (b : Nat) : RF := ⟨SCH_BAY_TCOUNT.off b, 0, 16⟩
def SCH_BAY_TCOUNT.late_flags (b : Nat) : RF := ⟨SCH_BAY_TCOUNT.off b, 16, 16⟩
def SCH_BAY_TCOUNT.deadline_late (b : Nat) : RF := ⟨SCH_BAY_TCOUNT.off b, 32, 16⟩

/-- AG_ARR_DISP: spec/09_training_execution.md, R231. -/
def AG_ARR_DISP.off (n x : Nat) : Nat := 0x800200 + 0x100000 * n + 0x1000 * x
def AG_ARR_DISP.index (n x : Nat) : RF := ⟨AG_ARR_DISP.off n x, 0, 32⟩
def AG_ARR_DISP.phase (n x : Nat) : RF := ⟨AG_ARR_DISP.off n x, 32, 16⟩
def AG_ARR_DISP.vstage (n x : Nat) : RF := ⟨AG_ARR_DISP.off n x, 48, 3⟩
def AG_ARR_DISP.hold (n x : Nat) : RF := ⟨AG_ARR_DISP.off n x, 51, 1⟩
def AG_ARR_DISP.aged (n x : Nat) : RF := ⟨AG_ARR_DISP.off n x, 52, 1⟩
def AG_ARR_DISP.done (n x : Nat) : RF := ⟨AG_ARR_DISP.off n x, 53, 1⟩

/-- AG_ARR_BACKLOG: spec/09_training_execution.md, R231. -/
def AG_ARR_BACKLOG.off (n x : Nat) : Nat := 0x800208 + 0x100000 * n + 0x1000 * x
def AG_ARR_BACKLOG.entries (n x : Nat) : RF := ⟨AG_ARR_BACKLOG.off n x, 0, 13⟩
def AG_ARR_BACKLOG.oldest_age (n x : Nat) : RF := ⟨AG_ARR_BACKLOG.off n x, 16, 16⟩
def AG_ARR_BACKLOG.issued (n x : Nat) : RF := ⟨AG_ARR_BACKLOG.off n x, 32, 32⟩

/-- AG_ARR_DCOUNT: spec/09_training_execution.md, R231. -/
def AG_ARR_DCOUNT.off (n x : Nat) : Nat := 0x800210 + 0x100000 * n + 0x1000 * x
def AG_ARR_DCOUNT.hold_edges (n x : Nat) : RF := ⟨AG_ARR_DCOUNT.off n x, 0, 32⟩
def AG_ARR_DCOUNT.aged_issues (n x : Nat) : RF := ⟨AG_ARR_DCOUNT.off n x, 32, 16⟩
def AG_ARR_DCOUNT.enq_wait (n x : Nat) : RF := ⟨AG_ARR_DCOUNT.off n x, 48, 16⟩

/-- SCH_BAY_SCHCFG: spec/10_bays_contexts_and_scheduling.md, R254. -/
def SCH_BAY_SCHCFG.off (b : Nat) : Nat := 0x320088 + 0x100 * b
def SCH_BAY_SCHCFG.ctx_age_ticks (b : Nat) : RF := ⟨SCH_BAY_SCHCFG.off b, 0, 16⟩
def SCH_BAY_SCHCFG.urg_ticks (b : Nat) : RF := ⟨SCH_BAY_SCHCFG.off b, 16, 16⟩

/-- SCH_BAY_CTXAREA: spec/10_bays_contexts_and_scheduling.md, R254. -/
def SCH_BAY_CTXAREA.off (b : Nat) : Nat := 0x320090 + 0x100 * b
def SCH_BAY_CTXAREA.area_offset (b : Nat) : RF := ⟨SCH_BAY_CTXAREA.off b, 0, 32⟩
def SCH_BAY_CTXAREA.area_ext (b : Nat) : RF := ⟨SCH_BAY_CTXAREA.off b, 32, 11⟩

/-- SCH_BAY_EST: spec/10_bays_contexts_and_scheduling.md, R254. -/
def SCH_BAY_EST.off (b : Nat) : Nat := 0x320098 + 0x100 * b
def SCH_BAY_EST.est_ticks (b : Nat) : RF := ⟨SCH_BAY_EST.off b, 0, 32⟩

/-- SCH_BAY_TRING: spec/10_bays_contexts_and_scheduling.md, R254. -/
def SCH_BAY_TRING.off (b : Nat) : Nat := 0x3200a0 + 0x100 * b
def SCH_BAY_TRING.ring_base (b : Nat) : RF := ⟨SCH_BAY_TRING.off b, 0, 48⟩
def SCH_BAY_TRING.ring_log2 (b : Nat) : RF := ⟨SCH_BAY_TRING.off b, 48, 4⟩
def SCH_BAY_TRING.ring_en (b : Nat) : RF := ⟨SCH_BAY_TRING.off b, 52, 1⟩

/-- SCH_BAY_THEAD: spec/10_bays_contexts_and_scheduling.md, R254. -/
def SCH_BAY_THEAD.off (b : Nat) : Nat := 0x3200a8 + 0x100 * b
def SCH_BAY_THEAD.head (b : Nat) : RF := ⟨SCH_BAY_THEAD.off b, 0, 32⟩
def SCH_BAY_THEAD.overrun (b : Nat) : RF := ⟨SCH_BAY_THEAD.off b, 32, 16⟩

/-- SCH_BAY_RUN: spec/10_bays_contexts_and_scheduling.md, R254. -/
def SCH_BAY_RUN.off (b : Nat) : Nat := 0x3200b0 + 0x100 * b
def SCH_BAY_RUN.resident (b : Nat) : RF := ⟨SCH_BAY_RUN.off b, 0, 3⟩
def SCH_BAY_RUN.resident_valid (b : Nat) : RF := ⟨SCH_BAY_RUN.off b, 3, 1⟩
def SCH_BAY_RUN.step_running (b : Nat) : RF := ⟨SCH_BAY_RUN.off b, 4, 1⟩
def SCH_BAY_RUN.draining (b : Nat) : RF := ⟨SCH_BAY_RUN.off b, 5, 1⟩
def SCH_BAY_RUN.switching (b : Nat) : RF := ⟨SCH_BAY_RUN.off b, 6, 1⟩

/-- SCH_BAY_IRATIO: spec/10_bays_contexts_and_scheduling.md, R254. -/
def SCH_BAY_IRATIO.off (b : Nat) : Nat := 0x3200b8 + 0x100 * b
def SCH_BAY_IRATIO.ratio (b : Nat) : RF := ⟨SCH_BAY_IRATIO.off b, 0, 16⟩
def SCH_BAY_IRATIO.cause (b : Nat) : RF := ⟨SCH_BAY_IRATIO.off b, 16, 3⟩
def SCH_BAY_IRATIO.measured (b : Nat) : RF := ⟨SCH_BAY_IRATIO.off b, 32, 32⟩

/-- SCH_CTX_CFG: spec/10_bays_contexts_and_scheduling.md, R254. -/
def SCH_CTX_CFG.off (b c : Nat) : Nat := 0x330000 + 0x400 * b + 0x80 * c
def SCH_CTX_CFG.en (b c : Nat) : RF := ⟨SCH_CTX_CFG.off b c, 0, 1⟩
def SCH_CTX_CFG.mode (b c : Nat) : RF := ⟨SCH_CTX_CFG.off b c, 1, 1⟩
def SCH_CTX_CFG.base_prio (b c : Nat) : RF := ⟨SCH_CTX_CFG.off b c, 2, 4⟩

/-- SCH_CTX_SAVE: spec/10_bays_contexts_and_scheduling.md, R254. -/
def SCH_CTX_SAVE.off (b c : Nat) : Nat := 0x330008 + 0x400 * b + 0x80 * c
def SCH_CTX_SAVE.save_base (b c : Nat) : RF := ⟨SCH_CTX_SAVE.off b c, 0, 48⟩

/-- SCH_CTX_STATE: spec/10_bays_contexts_and_scheduling.md, R254. -/
def SCH_CTX_STATE.off (b c : Nat) : Nat := 0x330010 + 0x400 * b + 0x80 * c
def SCH_CTX_STATE.state (b c : Nat) : RF := ⟨SCH_CTX_STATE.off b c, 0, 3⟩
def SCH_CTX_STATE.damaged (b c : Nat) : RF := ⟨SCH_CTX_STATE.off b c, 3, 1⟩
def SCH_CTX_STATE.eff_prio (b c : Nat) : RF := ⟨SCH_CTX_STATE.off b c, 4, 4⟩
def SCH_CTX_STATE.saved (b c : Nat) : RF := ⟨SCH_CTX_STATE.off b c, 8, 2⟩
def SCH_CTX_STATE.wait (b c : Nat) : RF := ⟨SCH_CTX_STATE.off b c, 32, 32⟩

/-- SCH_CTX_COUNT: spec/10_bays_contexts_and_scheduling.md, R254. -/
def SCH_CTX_COUNT.off (b c : Nat) : Nat := 0x330018 + 0x400 * b + 0x80 * c
def SCH_CTX_COUNT.steps (b c : Nat) : RF := ⟨SCH_CTX_COUNT.off b c, 0, 32⟩
def SCH_CTX_COUNT.preempts (b c : Nat) : RF := ⟨SCH_CTX_COUNT.off b c, 32, 16⟩
def SCH_CTX_COUNT.urgent (b c : Nat) : RF := ⟨SCH_CTX_COUNT.off b c, 48, 16⟩

/-- SCH_CTX_WAIT: spec/10_bays_contexts_and_scheduling.md, R254. -/
def SCH_CTX_WAIT.off (b c : Nat) : Nat := 0x330020 + 0x400 * b + 0x80 * c
def SCH_CTX_WAIT.max_wait (b c : Nat) : RF := ⟨SCH_CTX_WAIT.off b c, 0, 32⟩
def SCH_CTX_WAIT.last_save_us (b c : Nat) : RF := ⟨SCH_CTX_WAIT.off b c, 32, 16⟩
def SCH_CTX_WAIT.last_restore_us (b c : Nat) : RF := ⟨SCH_CTX_WAIT.off b c, 48, 16⟩

/-- MEM_STACK_STATUS: spec/11_hbm_memory.md, R274. -/
def MEM_STACK_STATUS.off (s : Nat) : Nat := 0x1800000 + 0x100 * s
def MEM_STACK_STATUS.trained (s : Nat) : RF := ⟨MEM_STACK_STATUS.off s, 0, 1⟩
def MEM_STACK_STATUS.usable (s : Nat) : RF := ⟨MEM_STACK_STATUS.off s, 1, 1⟩
def MEM_STACK_STATUS.attempts (s : Nat) : RF := ⟨MEM_STACK_STATUS.off s, 2, 2⟩
def MEM_STACK_STATUS.fail_code (s : Nat) : RF := ⟨MEM_STACK_STATUS.off s, 4, 4⟩
def MEM_STACK_STATUS.temp_c (s : Nat) : RF := ⟨MEM_STACK_STATUS.off s, 8, 8⟩
def MEM_STACK_STATUS.refresh (s : Nat) : RF := ⟨MEM_STACK_STATUS.off s, 16, 2⟩
def MEM_STACK_STATUS.hot (s : Nat) : RF := ⟨MEM_STACK_STATUS.off s, 18, 1⟩
def MEM_STACK_STATUS.failed_chan (s : Nat) : RF := ⟨MEM_STACK_STATUS.off s, 19, 32⟩

/-- MEM_STACK_ERR: spec/11_hbm_memory.md, R274. -/
def MEM_STACK_ERR.off (s : Nat) : Nat := 0x1800008 + 0x100 * s
def MEM_STACK_ERR.corrected (s : Nat) : RF := ⟨MEM_STACK_ERR.off s, 0, 32⟩
def MEM_STACK_ERR.uncorrectable (s : Nat) : RF := ⟨MEM_STACK_ERR.off s, 32, 16⟩
def MEM_STACK_ERR.sppr_used (s : Nat) : RF := ⟨MEM_STACK_ERR.off s, 48, 8⟩
def MEM_STACK_ERR.remap_used (s : Nat) : RF := ⟨MEM_STACK_ERR.off s, 56, 8⟩

/-- MEM_LAST: spec/11_hbm_memory.md, R274. -/
def MEM_LAST.off : Nat := 0x1800800
def MEM_LAST.addr : RF := ⟨MEM_LAST.off, 0, 39⟩
def MEM_LAST.uncorrectable : RF := ⟨MEM_LAST.off, 39, 1⟩
def MEM_LAST.patrol : RF := ⟨MEM_LAST.off, 40, 1⟩

/-- MEM_EVENT: spec/11_hbm_memory.md, R274. -/
def MEM_EVENT.off : Nat := 0x1800808
def MEM_EVENT.corrected : RF := ⟨MEM_EVENT.off, 0, 1⟩
def MEM_EVENT.uncorrectable : RF := ⟨MEM_EVENT.off, 1, 1⟩
def MEM_EVENT.repaired : RF := ⟨MEM_EVENT.off, 2, 1⟩
def MEM_EVENT.channel_failed : RF := ⟨MEM_EVENT.off, 3, 1⟩
def MEM_EVENT.hot : RF := ⟨MEM_EVENT.off, 4, 1⟩

/-- MEM_SCRUB: spec/11_hbm_memory.md, R274. -/
def MEM_SCRUB.off : Nat := 0x1800810
def MEM_SCRUB.scrub_hours : RF := ⟨MEM_SCRUB.off, 0, 8⟩

/-- MEM_BAY_CFG: spec/11_hbm_memory.md, R274. -/
def MEM_BAY_CFG.off (b : Nat) : Nat := 0x1801000 + 0x20 * b
def MEM_BAY_CFG.ilv (b : Nat) : RF := ⟨MEM_BAY_CFG.off b, 0, 2⟩
def MEM_BAY_CFG.enc (b : Nat) : RF := ⟨MEM_BAY_CFG.off b, 2, 2⟩
def MEM_BAY_CFG.chan_count (b : Nat) : RF := ⟨MEM_BAY_CFG.off b, 4, 9⟩
def MEM_BAY_CFG.shared (b : Nat) : RF := ⟨MEM_BAY_CFG.off b, 13, 1⟩
def MEM_BAY_CFG.chan_base (b : Nat) : RF := ⟨MEM_BAY_CFG.off b, 14, 31⟩

/-- MEM_BAY_BW: spec/11_hbm_memory.md, R274. -/
def MEM_BAY_BW.off (b : Nat) : Nat := 0x1801008 + 0x20 * b
def MEM_BAY_BW.bytes_64 (b : Nat) : RF := ⟨MEM_BAY_BW.off b, 0, 32⟩
def MEM_BAY_BW.wait_cycles (b : Nat) : RF := ⟨MEM_BAY_BW.off b, 32, 32⟩

/-- FABP_CFG: spec/12_fabric_links.md, R302. -/
def FABP_CFG.off (p : Nat) : Nat := 0x2000000 + 0x10000 * p
def FABP_CFG.admin_en (p : Nat) : RF := ⟨FABP_CFG.off p, 0, 1⟩
def FABP_CFG.mode (p : Nat) : RF := ⟨FABP_CFG.off p, 1, 2⟩
def FABP_CFG.face (p : Nat) : RF := ⟨FABP_CFG.off p, 3, 3⟩

/-- FABP_STATUS: spec/12_fabric_links.md, R302. -/
def FABP_STATUS.off (p : Nat) : Nat := 0x2000008 + 0x10000 * p
def FABP_STATUS.state (p : Nat) : RF := ⟨FABP_STATUS.off p, 0, 4⟩
def FABP_STATUS.lane_mask (p : Nat) : RF := ⟨FABP_STATUS.off p, 4, 8⟩
def FABP_STATUS.dead (p : Nat) : RF := ⟨FABP_STATUS.off p, 12, 1⟩
def FABP_STATUS.hs_fail (p : Nat) : RF := ⟨FABP_STATUS.off p, 13, 5⟩
def FABP_STATUS.rtt_ns (p : Nat) : RF := ⟨FABP_STATUS.off p, 18, 14⟩
def FABP_STATUS.train_fail (p : Nat) : RF := ⟨FABP_STATUS.off p, 32, 8⟩

/-- FABP_PEER: spec/12_fabric_links.md, R302. -/
def FABP_PEER.off (p i : Nat) : Nat := 0x2000010 + 0x10000 * p + 0x8 * i
def FABP_PEER.record (p i : Nat) : RF := ⟨FABP_PEER.off p i, 0, 64⟩

/-- FABP_ERR: spec/12_fabric_links.md, R302. -/
def FABP_ERR.off (p : Nat) : Nat := 0x2000040 + 0x10000 * p
def FABP_ERR.fec_corrected (p : Nat) : RF := ⟨FABP_ERR.off p, 0, 32⟩
def FABP_ERR.fec_uncorrected (p : Nat) : RF := ⟨FABP_ERR.off p, 32, 16⟩
def FABP_ERR.crc_err (p : Nat) : RF := ⟨FABP_ERR.off p, 48, 8⟩
def FABP_ERR.retries (p : Nat) : RF := ⟨FABP_ERR.off p, 56, 8⟩

/-- FABP_HB: spec/12_fabric_links.md, R302. -/
def FABP_HB.off (p : Nat) : Nat := 0x2000048 + 0x10000 * p
def FABP_HB.hb_rx (p : Nat) : RF := ⟨FABP_HB.off p, 0, 32⟩
def FABP_HB.dead_count (p : Nat) : RF := ⟨FABP_HB.off p, 32, 16⟩
def FABP_HB.foreign_frames (p : Nat) : RF := ⟨FABP_HB.off p, 48, 16⟩

/-- FABP_EVENT: spec/12_fabric_links.md, R302. -/
def FABP_EVENT.off (p : Nat) : Nat := 0x2000050 + 0x10000 * p
def FABP_EVENT.up (p : Nat) : RF := ⟨FABP_EVENT.off p, 0, 1⟩
def FABP_EVENT.down (p : Nat) : RF := ⟨FABP_EVENT.off p, 1, 1⟩
def FABP_EVENT.dead (p : Nat) : RF := ⟨FABP_EVENT.off p, 2, 1⟩
def FABP_EVENT.quarantine (p : Nat) : RF := ⟨FABP_EVENT.off p, 3, 1⟩
def FABP_EVENT.lane_retired (p : Nat) : RF := ⟨FABP_EVENT.off p, 4, 1⟩
def FABP_EVENT.sec_fail (p : Nat) : RF := ⟨FABP_EVENT.off p, 5, 1⟩

/-- FABP_CRED: spec/12_fabric_links.md, R302. -/
def FABP_CRED.off (p : Nat) : Nat := 0x2000058 + 0x10000 * p
def FABP_CRED.rsv_tc (p : Nat) : RF := ⟨FABP_CRED.off p, 0, 64⟩

/-- FABP_TCW: spec/12_fabric_links.md, R302. -/
def FABP_TCW.off (p : Nat) : Nat := 0x2000060 + 0x10000 * p
def FABP_TCW.w (p : Nat) : RF := ⟨FABP_TCW.off p, 0, 48⟩
def FABP_TCW.tc6_cap (p : Nat) : RF := ⟨FABP_TCW.off p, 48, 6⟩

/-- FABP_ETH0: spec/12_fabric_links.md, R302. -/
def FABP_ETH0.off (p : Nat) : Nat := 0x2000080 + 0x10000 * p
def FABP_ETH0.ethertype (p : Nat) : RF := ⟨FABP_ETH0.off p, 0, 16⟩
def FABP_ETH0.vid (p : Nat) : RF := ⟨FABP_ETH0.off p, 16, 12⟩
def FABP_ETH0.pcp_map (p : Nat) : RF := ⟨FABP_ETH0.off p, 28, 24⟩
def FABP_ETH0.max_payload (p : Nat) : RF := ⟨FABP_ETH0.off p, 52, 2⟩
def FABP_ETH0.pfc_en (p : Nat) : RF := ⟨FABP_ETH0.off p, 54, 8⟩

/-- FABP_ETH1: spec/12_fabric_links.md, R302. -/
def FABP_ETH1.off (p : Nat) : Nat := 0x2000088 + 0x10000 * p
def FABP_ETH1.src_mac (p : Nat) : RF := ⟨FABP_ETH1.off p, 0, 48⟩

/-- FABP_SEC: spec/12_fabric_links.md, R302. -/
def FABP_SEC.off (p : Nat) : Nat := 0x2000090 + 0x10000 * p
def FABP_SEC.sec_en (p : Nat) : RF := ⟨FABP_SEC.off p, 0, 1⟩
def FABP_SEC.cipher (p : Nat) : RF := ⟨FABP_SEC.off p, 1, 1⟩
def FABP_SEC.tx_an (p : Nat) : RF := ⟨FABP_SEC.off p, 2, 1⟩
def FABP_SEC.rx_an_valid (p : Nat) : RF := ⟨FABP_SEC.off p, 3, 4⟩
def FABP_SEC.replay_window (p : Nat) : RF := ⟨FABP_SEC.off p, 32, 32⟩

/-- FABP_SECCNT: spec/12_fabric_links.md, R302. -/
def FABP_SECCNT.off (p : Nat) : Nat := 0x2000098 + 0x10000 * p
def FABP_SECCNT.protected (p : Nat) : RF := ⟨FABP_SECCNT.off p, 0, 48⟩
def FABP_SECCNT.sec_fail (p : Nat) : RF := ⟨FABP_SECCNT.off p, 48, 16⟩

/-- FABP_HBPEER: spec/12_fabric_links.md, R302. -/
def FABP_HBPEER.off (p q : Nat) : Nat := 0x2000100 + 0x10000 * p + 0x8 * q
def FABP_HBPEER.peers (p q : Nat) : RF := ⟨FABP_HBPEER.off p q, 0, 64⟩

/-- FAB_E2E: spec/12_fabric_links.md, R302. -/
def FAB_E2E.off : Nat := 0x2f00000
def FAB_E2E.e2e_timeout_us : RF := ⟨FAB_E2E.off, 0, 16⟩
def FAB_E2E.e2e_retries : RF := ⟨FAB_E2E.off, 16, 4⟩

/-- FAB_E2E_STATUS: spec/12_fabric_links.md, R302. -/
def FAB_E2E_STATUS.off : Nat := 0x2f00008
def FAB_E2E_STATUS.resend_used : RF := ⟨FAB_E2E_STATUS.off, 0, 16⟩
def FAB_E2E_STATUS.unreachable : RF := ⟨FAB_E2E_STATUS.off, 16, 16⟩
def FAB_E2E_STATUS.refused : RF := ⟨FAB_E2E_STATUS.off, 32, 16⟩
def FAB_E2E_STATUS.dup : RF := ⟨FAB_E2E_STATUS.off, 48, 16⟩

/-- FAB_ID: spec/13_fabric_addressing_and_routing.md, R325. -/
def FAB_ID.off : Nat := 0x2f10000
def FAB_ID.device_id : RF := ⟨FAB_ID.off, 0, 15⟩
def FAB_ID.id_valid : RF := ⟨FAB_ID.off, 15, 1⟩
def FAB_ID.system_id : RF := ⟨FAB_ID.off, 16, 16⟩
def FAB_ID.domain_id : RF := ⟨FAB_ID.off, 32, 16⟩
def FAB_ID.id_conflict : RF := ⟨FAB_ID.off, 48, 1⟩
def FAB_ID.self_assign : RF := ⟨FAB_ID.off, 49, 1⟩
def FAB_ID.static_write_err : RF := ⟨FAB_ID.off, 50, 1⟩

/-- FAB_MGR: spec/13_fabric_addressing_and_routing.md, R325. -/
def FAB_MGR.off : Nat := 0x2f10008
def FAB_MGR.mgr0 : RF := ⟨FAB_MGR.off, 0, 15⟩
def FAB_MGR.mgr0_valid : RF := ⟨FAB_MGR.off, 15, 1⟩
def FAB_MGR.mgr1 : RF := ⟨FAB_MGR.off, 16, 15⟩
def FAB_MGR.mgr1_valid : RF := ⟨FAB_MGR.off, 31, 1⟩

/-- FAB_ROUTE_CFG: spec/13_fabric_addressing_and_routing.md, R325. -/
def FAB_ROUTE_CFG.off : Nat := 0x2f10010
def FAB_ROUTE_CFG.max_hops : RF := ⟨FAB_ROUTE_CFG.off, 0, 7⟩

/-- FAB_ROUTE_STAT: spec/13_fabric_addressing_and_routing.md, R325. -/
def FAB_ROUTE_STAT.off : Nat := 0x2f10018
def FAB_ROUTE_STAT.no_route : RF := ⟨FAB_ROUTE_STAT.off, 0, 16⟩
def FAB_ROUTE_STAT.hop_drop : RF := ⟨FAB_ROUTE_STAT.off, 16, 16⟩
def FAB_ROUTE_STAT.ctl_drop : RF := ⟨FAB_ROUTE_STAT.off, 32, 16⟩

/-- FAB_GRT: spec/13_fabric_addressing_and_routing.md, R325. -/
def FAB_GRT.off (g : Nat) : Nat := 0x2f11000 + 0x8 * g
def FAB_GRT.valid (g : Nat) : RF := ⟨FAB_GRT.off g, 0, 1⟩
def FAB_GRT.n_prim (g : Nat) : RF := ⟨FAB_GRT.off g, 1, 2⟩
def FAB_GRT.det (g : Nat) : RF := ⟨FAB_GRT.off g, 3, 2⟩
def FAB_GRT.prim (g : Nat) : RF := ⟨FAB_GRT.off g, 5, 32⟩
def FAB_GRT.n_alt (g : Nat) : RF := ⟨FAB_GRT.off g, 37, 2⟩
def FAB_GRT.alt (g : Nat) : RF := ⟨FAB_GRT.off g, 39, 16⟩

/-- FAB_MRT: spec/13_fabric_addressing_and_routing.md, R325. -/
def FAB_MRT.off (m : Nat) : Nat := 0x2f11800 + 0x8 * m
def FAB_MRT.valid (m : Nat) : RF := ⟨FAB_MRT.off m, 0, 1⟩
def FAB_MRT.n_prim (m : Nat) : RF := ⟨FAB_MRT.off m, 1, 2⟩
def FAB_MRT.det (m : Nat) : RF := ⟨FAB_MRT.off m, 3, 2⟩
def FAB_MRT.prim (m : Nat) : RF := ⟨FAB_MRT.off m, 5, 32⟩
def FAB_MRT.n_alt (m : Nat) : RF := ⟨FAB_MRT.off m, 37, 2⟩
def FAB_MRT.alt (m : Nat) : RF := ⟨FAB_MRT.off m, 39, 16⟩

/-- FAB_NHA: spec/13_fabric_addressing_and_routing.md, R325. -/
def FAB_NHA.off (i : Nat) : Nat := 0x2f12000 + 0x10 * i
def FAB_NHA.valid (i : Nat) : RF := ⟨FAB_NHA.off i, 0, 1⟩
def FAB_NHA.kind (i : Nat) : RF := ⟨FAB_NHA.off i, 1, 1⟩
def FAB_NHA.target (i : Nat) : RF := ⟨FAB_NHA.off i, 2, 6⟩
def FAB_NHA.peer_id (i : Nat) : RF := ⟨FAB_NHA.off i, 8, 15⟩

/-- FAB_NHB: spec/13_fabric_addressing_and_routing.md, R325. -/
def FAB_NHB.off (i : Nat) : Nat := 0x2f12008 + 0x10 * i
def FAB_NHB.dst_mac (i : Nat) : RF := ⟨FAB_NHB.off i, 0, 48⟩

/-- FAB_MCT: spec/13_fabric_addressing_and_routing.md, R325. -/
def FAB_MCT.off (m : Nat) : Nat := 0x2f13000 + 0x8 * m
def FAB_MCT.valid (m : Nat) : RF := ⟨FAB_MCT.off m, 0, 1⟩
def FAB_MCT.deliver (m : Nat) : RF := ⟨FAB_MCT.off m, 1, 1⟩
def FAB_MCT.faces (m : Nat) : RF := ⟨FAB_MCT.off m, 2, 7⟩
def FAB_MCT.nh0 (m : Nat) : RF := ⟨FAB_MCT.off m, 9, 8⟩
def FAB_MCT.nh1 (m : Nat) : RF := ⟨FAB_MCT.off m, 17, 8⟩
def FAB_MCT.nh_valid (m : Nat) : RF := ⟨FAB_MCT.off m, 25, 2⟩

/-- TCK_SYNC_CFG: spec/13_fabric_addressing_and_routing.md, R325. -/
def TCK_SYNC_CFG.off : Nat := 0x3800200
def TCK_SYNC_CFG.master_en : RF := ⟨TCK_SYNC_CFG.off, 0, 1⟩
def TCK_SYNC_CFG.master_prio : RF := ⟨TCK_SYNC_CFG.off, 1, 8⟩
def TCK_SYNC_CFG.sync_interval_us : RF := ⟨TCK_SYNC_CFG.off, 9, 10⟩
def TCK_SYNC_CFG.announce_ms : RF := ⟨TCK_SYNC_CFG.off, 19, 5⟩
def TCK_SYNC_CFG.ptp_domain : RF := ⟨TCK_SYNC_CFG.off, 24, 8⟩

/-- TCK_TC_PORTS: spec/13_fabric_addressing_and_routing.md, R325. -/
def TCK_TC_PORTS.off : Nat := 0x3800208
def TCK_TC_PORTS.tc : RF := ⟨TCK_TC_PORTS.off, 0, 50⟩

/-- TCK_SYNC_STATUS: spec/13_fabric_addressing_and_routing.md, R325. -/
def TCK_SYNC_STATUS.off : Nat := 0x3800210
def TCK_SYNC_STATUS.parent_port : RF := ⟨TCK_SYNC_STATUS.off, 0, 6⟩
def TCK_SYNC_STATUS.distance : RF := ⟨TCK_SYNC_STATUS.off, 6, 6⟩
def TCK_SYNC_STATUS.path_non_tc : RF := ⟨TCK_SYNC_STATUS.off, 12, 1⟩
def TCK_SYNC_STATUS.master_prio : RF := ⟨TCK_SYNC_STATUS.off, 13, 8⟩
def TCK_SYNC_STATUS.master_pps : RF := ⟨TCK_SYNC_STATUS.off, 21, 1⟩
def TCK_SYNC_STATUS.in_bound : RF := ⟨TCK_SYNC_STATUS.off, 22, 8⟩

/-- COL_STATUS: spec/14_collectives_and_mapping.md, R350. -/
def COL_STATUS.off : Nat := 0x3000000
def COL_STATUS.open0 : RF := ⟨COL_STATUS.off, 0, 6⟩
def COL_STATUS.open1 : RF := ⟨COL_STATUS.off, 6, 6⟩
def COL_STATUS.open_wait : RF := ⟨COL_STATUS.off, 32, 32⟩

/-- COL_BAY_TABLE: spec/14_collectives_and_mapping.md, R350. -/
def COL_BAY_TABLE.off (b : Nat) : Nat := 0x3010000 + 0x100 * b
def COL_BAY_TABLE.tbl_base (b : Nat) : RF := ⟨COL_BAY_TABLE.off b, 0, 32⟩
def COL_BAY_TABLE.tbl_len (b : Nat) : RF := ⟨COL_BAY_TABLE.off b, 32, 9⟩
def COL_BAY_TABLE.give_up_ticks (b : Nat) : RF := ⟨COL_BAY_TABLE.off b, 44, 8⟩

/-- COL_BAY_STATUS: spec/14_collectives_and_mapping.md, R350. -/
def COL_BAY_STATUS.off (b : Nat) : Nat := 0x3010008 + 0x100 * b
def COL_BAY_STATUS.openF (b : Nat) : RF := ⟨COL_BAY_STATUS.off b, 0, 7⟩
def COL_BAY_STATUS.withholding (b : Nat) : RF := ⟨COL_BAY_STATUS.off b, 7, 1⟩
def COL_BAY_STATUS.last_index (b : Nat) : RF := ⟨COL_BAY_STATUS.off b, 8, 8⟩
def COL_BAY_STATUS.last_error (b : Nat) : RF := ⟨COL_BAY_STATUS.off b, 16, 2⟩

/-- COL_BAY_COUNT0: spec/14_collectives_and_mapping.md, R350. -/
def COL_BAY_COUNT0.off (b : Nat) : Nat := 0x3010010 + 0x100 * b
def COL_BAY_COUNT0.excluded (b : Nat) : RF := ⟨COL_BAY_COUNT0.off b, 0, 16⟩
def COL_BAY_COUNT0.late_dropped (b : Nat) : RF := ⟨COL_BAY_COUNT0.off b, 16, 16⟩
def COL_BAY_COUNT0.late_deferred (b : Nat) : RF := ⟨COL_BAY_COUNT0.off b, 32, 16⟩
def COL_BAY_COUNT0.lost_segments (b : Nat) : RF := ⟨COL_BAY_COUNT0.off b, 48, 16⟩

/-- COL_BAY_COUNT1: spec/14_collectives_and_mapping.md, R350. -/
def COL_BAY_COUNT1.off (b : Nat) : Nat := 0x3010018 + 0x100 * b
def COL_BAY_COUNT1.version_mismatch (b : Nat) : RF := ⟨COL_BAY_COUNT1.off b, 0, 16⟩
def COL_BAY_COUNT1.count_mismatch (b : Nat) : RF := ⟨COL_BAY_COUNT1.off b, 16, 16⟩
def COL_BAY_COUNT1.stand_ins (b : Nat) : RF := ⟨COL_BAY_COUNT1.off b, 32, 16⟩
def COL_BAY_COUNT1.empty_segments (b : Nat) : RF := ⟨COL_BAY_COUNT1.off b, 48, 16⟩

/-- COL_BAY_COUNT2: spec/14_collectives_and_mapping.md, R350. -/
def COL_BAY_COUNT2.off (b : Nat) : Nat := 0x3010020 + 0x100 * b
def COL_BAY_COUNT2.a2a_clipped (b : Nat) : RF := ⟨COL_BAY_COUNT2.off b, 0, 32⟩

/-- COL_BAY_EVENT: spec/14_collectives_and_mapping.md, R350. -/
def COL_BAY_EVENT.off (b : Nat) : Nat := 0x3010028 + 0x100 * b
def COL_BAY_EVENT.desc_error (b : Nat) : RF := ⟨COL_BAY_EVENT.off b, 0, 1⟩
def COL_BAY_EVENT.excluded (b : Nat) : RF := ⟨COL_BAY_EVENT.off b, 1, 1⟩
def COL_BAY_EVENT.late (b : Nat) : RF := ⟨COL_BAY_EVENT.off b, 2, 1⟩
def COL_BAY_EVENT.lost (b : Nat) : RF := ⟨COL_BAY_EVENT.off b, 3, 1⟩
def COL_BAY_EVENT.shard_version (b : Nat) : RF := ⟨COL_BAY_EVENT.off b, 4, 1⟩
def COL_BAY_EVENT.stand_in (b : Nat) : RF := ⟨COL_BAY_EVENT.off b, 5, 1⟩
def COL_BAY_EVENT.count_mismatch (b : Nat) : RF := ⟨COL_BAY_EVENT.off b, 6, 1⟩

/-- FLT_STATUS: spec/15_fault_tolerance.md, R372. -/
def FLT_STATUS.off : Nat := 0x3a00000
def FLT_STATUS.dead_count : RF := ⟨FLT_STATUS.off, 0, 9⟩
def FLT_STATUS.fenced : RF := ⟨FLT_STATUS.off, 9, 1⟩
def FLT_STATUS.dup_notices : RF := ⟨FLT_STATUS.off, 10, 16⟩
def FLT_STATUS.link_notices : RF := ⟨FLT_STATUS.off, 26, 16⟩

/-- FLT_DEAD_LAST: spec/15_fault_tolerance.md, R372. -/
def FLT_DEAD_LAST.off : Nat := 0x3a00008
def FLT_DEAD_LAST.dead_id : RF := ⟨FLT_DEAD_LAST.off, 0, 15⟩
def FLT_DEAD_LAST.time : RF := ⟨FLT_DEAD_LAST.off, 16, 48⟩

/-- FLT_DEAD_CLR: spec/15_fault_tolerance.md, R372. -/
def FLT_DEAD_CLR.off : Nat := 0x3a00010
def FLT_DEAD_CLR.dev : RF := ⟨FLT_DEAD_CLR.off, 0, 15⟩

/-- FLT_SISREG: spec/15_fault_tolerance.md, R372. -/
def FLT_SISREG.off : Nat := 0x3a00018
def FLT_SISREG.base : RF := ⟨FLT_SISREG.off, 0, 39⟩
def FLT_SISREG.size_gib : RF := ⟨FLT_SISREG.off, 39, 9⟩

/-- FLT_SUSPECT: spec/15_fault_tolerance.md, R372. -/
def FLT_SUSPECT.off : Nat := 0x3a00020
def FLT_SUSPECT.in_use : RF := ⟨FLT_SUSPECT.off, 0, 13⟩
def FLT_SUSPECT.evicted : RF := ⟨FLT_SUSPECT.off, 16, 32⟩
def FLT_SUSPECT.lasting : RF := ⟨FLT_SUSPECT.off, 48, 16⟩

/-- FLT_THR: spec/15_fault_tolerance.md, R372. -/
def FLT_THR.off (r : Nat) : Nat := 0x3a00100 + 0x8 * r
def FLT_THR.n (r : Nat) : RF := ⟨FLT_THR.off r, 0, 8⟩
def FLT_THR.window_s (r : Nat) : RF := ⟨FLT_THR.off r, 8, 32⟩

/-- FLT_LANE_THR: spec/15_fault_tolerance.md, R372. -/
def FLT_LANE_THR.off : Nat := 0x3a00120
def FLT_LANE_THR.rate_thr : RF := ⟨FLT_LANE_THR.off, 0, 32⟩
def FLT_LANE_THR.secs : RF := ⟨FLT_LANE_THR.off, 32, 16⟩

/-- FLT_BAY_CFG: spec/15_fault_tolerance.md, R372. -/
def FLT_BAY_CFG.off (b : Nat) : Nat := 0x3a10000 + 0x100 * b
def FLT_BAY_CFG.snap_en (b : Nat) : RF := ⟨FLT_BAY_CFG.off b, 0, 1⟩
def FLT_BAY_CFG.auto (b : Nat) : RF := ⟨FLT_BAY_CFG.off b, 1, 1⟩
def FLT_BAY_CFG.interval_fixed (b : Nat) : RF := ⟨FLT_BAY_CFG.off b, 2, 16⟩
def FLT_BAY_CFG.max_lost (b : Nat) : RF := ⟨FLT_BAY_CFG.off b, 18, 16⟩
def FLT_BAY_CFG.host_en (b : Nat) : RF := ⟨FLT_BAY_CFG.off b, 34, 1⟩
def FLT_BAY_CFG.co_fed_ok (b : Nat) : RF := ⟨FLT_BAY_CFG.off b, 35, 1⟩
def FLT_BAY_CFG.snap_weight (b : Nat) : RF := ⟨FLT_BAY_CFG.off b, 36, 10⟩

/-- FLT_BAY_LIST: spec/15_fault_tolerance.md, R372. -/
def FLT_BAY_LIST.off (b : Nat) : Nat := 0x3a10008 + 0x100 * b
def FLT_BAY_LIST.offset (b : Nat) : RF := ⟨FLT_BAY_LIST.off b, 0, 32⟩
def FLT_BAY_LIST.len (b : Nat) : RF := ⟨FLT_BAY_LIST.off b, 32, 11⟩

/-- FLT_BAY_REPSET: spec/15_fault_tolerance.md, R372. -/
def FLT_BAY_REPSET.off (b : Nat) : Nat := 0x3a10010 + 0x100 * b
def FLT_BAY_REPSET.offset (b : Nat) : RF := ⟨FLT_BAY_REPSET.off b, 0, 32⟩
def FLT_BAY_REPSET.len (b : Nat) : RF := ⟨FLT_BAY_REPSET.off b, 32, 11⟩

/-- FLT_BAY_SISTERS: spec/15_fault_tolerance.md, R372. -/
def FLT_BAY_SISTERS.off (b : Nat) : Nat := 0x3a10018 + 0x100 * b
def FLT_BAY_SISTERS.sister0 (b : Nat) : RF := ⟨FLT_BAY_SISTERS.off b, 0, 15⟩
def FLT_BAY_SISTERS.valid0 (b : Nat) : RF := ⟨FLT_BAY_SISTERS.off b, 15, 1⟩
def FLT_BAY_SISTERS.sister1 (b : Nat) : RF := ⟨FLT_BAY_SISTERS.off b, 16, 15⟩
def FLT_BAY_SISTERS.valid1 (b : Nat) : RF := ⟨FLT_BAY_SISTERS.off b, 31, 1⟩

/-- FLT_BAY_HOST: spec/15_fault_tolerance.md, R372. -/
def FLT_BAY_HOST.off (b : Nat) : Nat := 0x3a10020 + 0x100 * b
def FLT_BAY_HOST.host_base (b : Nat) : RF := ⟨FLT_BAY_HOST.off b, 0, 48⟩

/-- FLT_BAY_GMASK: spec/15_fault_tolerance.md, R372. -/
def FLT_BAY_GMASK.off (b q : Nat) : Nat := 0x3a10028 + 0x100 * b + 0x8 * q
def FLT_BAY_GMASK.groups (b q : Nat) : RF := ⟨FLT_BAY_GMASK.off b q, 0, 64⟩

/-- FLT_BAY_SNAPSTAT: spec/15_fault_tolerance.md, R372. -/
def FLT_BAY_SNAPSTAT.off (b : Nat) : Nat := 0x3a10048 + 0x100 * b
def FLT_BAY_SNAPSTAT.last_version (b : Nat) : RF := ⟨FLT_BAY_SNAPSTAT.off b, 0, 48⟩
def FLT_BAY_SNAPSTAT.valid (b : Nat) : RF := ⟨FLT_BAY_SNAPSTAT.off b, 48, 1⟩
def FLT_BAY_SNAPSTAT.in_progress (b : Nat) : RF := ⟨FLT_BAY_SNAPSTAT.off b, 49, 1⟩
def FLT_BAY_SNAPSTAT.host_valid (b : Nat) : RF := ⟨FLT_BAY_SNAPSTAT.off b, 50, 1⟩

/-- FLT_BAY_CADENCE: spec/15_fault_tolerance.md, R372. -/
def FLT_BAY_CADENCE.off (b : Nat) : Nat := 0x3a10050 + 0x100 * b
def FLT_BAY_CADENCE.cost_16 (b : Nat) : RF := ⟨FLT_BAY_CADENCE.off b, 0, 20⟩
def FLT_BAY_CADENCE.n_dead (b : Nat) : RF := ⟨FLT_BAY_CADENCE.off b, 20, 8⟩
def FLT_BAY_CADENCE.interval (b : Nat) : RF := ⟨FLT_BAY_CADENCE.off b, 28, 16⟩

/-- FLT_BAY_STATE: spec/15_fault_tolerance.md, R372. -/
def FLT_BAY_STATE.off (b : Nat) : Nat := 0x3a10058 + 0x100 * b
def FLT_BAY_STATE.dropped (b : Nat) : RF := ⟨FLT_BAY_STATE.off b, 0, 1⟩
def FLT_BAY_STATE.unprotected (b : Nat) : RF := ⟨FLT_BAY_STATE.off b, 1, 1⟩
def FLT_BAY_STATE.refill_hold (b : Nat) : RF := ⟨FLT_BAY_STATE.off b, 2, 1⟩
def FLT_BAY_STATE.bind0 (b : Nat) : RF := ⟨FLT_BAY_STATE.off b, 3, 4⟩
def FLT_BAY_STATE.bind1 (b : Nat) : RF := ⟨FLT_BAY_STATE.off b, 7, 4⟩
def FLT_BAY_STATE.refill (b : Nat) : RF := ⟨FLT_BAY_STATE.off b, 11, 3⟩
def FLT_BAY_STATE.chunks_done (b : Nat) : RF := ⟨FLT_BAY_STATE.off b, 14, 22⟩
def FLT_BAY_STATE.refill_src (b : Nat) : RF := ⟨FLT_BAY_STATE.off b, 36, 15⟩

/-- FLT_BAY_EVENT: spec/15_fault_tolerance.md, R372. -/
def FLT_BAY_EVENT.off (b : Nat) : Nat := 0x3a10060 + 0x100 * b
def FLT_BAY_EVENT.dropped (b : Nat) : RF := ⟨FLT_BAY_EVENT.off b, 0, 1⟩
def FLT_BAY_EVENT.absorbed (b : Nat) : RF := ⟨FLT_BAY_EVENT.off b, 1, 1⟩
def FLT_BAY_EVENT.snap_done (b : Nat) : RF := ⟨FLT_BAY_EVENT.off b, 2, 1⟩
def FLT_BAY_EVENT.snap_fail (b : Nat) : RF := ⟨FLT_BAY_EVENT.off b, 3, 1⟩
def FLT_BAY_EVENT.bind_refused (b : Nat) : RF := ⟨FLT_BAY_EVENT.off b, 4, 1⟩
def FLT_BAY_EVENT.co_fed (b : Nat) : RF := ⟨FLT_BAY_EVENT.off b, 5, 1⟩
def FLT_BAY_EVENT.refill_done (b : Nat) : RF := ⟨FLT_BAY_EVENT.off b, 6, 1⟩
def FLT_BAY_EVENT.orphaned (b : Nat) : RF := ⟨FLT_BAY_EVENT.off b, 7, 1⟩

/-- PWR_STATUS: spec/16_power_and_load_shaping.md, R396. -/
def PWR_STATUS.off : Nat := 0x100000
def PWR_STATUS.mode : RF := ⟨PWR_STATUS.off, 0, 2⟩
def PWR_STATUS.aclk_state : RF := ⟨PWR_STATUS.off, 2, 2⟩
def PWR_STATUS.eff_env_w : RF := ⟨PWR_STATUS.off, 4, 11⟩
def PWR_STATUS.draw_w : RF := ⟨PWR_STATUS.off, 15, 11⟩
def PWR_STATUS.hold_w : RF := ⟨PWR_STATUS.off, 26, 10⟩

/-- PWR_HWLIM: spec/16_power_and_load_shaping.md, R396. -/
def PWR_HWLIM.off : Nat := 0x100008
def PWR_HWLIM.env_cap_w : RF := ⟨PWR_HWLIM.off, 0, 11⟩
def PWR_HWLIM.up_max : RF := ⟨PWR_HWLIM.off, 11, 20⟩
def PWR_HWLIM.dn_max : RF := ⟨PWR_HWLIM.off, 31, 20⟩
def PWR_HWLIM.peak_w : RF := ⟨PWR_HWLIM.off, 51, 11⟩

/-- PWR_ENV: spec/16_power_and_load_shaping.md, R396. -/
def PWR_ENV.off : Nat := 0x100010
def PWR_ENV.env_w : RF := ⟨PWR_ENV.off, 0, 11⟩
def PWR_ENV.throttle_c : RF := ⟨PWR_ENV.off, 11, 7⟩

/-- PWR_SLEW_UP: spec/16_power_and_load_shaping.md, R396. -/
def PWR_SLEW_UP.off : Nat := 0x100018
def PWR_SLEW_UP.slew : RF := ⟨PWR_SLEW_UP.off, 0, 20⟩

/-- PWR_SLEW_DN: spec/16_power_and_load_shaping.md, R396. -/
def PWR_SLEW_DN.off : Nat := 0x100020
def PWR_SLEW_DN.slew : RF := ⟨PWR_SLEW_DN.off, 0, 20⟩

/-- PWR_THAW_CFG: spec/16_power_and_load_shaping.md, R396. -/
def PWR_THAW_CFG.off : Nat := 0x100028
def PWR_THAW_CFG.site_en : RF := ⟨PWR_THAW_CFG.off, 0, 1⟩
def PWR_THAW_CFG.step_w : RF := ⟨PWR_THAW_CFG.off, 1, 12⟩
def PWR_THAW_CFG.tok_window_ticks : RF := ⟨PWR_THAW_CFG.off, 13, 10⟩
def PWR_THAW_CFG.site_id : RF := ⟨PWR_THAW_CFG.off, 23, 16⟩
def PWR_THAW_CFG.coord_en : RF := ⟨PWR_THAW_CFG.off, 39, 1⟩
def PWR_THAW_CFG.coord_prio : RF := ⟨PWR_THAW_CFG.off, 40, 8⟩

/-- PWR_SITE: spec/16_power_and_load_shaping.md, R396. -/
def PWR_SITE.off : Nat := 0x100030
def PWR_SITE.site_slew : RF := ⟨PWR_SITE.off, 0, 32⟩
def PWR_SITE.n_devices : RF := ⟨PWR_SITE.off, 32, 16⟩
def PWR_SITE.tok_w : RF := ⟨PWR_SITE.off, 48, 16⟩

/-- PWR_TARGET: spec/16_power_and_load_shaping.md, R396. -/
def PWR_TARGET.off : Nat := 0x100038
def PWR_TARGET.prethaw_w : RF := ⟨PWR_TARGET.off, 0, 11⟩

/-- PWR_THAW_STAT: spec/16_power_and_load_shaping.md, R396. -/
def PWR_THAW_STAT.off : Nat := 0x100040
def PWR_THAW_STAT.path : RF := ⟨PWR_THAW_STAT.off, 0, 2⟩
def PWR_THAW_STAT.waiting : RF := ⟨PWR_THAW_STAT.off, 2, 1⟩
def PWR_THAW_STAT.coord_id : RF := ⟨PWR_THAW_STAT.off, 3, 15⟩
def PWR_THAW_STAT.slot : RF := ⟨PWR_THAW_STAT.off, 18, 6⟩
def PWR_THAW_STAT.windows_waited : RF := ⟨PWR_THAW_STAT.off, 24, 16⟩
def PWR_THAW_STAT.late_grants : RF := ⟨PWR_THAW_STAT.off, 40, 16⟩

/-- PWR_THAW_COUNT: spec/16_power_and_load_shaping.md, R396. -/
def PWR_THAW_COUNT.off : Nat := 0x100048
def PWR_THAW_COUNT.tokens : RF := ⟨PWR_THAW_COUNT.off, 0, 32⟩
def PWR_THAW_COUNT.forced_windows : RF := ⟨PWR_THAW_COUNT.off, 32, 16⟩
def PWR_THAW_COUNT.max_wait : RF := ⟨PWR_THAW_COUNT.off, 48, 16⟩

/-- PWR_FROST: spec/16_power_and_load_shaping.md, R396. -/
def PWR_FROST.off : Nat := 0x100050
def PWR_FROST.hold_max_w : RF := ⟨PWR_FROST.off, 0, 10⟩
def PWR_FROST.shortfall_j : RF := ⟨PWR_FROST.off, 10, 32⟩

/-- PWR_CAPPED: spec/16_power_and_load_shaping.md, R396. -/
def PWR_CAPPED.off : Nat := 0x100058
def PWR_CAPPED.ag_capped : RF := ⟨PWR_CAPPED.off, 0, 16⟩
def PWR_CAPPED.duty : RF := ⟨PWR_CAPPED.off, 16, 5⟩
def PWR_CAPPED.hbm_cap : RF := ⟨PWR_CAPPED.off, 21, 5⟩
def PWR_CAPPED.capped_ticks : RF := ⟨PWR_CAPPED.off, 26, 24⟩

/-- PWR_THERM: spec/16_power_and_load_shaping.md, R396. -/
def PWR_THERM.off : Nat := 0x100060
def PWR_THERM.tj_max : RF := ⟨PWR_THERM.off, 0, 8⟩
def PWR_THERM.hot_sensor : RF := ⟨PWR_THERM.off, 8, 6⟩
def PWR_THERM.hbm_max : RF := ⟨PWR_THERM.off, 14, 8⟩
def PWR_THERM.throttle_ticks : RF := ⟨PWR_THERM.off, 22, 16⟩
def PWR_THERM.emerg_count : RF := ⟨PWR_THERM.off, 38, 8⟩

/-- PWR_COORD: spec/16_power_and_load_shaping.md, R396. -/
def PWR_COORD.off : Nat := 0x100068
def PWR_COORD.is_coord : RF := ⟨PWR_COORD.off, 0, 1⟩
def PWR_COORD.queue : RF := ⟨PWR_COORD.off, 1, 16⟩
def PWR_COORD.k_tokens : RF := ⟨PWR_COORD.off, 17, 10⟩
def PWR_COORD.debt_mw : RF := ⟨PWR_COORD.off, 27, 32⟩

/-- PWR_EVENT: spec/16_power_and_load_shaping.md, R396. -/
def PWR_EVENT.off : Nat := 0x100070
def PWR_EVENT.cal_fault : RF := ⟨PWR_EVENT.off, 0, 1⟩
def PWR_EVENT.power_emerg : RF := ⟨PWR_EVENT.off, 1, 1⟩
def PWR_EVENT.thermal_emerg : RF := ⟨PWR_EVENT.off, 2, 1⟩
def PWR_EVENT.throttle : RF := ⟨PWR_EVENT.off, 3, 1⟩
def PWR_EVENT.thaw_wait : RF := ⟨PWR_EVENT.off, 4, 1⟩
def PWR_EVENT.forced : RF := ⟨PWR_EVENT.off, 5, 1⟩
def PWR_EVENT.shortfall : RF := ⟨PWR_EVENT.off, 6, 1⟩
def PWR_EVENT.budget_fault : RF := ⟨PWR_EVENT.off, 7, 1⟩
def PWR_EVENT.dom_refused : RF := ⟨PWR_EVENT.off, 8, 1⟩
def PWR_EVENT.late_grant : RF := ⟨PWR_EVENT.off, 9, 1⟩

/-- PWR_DOM: spec/16_power_and_load_shaping.md, R396. -/
def PWR_DOM.off (d : Nat) : Nat := 0x100100 + 0x8 * d
def PWR_DOM.req (d : Nat) : RF := ⟨PWR_DOM.off d, 0, 2⟩
def PWR_DOM.state (d : Nat) : RF := ⟨PWR_DOM.off d, 2, 2⟩
def PWR_DOM.moving (d : Nat) : RF := ⟨PWR_DOM.off d, 4, 1⟩
def PWR_DOM.refused (d : Nat) : RF := ⟨PWR_DOM.off d, 5, 1⟩

/-- GLB_FW_CORE: spec/17_firmware.md, R409. -/
def GLB_FW_CORE.off (c : Nat) : Nat := 0x1000 + 0x10 * c
def GLB_FW_CORE.state (c : Nat) : RF := ⟨GLB_FW_CORE.off c, 0, 2⟩
def GLB_FW_CORE.slot_b (c : Nat) : RF := ⟨GLB_FW_CORE.off c, 2, 1⟩
def GLB_FW_CORE.fallback (c : Nat) : RF := ⟨GLB_FW_CORE.off c, 3, 1⟩
def GLB_FW_CORE.last_cause (c : Nat) : RF := ⟨GLB_FW_CORE.off c, 4, 4⟩
def GLB_FW_CORE.recent (c : Nat) : RF := ⟨GLB_FW_CORE.off c, 8, 8⟩
def GLB_FW_CORE.restarts (c : Nat) : RF := ⟨GLB_FW_CORE.off c, 16, 16⟩
def GLB_FW_CORE.fw_level (c : Nat) : RF := ⟨GLB_FW_CORE.off c, 32, 32⟩

/-- GLB_FW_CORET: spec/17_firmware.md, R409. -/
def GLB_FW_CORET.off (c : Nat) : Nat := 0x1008 + 0x10 * c
def GLB_FW_CORET.last_restart_us (c : Nat) : RF := ⟨GLB_FW_CORET.off c, 0, 16⟩
def GLB_FW_CORET.last_restart_tick (c : Nat) : RF := ⟨GLB_FW_CORET.off c, 16, 48⟩

/-- GLB_FW_SLOTS: spec/17_firmware.md, R409. -/
def GLB_FW_SLOTS.off : Nat := 0x1200
def GLB_FW_SLOTS.a_phys : RF := ⟨GLB_FW_SLOTS.off, 0, 1⟩
def GLB_FW_SLOTS.b_valid : RF := ⟨GLB_FW_SLOTS.off, 1, 1⟩
def GLB_FW_SLOTS.staging : RF := ⟨GLB_FW_SLOTS.off, 2, 1⟩
def GLB_FW_SLOTS.on_b : RF := ⟨GLB_FW_SLOTS.off, 3, 19⟩

/-- GLB_FW_LEVELS: spec/17_firmware.md, R409. -/
def GLB_FW_LEVELS.off : Nat := 0x1208
def GLB_FW_LEVELS.a_level : RF := ⟨GLB_FW_LEVELS.off, 0, 32⟩
def GLB_FW_LEVELS.b_level : RF := ⟨GLB_FW_LEVELS.off, 32, 32⟩

/-- GLB_FW_STAGE0: spec/17_firmware.md, R409. -/
def GLB_FW_STAGE0.off : Nat := 0x1210
def GLB_FW_STAGE0.src : RF := ⟨GLB_FW_STAGE0.off, 0, 40⟩

/-- GLB_FW_STAGE1: spec/17_firmware.md, R409. -/
def GLB_FW_STAGE1.off : Nat := 0x1218
def GLB_FW_STAGE1.len : RF := ⟨GLB_FW_STAGE1.off, 0, 26⟩

/-- GLB_FW_CMD: spec/17_firmware.md, R409. -/
def GLB_FW_CMD.off : Nat := 0x1220
def GLB_FW_CMD.op : RF := ⟨GLB_FW_CMD.off, 0, 4⟩
def GLB_FW_CMD.mask : RF := ⟨GLB_FW_CMD.off, 4, 19⟩

/-- GLB_FW_CMDSTAT: spec/17_firmware.md, R409. -/
def GLB_FW_CMDSTAT.off : Nat := 0x1228
def GLB_FW_CMDSTAT.last_op : RF := ⟨GLB_FW_CMDSTAT.off, 0, 4⟩
def GLB_FW_CMDSTAT.result : RF := ⟨GLB_FW_CMDSTAT.off, 4, 2⟩
def GLB_FW_CMDSTAT.reason : RF := ⟨GLB_FW_CMDSTAT.off, 6, 4⟩
def GLB_FW_CMDSTAT.pending : RF := ⟨GLB_FW_CMDSTAT.off, 10, 19⟩
def GLB_FW_CMDSTAT.wait_reason : RF := ⟨GLB_FW_CMDSTAT.off, 29, 3⟩
def GLB_FW_CMDSTAT.refused_mask : RF := ⟨GLB_FW_CMDSTAT.off, 32, 19⟩

/-- GLB_FW_EVENT: spec/17_firmware.md, R409. -/
def GLB_FW_EVENT.off : Nat := 0x1230
def GLB_FW_EVENT.restarted : RF := ⟨GLB_FW_EVENT.off, 0, 1⟩
def GLB_FW_EVENT.failed : RF := ⟨GLB_FW_EVENT.off, 1, 1⟩
def GLB_FW_EVENT.fallback : RF := ⟨GLB_FW_EVENT.off, 2, 1⟩
def GLB_FW_EVENT.staged : RF := ⟨GLB_FW_EVENT.off, 3, 1⟩
def GLB_FW_EVENT.stage_fail : RF := ⟨GLB_FW_EVENT.off, 4, 1⟩
def GLB_FW_EVENT.activated : RF := ⟨GLB_FW_EVENT.off, 5, 1⟩
def GLB_FW_EVENT.act_refused : RF := ⟨GLB_FW_EVENT.off, 6, 1⟩
def GLB_FW_EVENT.slots_swapped : RF := ⟨GLB_FW_EVENT.off, 7, 1⟩

/-- SEC_STATUS: spec/18_security_and_journal.md, R431. -/
def SEC_STATUS.off : Nat := 0x200000
def SEC_STATUS.owned : RF := ⟨SEC_STATUS.off, 0, 1⟩
def SEC_STATUS.puf_ok : RF := ⟨SEC_STATUS.off, 1, 1⟩
def SEC_STATUS.record_ok : RF := ⟨SEC_STATUS.off, 2, 1⟩
def SEC_STATUS.enrol_strap : RF := ⟨SEC_STATUS.off, 3, 1⟩
def SEC_STATUS.busy : RF := ⟨SEC_STATUS.off, 4, 1⟩
def SEC_STATUS.snap_keys : RF := ⟨SEC_STATUS.off, 5, 8⟩
def SEC_STATUS.spdm_sessions : RF := ⟨SEC_STATUS.off, 13, 3⟩

/-- SEC_IDENT: spec/18_security_and_journal.md, R431. -/
def SEC_IDENT.off : Nat := 0x200008
def SEC_IDENT.key_id : RF := ⟨SEC_IDENT.off, 0, 64⟩

/-- SEC_IDENT2: spec/18_security_and_journal.md, R431. -/
def SEC_IDENT2.off : Nat := 0x200010
def SEC_IDENT2.key_id : RF := ⟨SEC_IDENT2.off, 0, 64⟩

/-- SEC_IDENT3: spec/18_security_and_journal.md, R431. -/
def SEC_IDENT3.off : Nat := 0x200018
def SEC_IDENT3.key_id : RF := ⟨SEC_IDENT3.off, 0, 64⟩

/-- SEC_OWNER0: spec/18_security_and_journal.md, R431. -/
def SEC_OWNER0.off : Nat := 0x200020
def SEC_OWNER0.owner_key_id : RF := ⟨SEC_OWNER0.off, 0, 64⟩

/-- SEC_OWNER1: spec/18_security_and_journal.md, R431. -/
def SEC_OWNER1.off : Nat := 0x200028
def SEC_OWNER1.owner_key_id : RF := ⟨SEC_OWNER1.off, 0, 64⟩

/-- SEC_CTR: spec/18_security_and_journal.md, R431. -/
def SEC_CTR.off (k : Nat) : Nat := 0x200040 + 0x8 * k
def SEC_CTR.value (k : Nat) : RF := ⟨SEC_CTR.off k, 0, 32⟩
def SEC_CTR.valid (k : Nat) : RF := ⟨SEC_CTR.off k, 32, 1⟩

/-- SEC_CMDADDR: spec/18_security_and_journal.md, R431. -/
def SEC_CMDADDR.off : Nat := 0x200100
def SEC_CMDADDR.src : RF := ⟨SEC_CMDADDR.off, 0, 40⟩

/-- SEC_CMD: spec/18_security_and_journal.md, R431. -/
def SEC_CMD.off : Nat := 0x200108
def SEC_CMD.op : RF := ⟨SEC_CMD.off, 0, 4⟩

/-- SEC_CMDSTAT: spec/18_security_and_journal.md, R431. -/
def SEC_CMDSTAT.off : Nat := 0x200110
def SEC_CMDSTAT.last_op : RF := ⟨SEC_CMDSTAT.off, 0, 4⟩
def SEC_CMDSTAT.result : RF := ⟨SEC_CMDSTAT.off, 4, 2⟩
def SEC_CMDSTAT.reason : RF := ⟨SEC_CMDSTAT.off, 6, 4⟩

/-- SEC_EVENT: spec/18_security_and_journal.md, R431. -/
def SEC_EVENT.off : Nat := 0x200118
def SEC_EVENT.cmd_done : RF := ⟨SEC_EVENT.off, 0, 1⟩
def SEC_EVENT.owner_changed : RF := ⟨SEC_EVENT.off, 1, 1⟩
def SEC_EVENT.field_written : RF := ⟨SEC_EVENT.off, 2, 1⟩
def SEC_EVENT.ide_fail : RF := ⟨SEC_EVENT.off, 3, 1⟩
def SEC_EVENT.verify_fail : RF := ⟨SEC_EVENT.off, 4, 1⟩

/-- JNL_HEAD: spec/18_security_and_journal.md, R431. -/
def JNL_HEAD.off : Nat := 0x400000
def JNL_HEAD.next_seq : RF := ⟨JNL_HEAD.off, 0, 64⟩

/-- JNL_SEALED: spec/18_security_and_journal.md, R431. -/
def JNL_SEALED.off : Nat := 0x400008
def JNL_SEALED.seal_seq : RF := ⟨JNL_SEALED.off, 0, 48⟩
def JNL_SEALED.seal_index : RF := ⟨JNL_SEALED.off, 48, 14⟩

/-- JNL_STATUS: spec/18_security_and_journal.md, R431. -/
def JNL_STATUS.off : Nat := 0x400010
def JNL_STATUS.full : RF := ⟨JNL_STATUS.off, 0, 1⟩
def JNL_STATUS.export_stall : RF := ⟨JNL_STATUS.off, 1, 1⟩
def JNL_STATUS.free_k : RF := ⟨JNL_STATUS.off, 2, 13⟩
def JNL_STATUS.wait_us : RF := ⟨JNL_STATUS.off, 16, 32⟩

/-- JNL_CFG: spec/18_security_and_journal.md, R431. -/
def JNL_CFG.off : Nat := 0x400018
def JNL_CFG.export_en : RF := ⟨JNL_CFG.off, 0, 1⟩
def JNL_CFG.exp_log2 : RF := ⟨JNL_CFG.off, 1, 5⟩

/-- JNL_EXPORT_BASE: spec/18_security_and_journal.md, R431. -/
def JNL_EXPORT_BASE.off : Nat := 0x400020
def JNL_EXPORT_BASE.export_base : RF := ⟨JNL_EXPORT_BASE.off, 0, 40⟩

/-- JNL_EVENT: spec/18_security_and_journal.md, R431. -/
def JNL_EVENT.off : Nat := 0x400028
def JNL_EVENT.full : RF := ⟨JNL_EVENT.off, 0, 1⟩
def JNL_EVENT.sealed : RF := ⟨JNL_EVENT.off, 1, 1⟩
def JNL_EVENT.export_fail : RF := ⟨JNL_EVENT.off, 2, 1⟩

/-- HIF_READY: spec/19_host_interface.md, R453. -/
def HIF_READY.off : Nat := 0x3600000
def HIF_READY.state : RF := ⟨HIF_READY.off, 0, 2⟩

/-- HIF_EVENT: spec/19_host_interface.md, R453. -/
def HIF_EVENT.off : Nat := 0x3600008
def HIF_EVENT.host_loss : RF := ⟨HIF_EVENT.off, 0, 2⟩
def HIF_EVENT.link_up : RF := ⟨HIF_EVENT.off, 2, 2⟩
def HIF_EVENT.fetch_err : RF := ⟨HIF_EVENT.off, 4, 1⟩
def HIF_EVENT.cq_err : RF := ⟨HIF_EVENT.off, 5, 1⟩
def HIF_EVENT.frozen : RF := ⟨HIF_EVENT.off, 6, 1⟩
def HIF_EVENT.tdi_error : RF := ⟨HIF_EVENT.off, 7, 1⟩

/-- HIF_PORT_STATUS: spec/19_host_interface.md, R453. -/
def HIF_PORT_STATUS.off (p : Nat) : Nat := 0x3600010 + 0x8 * p
def HIF_PORT_STATUS.link_up (p : Nat) : RF := ⟨HIF_PORT_STATUS.off p, 0, 1⟩
def HIF_PORT_STATUS.width (p : Nat) : RF := ⟨HIF_PORT_STATUS.off p, 1, 2⟩
def HIF_PORT_STATUS.rate (p : Nat) : RF := ⟨HIF_PORT_STATUS.off p, 3, 3⟩
def HIF_PORT_STATUS.flit (p : Nat) : RF := ⟨HIF_PORT_STATUS.off p, 6, 1⟩
def HIF_PORT_STATUS.host_losses (p : Nat) : RF := ⟨HIF_PORT_STATUS.off p, 7, 16⟩
def HIF_PORT_STATUS.db_drop (p : Nat) : RF := ⟨HIF_PORT_STATUS.off p, 23, 16⟩
def HIF_PORT_STATUS.cpl_dropped (p : Nat) : RF := ⟨HIF_PORT_STATUS.off p, 39, 16⟩

/-- HIF_BAY_FUNC: spec/19_host_interface.md, R453. -/
def HIF_BAY_FUNC.off (b : Nat) : Nat := 0x3600100 + 0x20 * b
def HIF_BAY_FUNC.ports (b : Nat) : RF := ⟨HIF_BAY_FUNC.off b, 0, 2⟩
def HIF_BAY_FUNC.vf_a (b : Nat) : RF := ⟨HIF_BAY_FUNC.off b, 2, 31⟩
def HIF_BAY_FUNC.vf_b (b : Nat) : RF := ⟨HIF_BAY_FUNC.off b, 33, 31⟩

/-- HIF_BAY_APER: spec/19_host_interface.md, R453. -/
def HIF_BAY_APER.off (b p : Nat) : Nat := 0x3600108 + 0x20 * b + 0x8 * p
def HIF_BAY_APER.valid (b p : Nat) : RF := ⟨HIF_BAY_APER.off b p, 0, 1⟩
def HIF_BAY_APER.func (b p : Nat) : RF := ⟨HIF_BAY_APER.off b p, 1, 5⟩
def HIF_BAY_APER.base_2m (b p : Nat) : RF := ⟨HIF_BAY_APER.off b p, 6, 28⟩
def HIF_BAY_APER.len_2m (b p : Nat) : RF := ⟨HIF_BAY_APER.off b p, 34, 19⟩

/-- HIF_BAY_CTL: spec/19_host_interface.md, R453. -/
def HIF_BAY_CTL.off (b : Nat) : Nat := 0x3600118 + 0x20 * b
def HIF_BAY_CTL.thaw (b : Nat) : RF := ⟨HIF_BAY_CTL.off b, 0, 1⟩
def HIF_BAY_CTL.frozen_by (b : Nat) : RF := ⟨HIF_BAY_CTL.off b, 1, 2⟩

/-- HIF_ADM_CFG: spec/19_host_interface.md, R453. -/
def HIF_ADM_CFG.off (p : Nat) : Nat := 0x3610000 + 0x40 * p
def HIF_ADM_CFG.en (p : Nat) : RF := ⟨HIF_ADM_CFG.off p, 0, 1⟩
def HIF_ADM_CFG.sq_log2 (p : Nat) : RF := ⟨HIF_ADM_CFG.off p, 1, 4⟩
def HIF_ADM_CFG.cq_log2 (p : Nat) : RF := ⟨HIF_ADM_CFG.off p, 5, 4⟩
def HIF_ADM_CFG.msix (p : Nat) : RF := ⟨HIF_ADM_CFG.off p, 9, 7⟩
def HIF_ADM_CFG.coal_count (p : Nat) : RF := ⟨HIF_ADM_CFG.off p, 16, 8⟩
def HIF_ADM_CFG.coal_us (p : Nat) : RF := ⟨HIF_ADM_CFG.off p, 24, 10⟩

/-- HIF_RING_CFG: spec/19_host_interface.md, R453. -/
def HIF_RING_CFG.off (r : Nat) : Nat := 0x3620000 + 0x40 * r
def HIF_RING_CFG.en (r : Nat) : RF := ⟨HIF_RING_CFG.off r, 0, 1⟩
def HIF_RING_CFG.sq_log2 (r : Nat) : RF := ⟨HIF_RING_CFG.off r, 1, 4⟩
def HIF_RING_CFG.cq_log2 (r : Nat) : RF := ⟨HIF_RING_CFG.off r, 5, 4⟩
def HIF_RING_CFG.msix (r : Nat) : RF := ⟨HIF_RING_CFG.off r, 9, 7⟩
def HIF_RING_CFG.coal_count (r : Nat) : RF := ⟨HIF_RING_CFG.off r, 16, 8⟩
def HIF_RING_CFG.coal_us (r : Nat) : RF := ⟨HIF_RING_CFG.off r, 24, 10⟩

/-- HIF_ADM_SQ: spec/19_host_interface.md, R453. -/
def HIF_ADM_SQ.off (p : Nat) : Nat := 0x3610008 + 0x40 * p
def HIF_ADM_SQ.sq_base (p : Nat) : RF := ⟨HIF_ADM_SQ.off p, 6, 58⟩

/-- HIF_RING_SQ: spec/19_host_interface.md, R453. -/
def HIF_RING_SQ.off (r : Nat) : Nat := 0x3620008 + 0x40 * r
def HIF_RING_SQ.sq_base (r : Nat) : RF := ⟨HIF_RING_SQ.off r, 6, 58⟩

/-- HIF_ADM_CQ: spec/19_host_interface.md, R453. -/
def HIF_ADM_CQ.off (p : Nat) : Nat := 0x3610010 + 0x40 * p
def HIF_ADM_CQ.cq_base (p : Nat) : RF := ⟨HIF_ADM_CQ.off p, 6, 58⟩

/-- HIF_RING_CQ: spec/19_host_interface.md, R453. -/
def HIF_RING_CQ.off (r : Nat) : Nat := 0x3620010 + 0x40 * r
def HIF_RING_CQ.cq_base (r : Nat) : RF := ⟨HIF_RING_CQ.off r, 6, 58⟩

/-- HIF_ADM_STATUS: spec/19_host_interface.md, R453. -/
def HIF_ADM_STATUS.off (p : Nat) : Nat := 0x3610018 + 0x40 * p
def HIF_ADM_STATUS.state (p : Nat) : RF := ⟨HIF_ADM_STATUS.off p, 0, 2⟩
def HIF_ADM_STATUS.sq_head (p : Nat) : RF := ⟨HIF_ADM_STATUS.off p, 2, 12⟩
def HIF_ADM_STATUS.cq_tail (p : Nat) : RF := ⟨HIF_ADM_STATUS.off p, 14, 12⟩
def HIF_ADM_STATUS.phase (p : Nat) : RF := ⟨HIF_ADM_STATUS.off p, 26, 1⟩
def HIF_ADM_STATUS.in_flight (p : Nat) : RF := ⟨HIF_ADM_STATUS.off p, 27, 7⟩
def HIF_ADM_STATUS.cq_full (p : Nat) : RF := ⟨HIF_ADM_STATUS.off p, 34, 1⟩
def HIF_ADM_STATUS.fetch_err (p : Nat) : RF := ⟨HIF_ADM_STATUS.off p, 35, 1⟩
def HIF_ADM_STATUS.cq_err (p : Nat) : RF := ⟨HIF_ADM_STATUS.off p, 36, 1⟩
def HIF_ADM_STATUS.cfg_refused (p : Nat) : RF := ⟨HIF_ADM_STATUS.off p, 37, 1⟩

/-- HIF_RING_STATUS: spec/19_host_interface.md, R453. -/
def HIF_RING_STATUS.off (r : Nat) : Nat := 0x3620018 + 0x40 * r
def HIF_RING_STATUS.state (r : Nat) : RF := ⟨HIF_RING_STATUS.off r, 0, 2⟩
def HIF_RING_STATUS.sq_head (r : Nat) : RF := ⟨HIF_RING_STATUS.off r, 2, 12⟩
def HIF_RING_STATUS.cq_tail (r : Nat) : RF := ⟨HIF_RING_STATUS.off r, 14, 12⟩
def HIF_RING_STATUS.phase (r : Nat) : RF := ⟨HIF_RING_STATUS.off r, 26, 1⟩
def HIF_RING_STATUS.in_flight (r : Nat) : RF := ⟨HIF_RING_STATUS.off r, 27, 7⟩
def HIF_RING_STATUS.cq_full (r : Nat) : RF := ⟨HIF_RING_STATUS.off r, 34, 1⟩
def HIF_RING_STATUS.fetch_err (r : Nat) : RF := ⟨HIF_RING_STATUS.off r, 35, 1⟩
def HIF_RING_STATUS.cq_err (r : Nat) : RF := ⟨HIF_RING_STATUS.off r, 36, 1⟩
def HIF_RING_STATUS.cfg_refused (r : Nat) : RF := ⟨HIF_RING_STATUS.off r, 37, 1⟩

/-- HIF_RING_OWN: spec/19_host_interface.md, R453. -/
def HIF_RING_OWN.off (r : Nat) : Nat := 0x3620020 + 0x40 * r
def HIF_RING_OWN.port (r : Nat) : RF := ⟨HIF_RING_OWN.off r, 0, 1⟩
def HIF_RING_OWN.func (r : Nat) : RF := ⟨HIF_RING_OWN.off r, 1, 5⟩

/-- MGT_CFG: spec/20_management_port.md, R469. -/
def MGT_CFG.off : Nat := 0x3400000
def MGT_CFG.mac_en : RF := ⟨MGT_CFG.off, 0, 1⟩
def MGT_CFG.plca_en : RF := ⟨MGT_CFG.off, 1, 1⟩
def MGT_CFG.auth : RF := ⟨MGT_CFG.off, 2, 1⟩
def MGT_CFG.mgmt_etype : RF := ⟨MGT_CFG.off, 3, 16⟩
def MGT_CFG.hor_etype : RF := ⟨MGT_CFG.off, 19, 16⟩

/-- MGT_STATUS: spec/20_management_port.md, R469. -/
def MGT_STATUS.off : Nat := 0x3400008
def MGT_STATUS.state : RF := ⟨MGT_STATUS.off, 0, 2⟩
def MGT_STATUS.beacon_seen : RF := ⟨MGT_STATUS.off, 2, 1⟩
def MGT_STATUS.plca_coord : RF := ⟨MGT_STATUS.off, 3, 1⟩
def MGT_STATUS.txq_pending : RF := ⟨MGT_STATUS.off, 4, 4⟩

/-- MGT_PLCA: spec/20_management_port.md, R469. -/
def MGT_PLCA.off : Nat := 0x3400010
def MGT_PLCA.node_id : RF := ⟨MGT_PLCA.off, 0, 8⟩
def MGT_PLCA.node_count : RF := ⟨MGT_PLCA.off, 8, 8⟩
def MGT_PLCA.to_timer : RF := ⟨MGT_PLCA.off, 16, 8⟩
def MGT_PLCA.burst_count : RF := ⟨MGT_PLCA.off, 24, 8⟩
def MGT_PLCA.burst_timer : RF := ⟨MGT_PLCA.off, 32, 8⟩

/-- MGT_RXSTEER: spec/20_management_port.md, R469. -/
def MGT_RXSTEER.off : Nat := 0x3400040
def MGT_RXSTEER.pcp_map : RF := ⟨MGT_RXSTEER.off, 0, 16⟩
def MGT_RXSTEER.default_pcp : RF := ⟨MGT_RXSTEER.off, 16, 3⟩
def MGT_RXSTEER.bcast_en : RF := ⟨MGT_RXSTEER.off, 19, 1⟩

/-- MGT_ETYPE: spec/20_management_port.md, R469. -/
def MGT_ETYPE.off (j : Nat) : Nat := 0x3400048 + 0x8 * j
def MGT_ETYPE.ethertype (j : Nat) : RF := ⟨MGT_ETYPE.off j, 0, 16⟩
def MGT_ETYPE.queue (j : Nat) : RF := ⟨MGT_ETYPE.off j, 16, 2⟩
def MGT_ETYPE.valid (j : Nat) : RF := ⟨MGT_ETYPE.off j, 18, 1⟩

/-- MGT_TXQ: spec/20_management_port.md, R469. -/
def MGT_TXQ.off (q : Nat) : Nat := 0x3400080 + 0x8 * q
def MGT_TXQ.pcp (q : Nat) : RF := ⟨MGT_TXQ.off q, 0, 3⟩
def MGT_TXQ.vid (q : Nat) : RF := ⟨MGT_TXQ.off q, 3, 12⟩
def MGT_TXQ.tag_en (q : Nat) : RF := ⟨MGT_TXQ.off q, 15, 1⟩

/-- MGT_PEER: spec/20_management_port.md, R469. -/
def MGT_PEER.off (i : Nat) : Nat := 0x34000c0 + 0x8 * i
def MGT_PEER.mac (i : Nat) : RF := ⟨MGT_PEER.off i, 0, 48⟩
def MGT_PEER.valid (i : Nat) : RF := ⟨MGT_PEER.off i, 48, 1⟩

/-- MGT_ADDR: spec/20_management_port.md, R469. -/
def MGT_ADDR.off (i : Nat) : Nat := 0x3400100 + 0x8 * i
def MGT_ADDR.mac (i : Nat) : RF := ⟨MGT_ADDR.off i, 0, 48⟩
def MGT_ADDR.valid (i : Nat) : RF := ⟨MGT_ADDR.off i, 48, 1⟩

/-- MGT_TXCNT: spec/20_management_port.md, R469. -/
def MGT_TXCNT.off : Nat := 0x3400200
def MGT_TXCNT.frames_tx : RF := ⟨MGT_TXCNT.off, 0, 32⟩
def MGT_TXCNT.collisions : RF := ⟨MGT_TXCNT.off, 32, 16⟩
def MGT_TXCNT.excess_col : RF := ⟨MGT_TXCNT.off, 48, 8⟩
def MGT_TXCNT.late_col : RF := ⟨MGT_TXCNT.off, 56, 8⟩

/-- MGT_RXCNT: spec/20_management_port.md, R469. -/
def MGT_RXCNT.off : Nat := 0x3400208
def MGT_RXCNT.frames_rx : RF := ⟨MGT_RXCNT.off, 0, 32⟩
def MGT_RXCNT.bad_frame : RF := ⟨MGT_RXCNT.off, 32, 16⟩
def MGT_RXCNT.foreign : RF := ⟨MGT_RXCNT.off, 48, 16⟩

/-- MGT_RXDROP: spec/20_management_port.md, R469. -/
def MGT_RXDROP.off : Nat := 0x3400210
def MGT_RXDROP.full_q : RF := ⟨MGT_RXDROP.off, 0, 64⟩

/-- MGT_MSGCNT: spec/20_management_port.md, R469. -/
def MGT_MSGCNT.off : Nat := 0x3400218
def MGT_MSGCNT.refused : RF := ⟨MGT_MSGCNT.off, 0, 16⟩
def MGT_MSGCNT.dup : RF := ⟨MGT_MSGCNT.off, 16, 16⟩
def MGT_MSGCNT.plca_col : RF := ⟨MGT_MSGCNT.off, 32, 16⟩
def MGT_MSGCNT.ctl_drop : RF := ⟨MGT_MSGCNT.off, 48, 16⟩

/-- MGT_EVENT: spec/20_management_port.md, R469. -/
def MGT_EVENT.off : Nat := 0x3400220
def MGT_EVENT.excess_col : RF := ⟨MGT_EVENT.off, 0, 1⟩
def MGT_EVENT.late_col : RF := ⟨MGT_EVENT.off, 1, 1⟩
def MGT_EVENT.rxq_full : RF := ⟨MGT_EVENT.off, 2, 1⟩
def MGT_EVENT.refused : RF := ⟨MGT_EVENT.off, 3, 1⟩
def MGT_EVENT.plca_col : RF := ⟨MGT_EVENT.off, 4, 1⟩
def MGT_EVENT.beacon_lost : RF := ⟨MGT_EVENT.off, 5, 1⟩

/-- MGT_STAGE: spec/20_management_port.md, R469. -/
def MGT_STAGE.off : Nat := 0x3400228
def MGT_STAGE.stage_base : RF := ⟨MGT_STAGE.off, 0, 40⟩

/-- GLB_RESET: spec/21_startup.md, R499. -/
def GLB_RESET.off : Nat := 0x20
def GLB_RESET.key : RF := ⟨GLB_RESET.off, 0, 16⟩
def GLB_RESET.warm : RF := ⟨GLB_RESET.off, 16, 1⟩

/-- GLB_BOOTINFO: spec/21_startup.md, R499. -/
def GLB_BOOTINFO.off : Nat := 0x28
def GLB_BOOTINFO.boot_mode : RF := ⟨GLB_BOOTINFO.off, 0, 2⟩
def GLB_BOOTINFO.alt_slot : RF := ⟨GLB_BOOTINFO.off, 2, 1⟩
def GLB_BOOTINFO.field_default : RF := ⟨GLB_BOOTINFO.off, 3, 1⟩
def GLB_BOOTINFO.last_reset : RF := ⟨GLB_BOOTINFO.off, 4, 2⟩
def GLB_BOOTINFO.warm_count : RF := ⟨GLB_BOOTINFO.off, 6, 16⟩
def GLB_BOOTINFO.fail_step : RF := ⟨GLB_BOOTINFO.off, 22, 4⟩
def GLB_BOOTINFO.early_full : RF := ⟨GLB_BOOTINFO.off, 26, 1⟩

/-- GLB_BOOT_TIME: spec/21_startup.md, R499. -/
def GLB_BOOT_TIME.off (n : Nat) : Nat := 0x108 + 0x8 * (n - 1)
def GLB_BOOT_TIME.end_us (n : Nat) : RF := ⟨GLB_BOOT_TIME.off n, 0, 32⟩

/-- GLB_RAIL: spec/22_electrical_and_package.md, R498. -/
def GLB_RAIL.off : Nat := 0x30
def GLB_RAIL.uv : RF := ⟨GLB_RAIL.off, 0, 23⟩
def GLB_RAIL.uv_count : RF := ⟨GLB_RAIL.off, 32, 16⟩

/-- GLB_STRAPS: spec/22_electrical_and_package.md, R498. -/
def GLB_STRAPS.off : Nat := 0x38
def GLB_STRAPS.feed_id : RF := ⟨GLB_STRAPS.off, 0, 4⟩
def GLB_STRAPS.slot_id : RF := ⟨GLB_STRAPS.off, 4, 6⟩

/-- TCK_JOINT_COMMIT: spec/08_bents_bays_and_joints.md, R192. -/
def TCK_JOINT_COMMIT.off : Nat := 0x3800100
def TCK_JOINT_COMMIT.joint : RF := ⟨TCK_JOINT_COMMIT.off, 0, 8⟩
def TCK_JOINT_COMMIT.op : RF := ⟨TCK_JOINT_COMMIT.off, 8, 2⟩
def TCK_JOINT_COMMIT.token : RF := ⟨TCK_JOINT_COMMIT.off, 16, 16⟩

/-- TCK_JOINT_STATUS: spec/08_bents_bays_and_joints.md, R192. -/
def TCK_JOINT_STATUS.off : Nat := 0x3800108
def TCK_JOINT_STATUS.last_joint : RF := ⟨TCK_JOINT_STATUS.off, 0, 8⟩
def TCK_JOINT_STATUS.last_result : RF := ⟨TCK_JOINT_STATUS.off, 8, 2⟩
def TCK_JOINT_STATUS.last_reason : RF := ⟨TCK_JOINT_STATUS.off, 10, 4⟩
def TCK_JOINT_STATUS.last_token : RF := ⟨TCK_JOINT_STATUS.off, 16, 16⟩
def TCK_JOINT_STATUS.armed : RF := ⟨TCK_JOINT_STATUS.off, 32, 1⟩
def TCK_JOINT_STATUS.pending : RF := ⟨TCK_JOINT_STATUS.off, 33, 1⟩
def TCK_JOINT_STATUS.write_refused : RF := ⟨TCK_JOINT_STATUS.off, 34, 1⟩
def TCK_JOINT_STATUS.static_write_err : RF := ⟨TCK_JOINT_STATUS.off, 35, 1⟩

/-- TCK_JOINT_ARMED: spec/08_bents_bays_and_joints.md, R192. -/
def TCK_JOINT_ARMED.off (q : Nat) : Nat := 0x3800110 + 0x8 * q
def TCK_JOINT_ARMED.armed (q : Nat) : RF := ⟨TCK_JOINT_ARMED.off q, 0, 64⟩

/-- SCH_JOINT_COMMIT: spec/08_bents_bays_and_joints.md, R192. -/
def SCH_JOINT_COMMIT.off : Nat := 0x3ff000
def SCH_JOINT_COMMIT.joint : RF := ⟨SCH_JOINT_COMMIT.off, 0, 8⟩
def SCH_JOINT_COMMIT.op : RF := ⟨SCH_JOINT_COMMIT.off, 8, 2⟩
def SCH_JOINT_COMMIT.token : RF := ⟨SCH_JOINT_COMMIT.off, 16, 16⟩

/-- SCH_JOINT_STATUS: spec/08_bents_bays_and_joints.md, R192. -/
def SCH_JOINT_STATUS.off : Nat := 0x3ff008
def SCH_JOINT_STATUS.last_joint : RF := ⟨SCH_JOINT_STATUS.off, 0, 8⟩
def SCH_JOINT_STATUS.last_result : RF := ⟨SCH_JOINT_STATUS.off, 8, 2⟩
def SCH_JOINT_STATUS.last_reason : RF := ⟨SCH_JOINT_STATUS.off, 10, 4⟩
def SCH_JOINT_STATUS.last_token : RF := ⟨SCH_JOINT_STATUS.off, 16, 16⟩
def SCH_JOINT_STATUS.armed : RF := ⟨SCH_JOINT_STATUS.off, 32, 1⟩
def SCH_JOINT_STATUS.pending : RF := ⟨SCH_JOINT_STATUS.off, 33, 1⟩
def SCH_JOINT_STATUS.write_refused : RF := ⟨SCH_JOINT_STATUS.off, 34, 1⟩
def SCH_JOINT_STATUS.static_write_err : RF := ⟨SCH_JOINT_STATUS.off, 35, 1⟩

/-- SCH_JOINT_ARMED: spec/08_bents_bays_and_joints.md, R192. -/
def SCH_JOINT_ARMED.off (q : Nat) : Nat := 0x3ff010 + 0x8 * q
def SCH_JOINT_ARMED.armed (q : Nat) : RF := ⟨SCH_JOINT_ARMED.off q, 0, 64⟩

/-- AG_JOINT_COMMIT: spec/08_bents_bays_and_joints.md, R192. -/
def AG_JOINT_COMMIT.off (n : Nat) : Nat := 0x8ff000 + 0x100000 * n
def AG_JOINT_COMMIT.joint (n : Nat) : RF := ⟨AG_JOINT_COMMIT.off n, 0, 8⟩
def AG_JOINT_COMMIT.op (n : Nat) : RF := ⟨AG_JOINT_COMMIT.off n, 8, 2⟩
def AG_JOINT_COMMIT.token (n : Nat) : RF := ⟨AG_JOINT_COMMIT.off n, 16, 16⟩

/-- AG_JOINT_STATUS: spec/08_bents_bays_and_joints.md, R192. -/
def AG_JOINT_STATUS.off (n : Nat) : Nat := 0x8ff008 + 0x100000 * n
def AG_JOINT_STATUS.last_joint (n : Nat) : RF := ⟨AG_JOINT_STATUS.off n, 0, 8⟩
def AG_JOINT_STATUS.last_result (n : Nat) : RF := ⟨AG_JOINT_STATUS.off n, 8, 2⟩
def AG_JOINT_STATUS.last_reason (n : Nat) : RF := ⟨AG_JOINT_STATUS.off n, 10, 4⟩
def AG_JOINT_STATUS.last_token (n : Nat) : RF := ⟨AG_JOINT_STATUS.off n, 16, 16⟩
def AG_JOINT_STATUS.armed (n : Nat) : RF := ⟨AG_JOINT_STATUS.off n, 32, 1⟩
def AG_JOINT_STATUS.pending (n : Nat) : RF := ⟨AG_JOINT_STATUS.off n, 33, 1⟩
def AG_JOINT_STATUS.write_refused (n : Nat) : RF := ⟨AG_JOINT_STATUS.off n, 34, 1⟩
def AG_JOINT_STATUS.static_write_err (n : Nat) : RF := ⟨AG_JOINT_STATUS.off n, 35, 1⟩

/-- AG_JOINT_ARMED: spec/08_bents_bays_and_joints.md, R192. -/
def AG_JOINT_ARMED.off (n q : Nat) : Nat := 0x8ff010 + 0x100000 * n + 0x8 * q
def AG_JOINT_ARMED.armed (n q : Nat) : RF := ⟨AG_JOINT_ARMED.off n q, 0, 64⟩

/-- MEM_JOINT_COMMIT: spec/08_bents_bays_and_joints.md, R192. -/
def MEM_JOINT_COMMIT.off : Nat := 0x1fff000
def MEM_JOINT_COMMIT.joint : RF := ⟨MEM_JOINT_COMMIT.off, 0, 8⟩
def MEM_JOINT_COMMIT.op : RF := ⟨MEM_JOINT_COMMIT.off, 8, 2⟩
def MEM_JOINT_COMMIT.token : RF := ⟨MEM_JOINT_COMMIT.off, 16, 16⟩

/-- MEM_JOINT_STATUS: spec/08_bents_bays_and_joints.md, R192. -/
def MEM_JOINT_STATUS.off : Nat := 0x1fff008
def MEM_JOINT_STATUS.last_joint : RF := ⟨MEM_JOINT_STATUS.off, 0, 8⟩
def MEM_JOINT_STATUS.last_result : RF := ⟨MEM_JOINT_STATUS.off, 8, 2⟩
def MEM_JOINT_STATUS.last_reason : RF := ⟨MEM_JOINT_STATUS.off, 10, 4⟩
def MEM_JOINT_STATUS.last_token : RF := ⟨MEM_JOINT_STATUS.off, 16, 16⟩
def MEM_JOINT_STATUS.armed : RF := ⟨MEM_JOINT_STATUS.off, 32, 1⟩
def MEM_JOINT_STATUS.pending : RF := ⟨MEM_JOINT_STATUS.off, 33, 1⟩
def MEM_JOINT_STATUS.write_refused : RF := ⟨MEM_JOINT_STATUS.off, 34, 1⟩
def MEM_JOINT_STATUS.static_write_err : RF := ⟨MEM_JOINT_STATUS.off, 35, 1⟩

/-- MEM_JOINT_ARMED: spec/08_bents_bays_and_joints.md, R192. -/
def MEM_JOINT_ARMED.off (q : Nat) : Nat := 0x1fff010 + 0x8 * q
def MEM_JOINT_ARMED.armed (q : Nat) : RF := ⟨MEM_JOINT_ARMED.off q, 0, 64⟩

/-- FAB_JOINT_COMMIT: spec/08_bents_bays_and_joints.md, R192. -/
def FAB_JOINT_COMMIT.off : Nat := 0x2fff000
def FAB_JOINT_COMMIT.joint : RF := ⟨FAB_JOINT_COMMIT.off, 0, 8⟩
def FAB_JOINT_COMMIT.op : RF := ⟨FAB_JOINT_COMMIT.off, 8, 2⟩
def FAB_JOINT_COMMIT.token : RF := ⟨FAB_JOINT_COMMIT.off, 16, 16⟩

/-- FAB_JOINT_STATUS: spec/08_bents_bays_and_joints.md, R192. -/
def FAB_JOINT_STATUS.off : Nat := 0x2fff008
def FAB_JOINT_STATUS.last_joint : RF := ⟨FAB_JOINT_STATUS.off, 0, 8⟩
def FAB_JOINT_STATUS.last_result : RF := ⟨FAB_JOINT_STATUS.off, 8, 2⟩
def FAB_JOINT_STATUS.last_reason : RF := ⟨FAB_JOINT_STATUS.off, 10, 4⟩
def FAB_JOINT_STATUS.last_token : RF := ⟨FAB_JOINT_STATUS.off, 16, 16⟩
def FAB_JOINT_STATUS.armed : RF := ⟨FAB_JOINT_STATUS.off, 32, 1⟩
def FAB_JOINT_STATUS.pending : RF := ⟨FAB_JOINT_STATUS.off, 33, 1⟩
def FAB_JOINT_STATUS.write_refused : RF := ⟨FAB_JOINT_STATUS.off, 34, 1⟩
def FAB_JOINT_STATUS.static_write_err : RF := ⟨FAB_JOINT_STATUS.off, 35, 1⟩

/-- FAB_JOINT_ARMED: spec/08_bents_bays_and_joints.md, R192. -/
def FAB_JOINT_ARMED.off (q : Nat) : Nat := 0x2fff010 + 0x8 * q
def FAB_JOINT_ARMED.armed (q : Nat) : RF := ⟨FAB_JOINT_ARMED.off q, 0, 64⟩

/-- COL_JOINT_COMMIT: spec/08_bents_bays_and_joints.md, R192. -/
def COL_JOINT_COMMIT.off : Nat := 0x33ff000
def COL_JOINT_COMMIT.joint : RF := ⟨COL_JOINT_COMMIT.off, 0, 8⟩
def COL_JOINT_COMMIT.op : RF := ⟨COL_JOINT_COMMIT.off, 8, 2⟩
def COL_JOINT_COMMIT.token : RF := ⟨COL_JOINT_COMMIT.off, 16, 16⟩

/-- COL_JOINT_STATUS: spec/08_bents_bays_and_joints.md, R192. -/
def COL_JOINT_STATUS.off : Nat := 0x33ff008
def COL_JOINT_STATUS.last_joint : RF := ⟨COL_JOINT_STATUS.off, 0, 8⟩
def COL_JOINT_STATUS.last_result : RF := ⟨COL_JOINT_STATUS.off, 8, 2⟩
def COL_JOINT_STATUS.last_reason : RF := ⟨COL_JOINT_STATUS.off, 10, 4⟩
def COL_JOINT_STATUS.last_token : RF := ⟨COL_JOINT_STATUS.off, 16, 16⟩
def COL_JOINT_STATUS.armed : RF := ⟨COL_JOINT_STATUS.off, 32, 1⟩
def COL_JOINT_STATUS.pending : RF := ⟨COL_JOINT_STATUS.off, 33, 1⟩
def COL_JOINT_STATUS.write_refused : RF := ⟨COL_JOINT_STATUS.off, 34, 1⟩
def COL_JOINT_STATUS.static_write_err : RF := ⟨COL_JOINT_STATUS.off, 35, 1⟩

/-- COL_JOINT_ARMED: spec/08_bents_bays_and_joints.md, R192. -/
def COL_JOINT_ARMED.off (q : Nat) : Nat := 0x33ff010 + 0x8 * q
def COL_JOINT_ARMED.armed (q : Nat) : RF := ⟨COL_JOINT_ARMED.off q, 0, 64⟩

/-- FLT_JOINT_COMMIT: spec/08_bents_bays_and_joints.md, R192. -/
def FLT_JOINT_COMMIT.off : Nat := 0x3fff000
def FLT_JOINT_COMMIT.joint : RF := ⟨FLT_JOINT_COMMIT.off, 0, 8⟩
def FLT_JOINT_COMMIT.op : RF := ⟨FLT_JOINT_COMMIT.off, 8, 2⟩
def FLT_JOINT_COMMIT.token : RF := ⟨FLT_JOINT_COMMIT.off, 16, 16⟩

/-- FLT_JOINT_STATUS: spec/08_bents_bays_and_joints.md, R192. -/
def FLT_JOINT_STATUS.off : Nat := 0x3fff008
def FLT_JOINT_STATUS.last_joint : RF := ⟨FLT_JOINT_STATUS.off, 0, 8⟩
def FLT_JOINT_STATUS.last_result : RF := ⟨FLT_JOINT_STATUS.off, 8, 2⟩
def FLT_JOINT_STATUS.last_reason : RF := ⟨FLT_JOINT_STATUS.off, 10, 4⟩
def FLT_JOINT_STATUS.last_token : RF := ⟨FLT_JOINT_STATUS.off, 16, 16⟩
def FLT_JOINT_STATUS.armed : RF := ⟨FLT_JOINT_STATUS.off, 32, 1⟩
def FLT_JOINT_STATUS.pending : RF := ⟨FLT_JOINT_STATUS.off, 33, 1⟩
def FLT_JOINT_STATUS.write_refused : RF := ⟨FLT_JOINT_STATUS.off, 34, 1⟩
def FLT_JOINT_STATUS.static_write_err : RF := ⟨FLT_JOINT_STATUS.off, 35, 1⟩

/-- FLT_JOINT_ARMED: spec/08_bents_bays_and_joints.md, R192. -/
def FLT_JOINT_ARMED.off (q : Nat) : Nat := 0x3fff010 + 0x8 * q
def FLT_JOINT_ARMED.armed (q : Nat) : RF := ⟨FLT_JOINT_ARMED.off q, 0, 64⟩

/-- HIF_JOINT_COMMIT: spec/08_bents_bays_and_joints.md, R192. -/
def HIF_JOINT_COMMIT.off : Nat := 0x37ff000
def HIF_JOINT_COMMIT.joint : RF := ⟨HIF_JOINT_COMMIT.off, 0, 8⟩
def HIF_JOINT_COMMIT.op : RF := ⟨HIF_JOINT_COMMIT.off, 8, 2⟩
def HIF_JOINT_COMMIT.token : RF := ⟨HIF_JOINT_COMMIT.off, 16, 16⟩

/-- HIF_JOINT_STATUS: spec/08_bents_bays_and_joints.md, R192. -/
def HIF_JOINT_STATUS.off : Nat := 0x37ff008
def HIF_JOINT_STATUS.last_joint : RF := ⟨HIF_JOINT_STATUS.off, 0, 8⟩
def HIF_JOINT_STATUS.last_result : RF := ⟨HIF_JOINT_STATUS.off, 8, 2⟩
def HIF_JOINT_STATUS.last_reason : RF := ⟨HIF_JOINT_STATUS.off, 10, 4⟩
def HIF_JOINT_STATUS.last_token : RF := ⟨HIF_JOINT_STATUS.off, 16, 16⟩
def HIF_JOINT_STATUS.armed : RF := ⟨HIF_JOINT_STATUS.off, 32, 1⟩
def HIF_JOINT_STATUS.pending : RF := ⟨HIF_JOINT_STATUS.off, 33, 1⟩
def HIF_JOINT_STATUS.write_refused : RF := ⟨HIF_JOINT_STATUS.off, 34, 1⟩
def HIF_JOINT_STATUS.static_write_err : RF := ⟨HIF_JOINT_STATUS.off, 35, 1⟩

/-- HIF_JOINT_ARMED: spec/08_bents_bays_and_joints.md, R192. -/
def HIF_JOINT_ARMED.off (q : Nat) : Nat := 0x37ff010 + 0x8 * q
def HIF_JOINT_ARMED.armed (q : Nat) : RF := ⟨HIF_JOINT_ARMED.off q, 0, 64⟩

/-- MGT_JOINT_COMMIT: spec/08_bents_bays_and_joints.md, R192. -/
def MGT_JOINT_COMMIT.off : Nat := 0x35ff000
def MGT_JOINT_COMMIT.joint : RF := ⟨MGT_JOINT_COMMIT.off, 0, 8⟩
def MGT_JOINT_COMMIT.op : RF := ⟨MGT_JOINT_COMMIT.off, 8, 2⟩
def MGT_JOINT_COMMIT.token : RF := ⟨MGT_JOINT_COMMIT.off, 16, 16⟩

/-- MGT_JOINT_STATUS: spec/08_bents_bays_and_joints.md, R192. -/
def MGT_JOINT_STATUS.off : Nat := 0x35ff008
def MGT_JOINT_STATUS.last_joint : RF := ⟨MGT_JOINT_STATUS.off, 0, 8⟩
def MGT_JOINT_STATUS.last_result : RF := ⟨MGT_JOINT_STATUS.off, 8, 2⟩
def MGT_JOINT_STATUS.last_reason : RF := ⟨MGT_JOINT_STATUS.off, 10, 4⟩
def MGT_JOINT_STATUS.last_token : RF := ⟨MGT_JOINT_STATUS.off, 16, 16⟩
def MGT_JOINT_STATUS.armed : RF := ⟨MGT_JOINT_STATUS.off, 32, 1⟩
def MGT_JOINT_STATUS.pending : RF := ⟨MGT_JOINT_STATUS.off, 33, 1⟩
def MGT_JOINT_STATUS.write_refused : RF := ⟨MGT_JOINT_STATUS.off, 34, 1⟩
def MGT_JOINT_STATUS.static_write_err : RF := ⟨MGT_JOINT_STATUS.off, 35, 1⟩

/-- MGT_JOINT_ARMED: spec/08_bents_bays_and_joints.md, R192. -/
def MGT_JOINT_ARMED.off (q : Nat) : Nat := 0x35ff010 + 0x8 * q
def MGT_JOINT_ARMED.armed (q : Nat) : RF := ⟨MGT_JOINT_ARMED.off q, 0, 64⟩

/-- PWR_JOINT_COMMIT: spec/08_bents_bays_and_joints.md, R192. -/
def PWR_JOINT_COMMIT.off : Nat := 0x1ff000
def PWR_JOINT_COMMIT.joint : RF := ⟨PWR_JOINT_COMMIT.off, 0, 8⟩
def PWR_JOINT_COMMIT.op : RF := ⟨PWR_JOINT_COMMIT.off, 8, 2⟩
def PWR_JOINT_COMMIT.token : RF := ⟨PWR_JOINT_COMMIT.off, 16, 16⟩

/-- PWR_JOINT_STATUS: spec/08_bents_bays_and_joints.md, R192. -/
def PWR_JOINT_STATUS.off : Nat := 0x1ff008
def PWR_JOINT_STATUS.last_joint : RF := ⟨PWR_JOINT_STATUS.off, 0, 8⟩
def PWR_JOINT_STATUS.last_result : RF := ⟨PWR_JOINT_STATUS.off, 8, 2⟩
def PWR_JOINT_STATUS.last_reason : RF := ⟨PWR_JOINT_STATUS.off, 10, 4⟩
def PWR_JOINT_STATUS.last_token : RF := ⟨PWR_JOINT_STATUS.off, 16, 16⟩
def PWR_JOINT_STATUS.armed : RF := ⟨PWR_JOINT_STATUS.off, 32, 1⟩
def PWR_JOINT_STATUS.pending : RF := ⟨PWR_JOINT_STATUS.off, 33, 1⟩
def PWR_JOINT_STATUS.write_refused : RF := ⟨PWR_JOINT_STATUS.off, 34, 1⟩
def PWR_JOINT_STATUS.static_write_err : RF := ⟨PWR_JOINT_STATUS.off, 35, 1⟩

/-- PWR_JOINT_ARMED: spec/08_bents_bays_and_joints.md, R192. -/
def PWR_JOINT_ARMED.off (q : Nat) : Nat := 0x1ff010 + 0x8 * q
def PWR_JOINT_ARMED.armed (q : Nat) : RF := ⟨PWR_JOINT_ARMED.off q, 0, 64⟩

/-- The registers of block GLB. -/
def regTableGLB : List RegDef := [
  -- GLB_IDENT
  ⟨0x0, [], 0x0, [], [⟨0, 16, .ro, 0x7e9c, none⟩, ⟨16, 16, .ro, 0x96, none⟩, ⟨32, 8, .ro, 0x10, none⟩, ⟨40, 2, .ro, 0x3, none⟩]⟩,
  -- GLB_SERIAL
  ⟨0x8, [], 0x0, [], [⟨0, 64, .ro, 0x0, none⟩]⟩,
  -- GLB_STATUS
  ⟨0x10, [], 0x0, [], [⟨0, 4, .ro, 0x0, none⟩, ⟨4, 1, .ro, 0x0, none⟩, ⟨5, 1, .ro, 0x0, none⟩, ⟨6, 8, .ro, 0x0, none⟩, ⟨14, 1, .ro, 0x0, none⟩, ⟨15, 1, .ro, 0x0, none⟩, ⟨16, 1, .ro, 0x0, none⟩, ⟨17, 16, .ro, 0x0, none⟩, ⟨33, 8, .ro, 0x0, none⟩]⟩,
  -- GLB_BAD_ACCESS
  ⟨0x18, [], 0x0, [], [⟨0, 32, .rw, 0x0, none⟩, ⟨32, 26, .ro, 0x0, none⟩, ⟨58, 1, .ro, 0x0, none⟩, ⟨59, 2, .ro, 0x0, none⟩]⟩,
  -- GLB_FW_CORE
  ⟨0x1000, [(0x10, 19)], 0x0, [], [⟨0, 2, .ro, 0x0, none⟩, ⟨2, 1, .ro, 0x0, none⟩, ⟨3, 1, .ro, 0x0, none⟩, ⟨4, 4, .ro, 0x0, none⟩, ⟨8, 8, .ro, 0x0, none⟩, ⟨16, 16, .ro, 0x0, none⟩, ⟨32, 32, .ro, 0x0, none⟩]⟩,
  -- GLB_FW_CORET
  ⟨0x1008, [(0x10, 19)], 0x0, [], [⟨0, 16, .ro, 0x0, none⟩, ⟨16, 48, .ro, 0x0, none⟩]⟩,
  -- GLB_FW_SLOTS
  ⟨0x1200, [], 0x0, [], [⟨0, 1, .ro, 0x0, none⟩, ⟨1, 1, .ro, 0x0, none⟩, ⟨2, 1, .ro, 0x0, none⟩, ⟨3, 19, .ro, 0x0, none⟩]⟩,
  -- GLB_FW_LEVELS
  ⟨0x1208, [], 0x0, [], [⟨0, 32, .ro, 0x0, none⟩, ⟨32, 32, .ro, 0x0, none⟩]⟩,
  -- GLB_FW_STAGE0
  ⟨0x1210, [], 0x0, [], [⟨0, 40, .rw, 0x0, none⟩]⟩,
  -- GLB_FW_STAGE1
  ⟨0x1218, [], 0x0, [], [⟨0, 26, .rw, 0x0, none⟩]⟩,
  -- GLB_FW_CMD
  ⟨0x1220, [], 0x0, [], [⟨0, 4, .wo, 0x0, none⟩, ⟨4, 19, .wo, 0x0, none⟩]⟩,
  -- GLB_FW_CMDSTAT
  ⟨0x1228, [], 0x0, [], [⟨0, 4, .ro, 0x0, none⟩, ⟨4, 2, .ro, 0x0, none⟩, ⟨6, 4, .ro, 0x0, none⟩, ⟨10, 19, .ro, 0x0, none⟩, ⟨29, 3, .ro, 0x0, none⟩, ⟨32, 19, .ro, 0x0, none⟩]⟩,
  -- GLB_FW_EVENT
  ⟨0x1230, [], 0x0, [], [⟨0, 1, .w1c, 0x0, none⟩, ⟨1, 1, .w1c, 0x0, none⟩, ⟨2, 1, .w1c, 0x0, none⟩, ⟨3, 1, .w1c, 0x0, none⟩, ⟨4, 1, .w1c, 0x0, none⟩, ⟨5, 1, .w1c, 0x0, none⟩, ⟨6, 1, .w1c, 0x0, none⟩, ⟨7, 1, .w1c, 0x0, none⟩]⟩,
  -- GLB_RESET
  ⟨0x20, [], 0x0, [], [⟨0, 16, .wo, 0x0, none⟩, ⟨16, 1, .wo, 0x0, none⟩]⟩,
  -- GLB_BOOTINFO
  ⟨0x28, [], 0x0, [], [⟨0, 2, .ro, 0x0, none⟩, ⟨2, 1, .ro, 0x0, none⟩, ⟨3, 1, .ro, 0x0, none⟩, ⟨4, 2, .ro, 0x0, none⟩, ⟨6, 16, .ro, 0x0, none⟩, ⟨22, 4, .ro, 0x0, none⟩, ⟨26, 1, .ro, 0x0, none⟩]⟩,
  -- GLB_BOOT_TIME
  ⟨0x108, [(0x8, 12)], 0x0, [], [⟨0, 32, .ro, 0x0, none⟩]⟩,
  -- GLB_RAIL
  ⟨0x30, [], 0x0, [], [⟨0, 23, .w1c, 0x0, none⟩, ⟨32, 16, .ro, 0x0, none⟩]⟩,
  -- GLB_STRAPS
  ⟨0x38, [], 0x0, [], [⟨0, 4, .ro, 0x0, none⟩, ⟨4, 6, .ro, 0x0, none⟩]⟩]

/-- The registers of block PWR. -/
def regTablePWR : List RegDef := [
  -- PWR_STATUS
  ⟨0x100000, [], 0x0, [], [⟨0, 2, .ro, 0x0, none⟩, ⟨2, 2, .ro, 0x0, none⟩, ⟨4, 11, .ro, 0x0, none⟩, ⟨15, 11, .ro, 0x0, none⟩, ⟨26, 10, .ro, 0x0, none⟩]⟩,
  -- PWR_HWLIM
  ⟨0x100008, [], 0x0, [], [⟨0, 11, .ro, 0x0, none⟩, ⟨11, 20, .ro, 0x0, none⟩, ⟨31, 20, .ro, 0x0, none⟩, ⟨51, 11, .ro, 0x0, none⟩]⟩,
  -- PWR_ENV
  ⟨0x100010, [], 0x1, [], [⟨0, 11, .jw, 0x708, none⟩, ⟨11, 7, .jw, 0x64, none⟩]⟩,
  -- PWR_SLEW_UP
  ⟨0x100018, [], 0x1, [], [⟨0, 20, .jw, 0x4e20, none⟩]⟩,
  -- PWR_SLEW_DN
  ⟨0x100020, [], 0x1, [], [⟨0, 20, .jw, 0x4e20, none⟩]⟩,
  -- PWR_THAW_CFG
  ⟨0x100028, [], 0x2, [], [⟨0, 1, .jw, 0x0, none⟩, ⟨1, 12, .jw, 0x10, none⟩, ⟨13, 10, .jw, 0xa, none⟩, ⟨23, 16, .jw, 0x0, none⟩, ⟨39, 1, .jw, 0x0, none⟩, ⟨40, 8, .jw, 0x80, none⟩]⟩,
  -- PWR_SITE
  ⟨0x100030, [], 0x2, [], [⟨0, 32, .jw, 0x0, none⟩, ⟨32, 16, .jw, 0x0, none⟩, ⟨48, 16, .jw, 0x140, none⟩]⟩,
  -- PWR_TARGET
  ⟨0x100038, [], 0x0, [], [⟨0, 11, .rw, 0x0, none⟩]⟩,
  -- PWR_THAW_STAT
  ⟨0x100040, [], 0x0, [], [⟨0, 2, .ro, 0x0, none⟩, ⟨2, 1, .ro, 0x0, none⟩, ⟨3, 15, .ro, 0x0, none⟩, ⟨18, 6, .ro, 0x0, none⟩, ⟨24, 16, .ro, 0x0, none⟩, ⟨40, 16, .ro, 0x0, none⟩]⟩,
  -- PWR_THAW_COUNT
  ⟨0x100048, [], 0x0, [], [⟨0, 32, .ro, 0x0, none⟩, ⟨32, 16, .ro, 0x0, none⟩, ⟨48, 16, .ro, 0x0, none⟩]⟩,
  -- PWR_FROST
  ⟨0x100050, [], 0x0, [], [⟨0, 10, .ro, 0x0, none⟩, ⟨10, 32, .ro, 0x0, none⟩]⟩,
  -- PWR_CAPPED
  ⟨0x100058, [], 0x0, [], [⟨0, 16, .ro, 0x0, none⟩, ⟨16, 5, .ro, 0x10, none⟩, ⟨21, 5, .ro, 0x10, none⟩, ⟨26, 24, .ro, 0x0, none⟩]⟩,
  -- PWR_THERM
  ⟨0x100060, [], 0x0, [], [⟨0, 8, .ro, 0x0, none⟩, ⟨8, 6, .ro, 0x0, none⟩, ⟨14, 8, .ro, 0x0, none⟩, ⟨22, 16, .ro, 0x0, none⟩, ⟨38, 8, .ro, 0x0, none⟩]⟩,
  -- PWR_COORD
  ⟨0x100068, [], 0x0, [], [⟨0, 1, .ro, 0x0, none⟩, ⟨1, 16, .ro, 0x0, none⟩, ⟨17, 10, .ro, 0x0, none⟩, ⟨27, 32, .ro, 0x0, none⟩]⟩,
  -- PWR_EVENT
  ⟨0x100070, [], 0x0, [], [⟨0, 1, .w1c, 0x0, none⟩, ⟨1, 1, .w1c, 0x0, none⟩, ⟨2, 1, .w1c, 0x0, none⟩, ⟨3, 1, .w1c, 0x0, none⟩, ⟨4, 1, .w1c, 0x0, none⟩, ⟨5, 1, .w1c, 0x0, none⟩, ⟨6, 1, .w1c, 0x0, none⟩, ⟨7, 1, .w1c, 0x0, none⟩, ⟨8, 1, .w1c, 0x0, none⟩, ⟨9, 1, .w1c, 0x0, none⟩]⟩,
  -- PWR_DOM
  ⟨0x100100, [], 0x0, [], [⟨0, 2, .rw, 0x0, none⟩, ⟨2, 2, .ro, 0x0, none⟩, ⟨4, 1, .ro, 0x0, none⟩, ⟨5, 1, .w1c, 0x0, none⟩]⟩,
  -- PWR_DOM
  ⟨0x100100, [(0x8, 20)], 0x0, [], [⟨0, 2, .rw, 0x0, none⟩, ⟨2, 2, .ro, 0x3, none⟩, ⟨4, 1, .ro, 0x0, none⟩, ⟨5, 1, .w1c, 0x0, none⟩]⟩,
  -- PWR_JOINT_COMMIT
  ⟨0x1ff000, [], 0x0, [], [⟨0, 8, .wo, 0x0, none⟩, ⟨8, 2, .wo, 0x0, none⟩, ⟨16, 16, .wo, 0x0, none⟩]⟩,
  -- PWR_JOINT_STATUS
  ⟨0x1ff008, [], 0x0, [], [⟨0, 8, .ro, 0x0, none⟩, ⟨8, 2, .ro, 0x0, none⟩, ⟨10, 4, .ro, 0x0, none⟩, ⟨16, 16, .ro, 0x0, none⟩, ⟨32, 1, .ro, 0x0, none⟩, ⟨33, 1, .ro, 0x0, none⟩, ⟨34, 1, .w1c, 0x0, none⟩, ⟨35, 1, .w1c, 0x0, none⟩]⟩,
  -- PWR_JOINT_ARMED
  ⟨0x1ff010, [(0x8, 4)], 0x0, [], [⟨0, 64, .ro, 0x0, none⟩]⟩]

/-- The registers of block SEC. -/
def regTableSEC : List RegDef := [
  -- SEC_STATUS
  ⟨0x200000, [], 0x0, [], [⟨0, 1, .ro, 0x0, none⟩, ⟨1, 1, .ro, 0x0, none⟩, ⟨2, 1, .ro, 0x0, none⟩, ⟨3, 1, .ro, 0x0, none⟩, ⟨4, 1, .ro, 0x0, none⟩, ⟨5, 8, .ro, 0x0, none⟩, ⟨13, 3, .ro, 0x0, none⟩]⟩,
  -- SEC_IDENT
  ⟨0x200008, [], 0x0, [], [⟨0, 64, .ro, 0x0, none⟩]⟩,
  -- SEC_IDENT2
  ⟨0x200010, [], 0x0, [], [⟨0, 64, .ro, 0x0, none⟩]⟩,
  -- SEC_IDENT3
  ⟨0x200018, [], 0x0, [], [⟨0, 64, .ro, 0x0, none⟩]⟩,
  -- SEC_OWNER0
  ⟨0x200020, [], 0x0, [], [⟨0, 64, .ro, 0x0, none⟩]⟩,
  -- SEC_OWNER1
  ⟨0x200028, [], 0x0, [], [⟨0, 64, .ro, 0x0, none⟩]⟩,
  -- SEC_CTR
  ⟨0x200040, [(0x8, 8)], 0x0, [], [⟨0, 32, .ro, 0x0, none⟩, ⟨32, 1, .ro, 0x0, none⟩]⟩,
  -- SEC_CMDADDR
  ⟨0x200100, [], 0x0, [], [⟨0, 40, .rw, 0x0, none⟩]⟩,
  -- SEC_CMD
  ⟨0x200108, [], 0x0, [], [⟨0, 4, .wo, 0x0, none⟩]⟩,
  -- SEC_CMDSTAT
  ⟨0x200110, [], 0x0, [], [⟨0, 4, .ro, 0x0, none⟩, ⟨4, 2, .ro, 0x0, none⟩, ⟨6, 4, .ro, 0x0, none⟩]⟩,
  -- SEC_EVENT
  ⟨0x200118, [], 0x0, [], [⟨0, 1, .w1c, 0x0, none⟩, ⟨1, 1, .w1c, 0x0, none⟩, ⟨2, 1, .w1c, 0x0, none⟩, ⟨3, 1, .w1c, 0x0, none⟩, ⟨4, 1, .w1c, 0x0, none⟩]⟩]

/-- The registers of block SCH. -/
def regTableSCH : List RegDef := [
  -- SCH_BAY_SEED
  ⟨0x3f0000, [(0x8, 8)], 0x10, [1], [⟨0, 64, .jw, 0x0, none⟩]⟩,
  -- SCH_BAY_VFLAG
  ⟨0x3f0100, [(0x8, 8)], 0x0, [], [⟨0, 5, .ro, 0x0, none⟩, ⟨8, 5, .ro, 0x0, none⟩, ⟨16, 1, .ro, 0x0, none⟩, ⟨17, 1, .ro, 0x0, none⟩, ⟨32, 16, .ro, 0x0, none⟩]⟩,
  -- SCH_BAY_STATE
  ⟨0x320000, [(0x100, 8)], 0x0, [], [⟨0, 3, .ro, 0x0, none⟩, ⟨3, 1, .ro, 0x0, none⟩, ⟨8, 16, .ro, 0x0, none⟩, ⟨24, 12, .ro, 0x0, none⟩]⟩,
  -- SCH_BAY_RES
  ⟨0x320008, [(0x100, 8)], 0x0, [], [⟨0, 11, .ro, 0x0, none⟩, ⟨16, 9, .ro, 0x0, none⟩, ⟨25, 10, .ro, 0x0, none⟩, ⟨35, 10, .ro, 0x0, none⟩, ⟨45, 19, .ro, 0x0, none⟩]⟩,
  -- SCH_BAY_BUILD0
  ⟨0x320010, [(0x100, 8)], 0x0, [], [⟨0, 64, .ro, 0x0, none⟩]⟩,
  -- SCH_BAY_BUILD1
  ⟨0x320018, [(0x100, 8)], 0x0, [], [⟨0, 64, .ro, 0x0, none⟩]⟩,
  -- SCH_BAY_CFG
  ⟨0x320020, [(0x100, 8)], 0x0, [], [⟨0, 16, .sw, 0x3e8, none⟩]⟩,
  -- SCH_BAY_PEND
  ⟨0x320028, [(0x100, 8)], 0x0, [], [⟨0, 1, .ro, 0x0, none⟩, ⟨1, 1, .ro, 0x0, none⟩, ⟨32, 32, .ro, 0x0, none⟩]⟩,
  -- SCH_BAY_RAISE
  ⟨0x320030, [(0x100, 8)], 0x0, [], [⟨0, 8, .ro, 0x0, none⟩, ⟨8, 4, .ro, 0x0, none⟩, ⟨12, 48, .ro, 0x0, none⟩]⟩,
  -- SCH_RES_FREE
  ⟨0x320800, [], 0x0, [], [⟨0, 16, .ro, 0x0, none⟩, ⟨16, 9, .ro, 0x0, none⟩, ⟨25, 19, .ro, 0x0, none⟩]⟩,
  -- SCH_BAY_SCHED
  ⟨0x320040, [(0x100, 8)], 0x18, [1], [⟨0, 32, .jw, 0x0, some (0, 4294967295, 64)⟩, ⟨32, 1, .jw, 0x0, none⟩]⟩,
  -- SCH_BAY_DISP
  ⟨0x320048, [(0x100, 8)], 0x18, [1], [⟨0, 2, .jw, 0x0, none⟩, ⟨2, 2, .jw, 0x1, none⟩, ⟨4, 2, .jw, 0x2, none⟩, ⟨6, 2, .jw, 0x3, none⟩, ⟨8, 16, .jw, 0x8, none⟩]⟩,
  -- SCH_BAY_LSCFG
  ⟨0x320050, [(0x100, 8)], 0x18, [1], [⟨0, 8, .jw, 0x10, none⟩, ⟨8, 8, .jw, 0x0, none⟩, ⟨16, 8, .jw, 0x18, none⟩, ⟨24, 16, .jw, 0x7d0, some (1, 65535, 1)⟩, ⟨40, 1, .jw, 0x1, none⟩, ⟨41, 8, .jw, 0x10, none⟩]⟩,
  -- SCH_BAY_GATECFG
  ⟨0x320058, [(0x100, 8)], 0x18, [1], [⟨0, 32, .jw, 0x0, some (0, 4294967295, 64)⟩, ⟨32, 1, .jw, 0x0, none⟩, ⟨33, 8, .jw, 0x0, none⟩]⟩,
  -- SCH_BAY_TRAIN
  ⟨0x320060, [(0x100, 8)], 0x0, [], [⟨0, 8, .ro, 0x10, none⟩, ⟨8, 16, .ro, 0x0, none⟩, ⟨24, 8, .ro, 0x0, none⟩, ⟨32, 2, .ro, 0x0, none⟩, ⟨34, 1, .ro, 0x0, none⟩, ⟨35, 8, .ro, 0x0, none⟩, ⟨43, 2, .ro, 0x0, none⟩]⟩,
  -- SCH_BAY_STEPNO
  ⟨0x320068, [(0x100, 8)], 0x0, [], [⟨0, 48, .ro, 0x0, none⟩]⟩,
  -- SCH_BAY_UPDATES
  ⟨0x320070, [(0x100, 8)], 0x0, [], [⟨0, 48, .ro, 0x0, none⟩]⟩,
  -- SCH_BAY_TEVENT
  ⟨0x320078, [(0x100, 8)], 0x0, [], [⟨0, 1, .w1c, 0x0, none⟩, ⟨1, 1, .w1c, 0x0, none⟩, ⟨2, 1, .w1c, 0x0, none⟩, ⟨3, 1, .w1c, 0x0, none⟩, ⟨4, 1, .w1c, 0x0, none⟩, ⟨5, 1, .w1c, 0x0, none⟩]⟩,
  -- SCH_BAY_TCOUNT
  ⟨0x320080, [(0x100, 8)], 0x0, [], [⟨0, 16, .ro, 0x0, none⟩, ⟨16, 16, .ro, 0x0, none⟩, ⟨32, 16, .ro, 0x0, none⟩]⟩,
  -- SCH_BAY_SCHCFG
  ⟨0x320088, [(0x100, 8)], 0x60, [1], [⟨0, 16, .jw, 0xa, none⟩, ⟨16, 16, .jw, 0x0, none⟩]⟩,
  -- SCH_BAY_CTXAREA
  ⟨0x320090, [(0x100, 8)], 0x60, [1], [⟨0, 32, .jw, 0x0, some (0, 4294967295, 2097152)⟩, ⟨32, 11, .jw, 0x0, some (0, 1536, 1)⟩]⟩,
  -- SCH_BAY_EST
  ⟨0x320098, [(0x100, 8)], 0x60, [1], [⟨0, 32, .jw, 0x0, none⟩]⟩,
  -- SCH_BAY_TRING
  ⟨0x3200a0, [(0x100, 8)], 0x60, [1], [⟨0, 48, .jw, 0x0, none⟩, ⟨48, 4, .jw, 0x4, some (4, 15, 1)⟩, ⟨52, 1, .jw, 0x0, none⟩]⟩,
  -- SCH_BAY_THEAD
  ⟨0x3200a8, [(0x100, 8)], 0x0, [], [⟨0, 32, .ro, 0x0, none⟩, ⟨32, 16, .ro, 0x0, none⟩]⟩,
  -- SCH_BAY_RUN
  ⟨0x3200b0, [(0x100, 8)], 0x0, [], [⟨0, 3, .ro, 0x0, none⟩, ⟨3, 1, .ro, 0x0, none⟩, ⟨4, 1, .ro, 0x0, none⟩, ⟨5, 1, .ro, 0x0, none⟩, ⟨6, 1, .ro, 0x0, none⟩]⟩,
  -- SCH_BAY_IRATIO
  ⟨0x3200b8, [(0x100, 8)], 0x0, [], [⟨0, 16, .ro, 0x0, none⟩, ⟨16, 3, .ro, 0x0, none⟩, ⟨32, 32, .ro, 0x0, none⟩]⟩,
  -- SCH_CTX_CFG
  ⟨0x330000, [(0x400, 8)], 0x20, [8], [⟨0, 1, .jw, 0x1, none⟩, ⟨1, 1, .jw, 0x0, none⟩, ⟨2, 4, .jw, 0x8, none⟩]⟩,
  -- SCH_CTX_CFG
  ⟨0x330000, [(0x400, 8), (0x80, 8)], 0x20, [8, 1], [⟨0, 1, .jw, 0x0, none⟩, ⟨1, 1, .jw, 0x0, none⟩, ⟨2, 4, .jw, 0x8, none⟩]⟩,
  -- SCH_CTX_SAVE
  ⟨0x330008, [(0x400, 8), (0x80, 8)], 0x20, [8, 1], [⟨0, 48, .jw, 0x0, some (0, 281474976710655, 2097152)⟩]⟩,
  -- SCH_CTX_STATE
  ⟨0x330010, [(0x400, 8), (0x80, 8)], 0x0, [], [⟨0, 3, .ro, 0x0, none⟩, ⟨3, 1, .ro, 0x0, none⟩, ⟨4, 4, .ro, 0x0, none⟩, ⟨8, 2, .ro, 0x0, none⟩, ⟨32, 32, .ro, 0x0, none⟩]⟩,
  -- SCH_CTX_COUNT
  ⟨0x330018, [(0x400, 8), (0x80, 8)], 0x0, [], [⟨0, 32, .ro, 0x0, none⟩, ⟨32, 16, .ro, 0x0, none⟩, ⟨48, 16, .ro, 0x0, none⟩]⟩,
  -- SCH_CTX_WAIT
  ⟨0x330020, [(0x400, 8), (0x80, 8)], 0x0, [], [⟨0, 32, .ro, 0x0, none⟩, ⟨32, 16, .ro, 0x0, none⟩, ⟨48, 16, .ro, 0x0, none⟩]⟩,
  -- SCH_JOINT_COMMIT
  ⟨0x3ff000, [], 0x0, [], [⟨0, 8, .wo, 0x0, none⟩, ⟨8, 2, .wo, 0x0, none⟩, ⟨16, 16, .wo, 0x0, none⟩]⟩,
  -- SCH_JOINT_STATUS
  ⟨0x3ff008, [], 0x0, [], [⟨0, 8, .ro, 0x0, none⟩, ⟨8, 2, .ro, 0x0, none⟩, ⟨10, 4, .ro, 0x0, none⟩, ⟨16, 16, .ro, 0x0, none⟩, ⟨32, 1, .ro, 0x0, none⟩, ⟨33, 1, .ro, 0x0, none⟩, ⟨34, 1, .w1c, 0x0, none⟩, ⟨35, 1, .w1c, 0x0, none⟩]⟩,
  -- SCH_JOINT_ARMED
  ⟨0x3ff010, [(0x8, 4)], 0x0, [], [⟨0, 64, .ro, 0x0, none⟩]⟩]

/-- The registers of block JNL. -/
def regTableJNL : List RegDef := [
  -- JNL_HEAD
  ⟨0x400000, [], 0x0, [], [⟨0, 64, .ro, 0x0, none⟩]⟩,
  -- JNL_SEALED
  ⟨0x400008, [], 0x0, [], [⟨0, 48, .ro, 0x0, none⟩, ⟨48, 14, .ro, 0x0, none⟩]⟩,
  -- JNL_STATUS
  ⟨0x400010, [], 0x0, [], [⟨0, 1, .ro, 0x0, none⟩, ⟨1, 1, .ro, 0x0, none⟩, ⟨2, 13, .ro, 0x1000, none⟩, ⟨16, 32, .ro, 0x0, none⟩]⟩,
  -- JNL_CFG
  ⟨0x400018, [], 0x0, [], [⟨0, 1, .rw, 0x0, none⟩, ⟨1, 5, .rw, 0x10, none⟩]⟩,
  -- JNL_EXPORT_BASE
  ⟨0x400020, [], 0x0, [], [⟨0, 40, .rw, 0x0, none⟩]⟩,
  -- JNL_EVENT
  ⟨0x400028, [], 0x0, [], [⟨0, 1, .w1c, 0x0, none⟩, ⟨1, 1, .w1c, 0x0, none⟩, ⟨2, 1, .w1c, 0x0, none⟩]⟩]

/-- The registers of block AG. -/
def regTableAG : List RegDef := [
  -- AG_ARR_STATUS
  ⟨0x800000, [(0x100000, 16), (0x1000, 6)], 0x0, [], [⟨0, 2, .ro, 0x0, none⟩, ⟨2, 5, .ro, 0x0, none⟩, ⟨7, 2, .ro, 0x0, none⟩, ⟨9, 1, .ro, 0x1, none⟩, ⟨10, 1, .ro, 0x0, none⟩, ⟨11, 1, .ro, 0x0, none⟩, ⟨32, 32, .ro, 0x0, none⟩]⟩,
  -- AG_ARR_EVENT
  ⟨0x800008, [(0x100000, 16), (0x1000, 6)], 0x0, [], [⟨0, 1, .w1c, 0x0, none⟩, ⟨1, 1, .w1c, 0x0, none⟩, ⟨2, 1, .w1c, 0x0, none⟩, ⟨3, 1, .w1c, 0x0, none⟩, ⟨4, 1, .w1c, 0x0, none⟩, ⟨5, 1, .w1c, 0x0, none⟩]⟩,
  -- AG_ARR_TABLE
  ⟨0x800010, [(0x100000, 16), (0x1000, 6)], 0x10, [0, 1], [⟨0, 32, .jw, 0x0, some (0, 4294967295, 32)⟩, ⟨32, 16, .jw, 0x0, none⟩]⟩,
  -- AG_ARR_REPAIR
  ⟨0x800018, [(0x100000, 16), (0x1000, 6)], 0x20, [0, 1], [⟨0, 1, .jw, 0x0, none⟩, ⟨1, 8, .jw, 0x0, some (0, 129, 1)⟩, ⟨9, 1, .jw, 0x0, none⟩, ⟨10, 8, .jw, 0x0, some (0, 129, 1)⟩, ⟨18, 1, .jw, 0x0, none⟩, ⟨19, 8, .jw, 0x0, some (0, 129, 1)⟩, ⟨27, 1, .jw, 0x0, none⟩, ⟨28, 8, .jw, 0x0, some (0, 129, 1)⟩]⟩,
  -- AG_ARR_CHECK
  ⟨0x800020, [(0x100000, 16), (0x1000, 6)], 0x10, [0, 1], [⟨0, 6, .jw, 0xc, some (4, 23, 1)⟩, ⟨16, 16, .ro, 0x0, none⟩, ⟨32, 16, .ro, 0x0, none⟩]⟩,
  -- AG_ARR_THR
  ⟨0x800040, [(0x100000, 16), (0x1000, 6)], 0x10, [0, 1], [⟨0, 16, .ro, 0x0, none⟩, ⟨16, 16, .jw, 0x0, none⟩, ⟨32, 16, .jw, 0x0, none⟩, ⟨48, 16, .jw, 0x0, none⟩]⟩,
  -- AG_ARR_THR
  ⟨0x800040, [(0x100000, 16), (0x1000, 6), (0x8, 4)], 0x10, [0, 1, 0], [⟨0, 16, .jw, 0x0, none⟩, ⟨16, 16, .jw, 0x0, none⟩, ⟨32, 16, .jw, 0x0, none⟩, ⟨48, 16, .jw, 0x0, none⟩]⟩,
  -- AG_ARR_SCLA
  ⟨0x800110, [(0x100000, 16), (0x1000, 6), (0x10, 15)], 0x10, [0, 1, 0], [⟨0, 64, .jw, 0x0, none⟩]⟩,
  -- AG_ARR_SCLB
  ⟨0x800118, [(0x100000, 16), (0x1000, 6), (0x10, 15)], 0x10, [0, 1, 0], [⟨0, 64, .jw, 0x0, none⟩]⟩,
  -- AG_FDR_CFG
  ⟨0x808000, [(0x100000, 16), (0x100, 6)], 0x0, [], [⟨0, 3, .sw, 0x4, none⟩, ⟨4, 3, .sw, 0x2, none⟩]⟩,
  -- AG_FDR_STATUS
  ⟨0x808008, [(0x100000, 16), (0x100, 6)], 0x0, [], [⟨0, 1, .ro, 0x0, none⟩, ⟨32, 32, .ro, 0x0, none⟩]⟩,
  -- AG_TM_STATUS
  ⟨0x810000, [(0x100000, 16)], 0x0, [], [⟨0, 9, .ro, 0x100, none⟩, ⟨16, 7, .ro, 0x0, none⟩]⟩,
  -- AG_TM_ERR
  ⟨0x810008, [(0x100000, 16)], 0x0, [], [⟨0, 32, .ro, 0x0, none⟩, ⟨32, 16, .ro, 0x0, none⟩, ⟨48, 16, .ro, 0x0, none⟩]⟩,
  -- AG_TM_LAST
  ⟨0x810010, [(0x100000, 16)], 0x0, [], [⟨0, 22, .ro, 0x0, none⟩, ⟨22, 1, .ro, 0x0, none⟩, ⟨23, 1, .ro, 0x0, none⟩, ⟨24, 3, .ro, 0x0, none⟩]⟩,
  -- AG_TM_EVENT
  ⟨0x810018, [(0x100000, 16)], 0x0, [], [⟨0, 1, .w1c, 0x0, none⟩, ⟨1, 1, .w1c, 0x0, none⟩, ⟨2, 1, .w1c, 0x0, none⟩, ⟨3, 1, .w1c, 0x0, none⟩]⟩,
  -- AG_MROUTE
  ⟨0x820000, [(0x100000, 16), (0x8, 32)], 0x30, [0, 0], [⟨0, 1, .jw, 0x0, none⟩, ⟨1, 5, .jw, 0x0, some (0, 23, 1)⟩, ⟨6, 6, .jw, 0x0, some (0, 56, 1)⟩]⟩,
  -- AG_MESH_STATUS
  ⟨0x820100, [(0x100000, 16)], 0x0, [], [⟨0, 32, .ro, 0x0, none⟩, ⟨32, 32, .ro, 0x0, none⟩]⟩,
  -- AG_PEG
  ⟨0x840000, [(0x100000, 16), (0x8, 4096)], 0x0, [], [⟨0, 16, .sw, 0x0, none⟩]⟩,
  -- AG_PEG_ADD
  ⟨0x848000, [(0x100000, 16)], 0x0, [], [⟨0, 12, .wo, 0x0, none⟩, ⟨16, 16, .wo, 0x0, none⟩]⟩,
  -- AG_PEG_FWD
  ⟨0x850000, [(0x100000, 16), (0x8, 256)], 0x31, [0, 0], [⟨0, 1, .jw, 0x0, none⟩, ⟨1, 12, .jw, 0x0, none⟩, ⟨13, 4, .jw, 0x0, none⟩, ⟨17, 12, .jw, 0x0, none⟩]⟩,
  -- AG_PEG_STATUS
  ⟨0x850800, [(0x100000, 16)], 0x0, [], [⟨0, 16, .ro, 0x0, none⟩]⟩,
  -- AG_DMA_TABLE
  ⟨0x860000, [(0x100000, 16), (0x100, 4)], 0x32, [0, 0], [⟨0, 32, .jw, 0x0, some (0, 4294967295, 32)⟩, ⟨32, 16, .jw, 0x0, none⟩]⟩,
  -- AG_DMA_STATUS
  ⟨0x860008, [(0x100000, 16), (0x100, 4)], 0x0, [], [⟨0, 2, .ro, 0x0, none⟩, ⟨2, 16, .ro, 0x0, none⟩, ⟨18, 3, .ro, 0x0, none⟩, ⟨32, 32, .ro, 0x0, none⟩]⟩,
  -- AG_DMA_THR
  ⟨0x860040, [(0x100000, 16), (0x100, 4)], 0x32, [0, 0], [⟨0, 16, .ro, 0x0, none⟩, ⟨16, 16, .jw, 0x0, none⟩, ⟨32, 16, .jw, 0x0, none⟩, ⟨48, 16, .jw, 0x0, none⟩]⟩,
  -- AG_DMA_THR
  ⟨0x860040, [(0x100000, 16), (0x100, 4), (0x8, 4)], 0x32, [0, 0, 0], [⟨0, 16, .jw, 0x0, none⟩, ⟨16, 16, .jw, 0x0, none⟩, ⟨32, 16, .jw, 0x0, none⟩, ⟨48, 16, .jw, 0x0, none⟩]⟩,
  -- AG_VEC_STATUS
  ⟨0x870000, [(0x100000, 16), (0x1000, 6)], 0x0, [], [⟨0, 2, .ro, 0x0, none⟩, ⟨2, 11, .ro, 0x0, none⟩, ⟨13, 1, .ro, 0x0, none⟩, ⟨14, 7, .ro, 0x0, none⟩, ⟨21, 3, .ro, 0x0, none⟩, ⟨32, 32, .ro, 0x0, none⟩]⟩,
  -- AG_VEC_EVENT
  ⟨0x870008, [(0x100000, 16), (0x1000, 6)], 0x0, [], [⟨0, 1, .w1c, 0x0, none⟩, ⟨1, 1, .w1c, 0x0, none⟩, ⟨2, 1, .w1c, 0x0, none⟩, ⟨3, 1, .w1c, 0x0, none⟩, ⟨4, 1, .w1c, 0x0, none⟩]⟩,
  -- AG_VEC_PROG
  ⟨0x870010, [(0x100000, 16), (0x1000, 6)], 0x40, [0, 1], [⟨0, 32, .jw, 0x0, some (0, 4294967295, 8)⟩, ⟨32, 12, .jw, 0x0, some (0, 2048, 1)⟩]⟩,
  -- AG_VEC_DWIN
  ⟨0x870018, [(0x100000, 16), (0x1000, 6)], 0x40, [0, 1], [⟨0, 32, .jw, 0x0, some (0, 4294967295, 64)⟩, ⟨32, 24, .jw, 0x0, none⟩]⟩,
  -- AG_VEC_COUNT
  ⟨0x870020, [(0x100000, 16), (0x1000, 6)], 0x0, [], [⟨0, 16, .ro, 0x0, none⟩, ⟨16, 16, .ro, 0x0, none⟩, ⟨32, 16, .ro, 0x0, none⟩, ⟨48, 16, .ro, 0x0, none⟩]⟩,
  -- AG_VEC_PERF
  ⟨0x870028, [(0x100000, 16), (0x1000, 6)], 0x0, [], [⟨0, 32, .ro, 0x0, none⟩, ⟨32, 32, .ro, 0x0, none⟩]⟩,
  -- AG_VEC_THR
  ⟨0x870040, [(0x100000, 16), (0x1000, 6)], 0x40, [0, 1], [⟨0, 16, .ro, 0x0, none⟩, ⟨16, 16, .jw, 0x0, none⟩, ⟨32, 16, .jw, 0x0, none⟩, ⟨48, 16, .jw, 0x0, none⟩]⟩,
  -- AG_VEC_THR
  ⟨0x870040, [(0x100000, 16), (0x1000, 6), (0x8, 4)], 0x40, [0, 1, 0], [⟨0, 16, .jw, 0x0, none⟩, ⟨16, 16, .jw, 0x0, none⟩, ⟨32, 16, .jw, 0x0, none⟩, ⟨48, 16, .jw, 0x0, none⟩]⟩,
  -- AG_ARR_DISP
  ⟨0x800200, [(0x100000, 16), (0x1000, 6)], 0x0, [], [⟨0, 32, .ro, 0x0, none⟩, ⟨32, 16, .ro, 0x0, none⟩, ⟨48, 3, .ro, 0x0, none⟩, ⟨51, 1, .ro, 0x0, none⟩, ⟨52, 1, .ro, 0x0, none⟩, ⟨53, 1, .ro, 0x0, none⟩]⟩,
  -- AG_ARR_BACKLOG
  ⟨0x800208, [(0x100000, 16), (0x1000, 6)], 0x0, [], [⟨0, 13, .ro, 0x0, none⟩, ⟨16, 16, .ro, 0x0, none⟩, ⟨32, 32, .ro, 0x0, none⟩]⟩,
  -- AG_ARR_DCOUNT
  ⟨0x800210, [(0x100000, 16), (0x1000, 6)], 0x0, [], [⟨0, 32, .ro, 0x0, none⟩, ⟨32, 16, .ro, 0x0, none⟩, ⟨48, 16, .ro, 0x0, none⟩]⟩,
  -- AG_JOINT_COMMIT
  ⟨0x8ff000, [(0x100000, 16)], 0x0, [], [⟨0, 8, .wo, 0x0, none⟩, ⟨8, 2, .wo, 0x0, none⟩, ⟨16, 16, .wo, 0x0, none⟩]⟩,
  -- AG_JOINT_STATUS
  ⟨0x8ff008, [(0x100000, 16)], 0x0, [], [⟨0, 8, .ro, 0x0, none⟩, ⟨8, 2, .ro, 0x0, none⟩, ⟨10, 4, .ro, 0x0, none⟩, ⟨16, 16, .ro, 0x0, none⟩, ⟨32, 1, .ro, 0x0, none⟩, ⟨33, 1, .ro, 0x0, none⟩, ⟨34, 1, .w1c, 0x0, none⟩, ⟨35, 1, .w1c, 0x0, none⟩]⟩,
  -- AG_JOINT_ARMED
  ⟨0x8ff010, [(0x100000, 16), (0x8, 4)], 0x0, [], [⟨0, 64, .ro, 0x0, none⟩]⟩]

/-- The registers of block MEM. -/
def regTableMEM : List RegDef := [
  -- MEM_STACK_STATUS
  ⟨0x1800000, [(0x100, 8)], 0x0, [], [⟨0, 1, .ro, 0x0, none⟩, ⟨1, 1, .ro, 0x0, none⟩, ⟨2, 2, .ro, 0x0, none⟩, ⟨4, 4, .ro, 0x0, none⟩, ⟨8, 8, .ro, 0x0, none⟩, ⟨16, 2, .ro, 0x0, none⟩, ⟨18, 1, .ro, 0x0, none⟩, ⟨19, 32, .ro, 0x0, none⟩]⟩,
  -- MEM_STACK_ERR
  ⟨0x1800008, [(0x100, 8)], 0x0, [], [⟨0, 32, .ro, 0x0, none⟩, ⟨32, 16, .ro, 0x0, none⟩, ⟨48, 8, .ro, 0x0, none⟩, ⟨56, 8, .ro, 0x0, none⟩]⟩,
  -- MEM_LAST
  ⟨0x1800800, [], 0x0, [], [⟨0, 39, .ro, 0x0, none⟩, ⟨39, 1, .ro, 0x0, none⟩, ⟨40, 1, .ro, 0x0, none⟩]⟩,
  -- MEM_EVENT
  ⟨0x1800808, [], 0x0, [], [⟨0, 1, .w1c, 0x0, none⟩, ⟨1, 1, .w1c, 0x0, none⟩, ⟨2, 1, .w1c, 0x0, none⟩, ⟨3, 1, .w1c, 0x0, none⟩, ⟨4, 1, .w1c, 0x0, none⟩]⟩,
  -- MEM_SCRUB
  ⟨0x1800810, [], 0x1, [], [⟨0, 8, .jw, 0x18, some (6, 168, 1)⟩]⟩,
  -- MEM_BAY_CFG
  ⟨0x1801000, [(0x20, 8)], 0x0, [], [⟨0, 2, .ro, 0x0, none⟩, ⟨2, 2, .ro, 0x0, none⟩, ⟨4, 9, .ro, 0x0, none⟩, ⟨13, 1, .ro, 0x0, none⟩, ⟨14, 31, .ro, 0x0, none⟩]⟩,
  -- MEM_BAY_BW
  ⟨0x1801008, [(0x20, 8)], 0x0, [], [⟨0, 32, .ro, 0x0, none⟩, ⟨32, 32, .ro, 0x0, none⟩]⟩,
  -- MEM_JOINT_COMMIT
  ⟨0x1fff000, [], 0x0, [], [⟨0, 8, .wo, 0x0, none⟩, ⟨8, 2, .wo, 0x0, none⟩, ⟨16, 16, .wo, 0x0, none⟩]⟩,
  -- MEM_JOINT_STATUS
  ⟨0x1fff008, [], 0x0, [], [⟨0, 8, .ro, 0x0, none⟩, ⟨8, 2, .ro, 0x0, none⟩, ⟨10, 4, .ro, 0x0, none⟩, ⟨16, 16, .ro, 0x0, none⟩, ⟨32, 1, .ro, 0x0, none⟩, ⟨33, 1, .ro, 0x0, none⟩, ⟨34, 1, .w1c, 0x0, none⟩, ⟨35, 1, .w1c, 0x0, none⟩]⟩,
  -- MEM_JOINT_ARMED
  ⟨0x1fff010, [(0x8, 4)], 0x0, [], [⟨0, 64, .ro, 0x0, none⟩]⟩]

/-- The registers of block FAB. -/
def regTableFAB : List RegDef := [
  -- FABP_CFG
  ⟨0x2000000, [(0x10000, 8)], 0x0, [], [⟨0, 1, .rw, 0x0, none⟩, ⟨1, 2, .sw, 0x1, none⟩, ⟨3, 3, .sw, 0x0, none⟩]⟩,
  -- FABP_CFG
  ⟨0x2080000, [(0x10000, 8)], 0x0, [], [⟨0, 1, .rw, 0x0, none⟩, ⟨1, 2, .sw, 0x1, none⟩, ⟨3, 3, .sw, 0x1, none⟩]⟩,
  -- FABP_CFG
  ⟨0x2100000, [(0x10000, 8)], 0x0, [], [⟨0, 1, .rw, 0x0, none⟩, ⟨1, 2, .sw, 0x1, none⟩, ⟨3, 3, .sw, 0x2, none⟩]⟩,
  -- FABP_CFG
  ⟨0x2180000, [(0x10000, 8)], 0x0, [], [⟨0, 1, .rw, 0x0, none⟩, ⟨1, 2, .sw, 0x1, none⟩, ⟨3, 3, .sw, 0x3, none⟩]⟩,
  -- FABP_CFG
  ⟨0x2200000, [(0x10000, 8)], 0x0, [], [⟨0, 1, .rw, 0x0, none⟩, ⟨1, 2, .sw, 0x1, none⟩, ⟨3, 3, .sw, 0x4, none⟩]⟩,
  -- FABP_CFG
  ⟨0x2280000, [(0x10000, 8)], 0x0, [], [⟨0, 1, .rw, 0x0, none⟩, ⟨1, 2, .sw, 0x1, none⟩, ⟨3, 3, .sw, 0x5, none⟩]⟩,
  -- FABP_CFG
  ⟨0x2300000, [(0x10000, 2)], 0x0, [], [⟨0, 1, .rw, 0x0, none⟩, ⟨1, 2, .sw, 0x1, none⟩, ⟨3, 3, .sw, 0x6, none⟩]⟩,
  -- FABP_STATUS
  ⟨0x2000008, [(0x10000, 50)], 0x0, [], [⟨0, 4, .ro, 0x0, none⟩, ⟨4, 8, .ro, 0x0, none⟩, ⟨12, 1, .ro, 0x0, none⟩, ⟨13, 5, .ro, 0x0, none⟩, ⟨18, 14, .ro, 0x0, none⟩, ⟨32, 8, .ro, 0x0, none⟩]⟩,
  -- FABP_PEER
  ⟨0x2000010, [(0x10000, 50), (0x8, 6)], 0x0, [], [⟨0, 64, .ro, 0x0, none⟩]⟩,
  -- FABP_ERR
  ⟨0x2000040, [(0x10000, 50)], 0x0, [], [⟨0, 32, .ro, 0x0, none⟩, ⟨32, 16, .ro, 0x0, none⟩, ⟨48, 8, .ro, 0x0, none⟩, ⟨56, 8, .ro, 0x0, none⟩]⟩,
  -- FABP_HB
  ⟨0x2000048, [(0x10000, 50)], 0x0, [], [⟨0, 32, .ro, 0x0, none⟩, ⟨32, 16, .ro, 0x0, none⟩, ⟨48, 16, .ro, 0x0, none⟩]⟩,
  -- FABP_EVENT
  ⟨0x2000050, [(0x10000, 50)], 0x0, [], [⟨0, 1, .w1c, 0x0, none⟩, ⟨1, 1, .w1c, 0x0, none⟩, ⟨2, 1, .w1c, 0x0, none⟩, ⟨3, 1, .w1c, 0x0, none⟩, ⟨4, 1, .w1c, 0x0, none⟩, ⟨5, 1, .w1c, 0x0, none⟩]⟩,
  -- FABP_CRED
  ⟨0x2000058, [(0x10000, 50)], 0x0, [], [⟨0, 64, .sw, 0x2020202020202020, none⟩]⟩,
  -- FABP_TCW
  ⟨0x2000060, [(0x10000, 50)], 0x0, [1], [⟨0, 48, .jw, 0x80810102020, none⟩, ⟨48, 6, .jw, 0x20, none⟩]⟩,
  -- FABP_ETH0
  ⟨0x2000080, [(0x10000, 50)], 0x0, [1], [⟨0, 16, .jw, 0x88b5, none⟩, ⟨16, 12, .jw, 0x1, none⟩, ⟨28, 24, .jw, 0xfac688, none⟩, ⟨52, 2, .jw, 0x2, none⟩, ⟨54, 8, .jw, 0xe0, none⟩]⟩,
  -- FABP_ETH1
  ⟨0x2000088, [(0x10000, 50)], 0x0, [], [⟨0, 48, .ro, 0x0, none⟩]⟩,
  -- FABP_SEC
  ⟨0x2000090, [(0x10000, 50)], 0x0, [1], [⟨0, 1, .jw, 0x0, none⟩, ⟨1, 1, .jw, 0x1, none⟩, ⟨2, 1, .jw, 0x0, none⟩, ⟨3, 4, .jw, 0x0, none⟩, ⟨32, 32, .jw, 0x0, none⟩]⟩,
  -- FABP_SECCNT
  ⟨0x2000098, [(0x10000, 50)], 0x0, [], [⟨0, 48, .ro, 0x0, none⟩, ⟨48, 16, .ro, 0x0, none⟩]⟩,
  -- FABP_HBPEER
  ⟨0x2000100, [(0x10000, 50), (0x8, 16)], 0x0, [1, 0], [⟨0, 64, .jw, 0x0, none⟩]⟩,
  -- FAB_E2E
  ⟨0x2f00000, [], 0x80, [], [⟨0, 16, .jw, 0x64, some (10, 65535, 1)⟩, ⟨16, 4, .jw, 0x8, none⟩]⟩,
  -- FAB_E2E_STATUS
  ⟨0x2f00008, [], 0x0, [], [⟨0, 16, .ro, 0x0, none⟩, ⟨16, 16, .ro, 0x0, none⟩, ⟨32, 16, .ro, 0x0, none⟩, ⟨48, 16, .ro, 0x0, none⟩]⟩,
  -- FAB_ID
  ⟨0x2f10000, [], 0x0, [], [⟨0, 15, .sw, 0x0, none⟩, ⟨15, 1, .sw, 0x0, none⟩, ⟨16, 16, .sw, 0x0, none⟩, ⟨32, 16, .sw, 0x0, none⟩, ⟨48, 1, .ro, 0x0, none⟩, ⟨49, 1, .ro, 0x0, none⟩, ⟨50, 1, .w1c, 0x0, none⟩]⟩,
  -- FAB_MGR
  ⟨0x2f10008, [], 0x0, [], [⟨0, 15, .rw, 0x0, none⟩, ⟨15, 1, .rw, 0x0, none⟩, ⟨16, 15, .rw, 0x0, none⟩, ⟨31, 1, .rw, 0x0, none⟩]⟩,
  -- FAB_ROUTE_CFG
  ⟨0x2f10010, [], 0x81, [], [⟨0, 7, .jw, 0x40, some (1, 127, 1)⟩]⟩,
  -- FAB_ROUTE_STAT
  ⟨0x2f10018, [], 0x0, [], [⟨0, 16, .ro, 0x0, none⟩, ⟨16, 16, .ro, 0x0, none⟩, ⟨32, 16, .ro, 0x0, none⟩]⟩,
  -- FAB_GRT
  ⟨0x2f11000, [(0x8, 256)], 0x81, [0], [⟨0, 1, .jw, 0x0, none⟩, ⟨1, 2, .jw, 0x0, none⟩, ⟨3, 2, .jw, 0x0, none⟩, ⟨5, 32, .jw, 0x0, none⟩, ⟨37, 2, .jw, 0x0, some (0, 2, 1)⟩, ⟨39, 16, .jw, 0x0, none⟩]⟩,
  -- FAB_MRT
  ⟨0x2f11800, [(0x8, 128)], 0x81, [0], [⟨0, 1, .jw, 0x0, none⟩, ⟨1, 2, .jw, 0x0, none⟩, ⟨3, 2, .jw, 0x0, none⟩, ⟨5, 32, .jw, 0x0, none⟩, ⟨37, 2, .jw, 0x0, some (0, 2, 1)⟩, ⟨39, 16, .jw, 0x0, none⟩]⟩,
  -- FAB_NHA
  ⟨0x2f12000, [(0x10, 256)], 0x81, [0], [⟨0, 1, .jw, 0x0, none⟩, ⟨1, 1, .jw, 0x0, none⟩, ⟨2, 6, .jw, 0x0, none⟩, ⟨8, 15, .jw, 0x0, none⟩]⟩,
  -- FAB_NHB
  ⟨0x2f12008, [(0x10, 256)], 0x81, [0], [⟨0, 48, .jw, 0x0, none⟩]⟩,
  -- FAB_MCT
  ⟨0x2f13000, [(0x8, 256)], 0x81, [0], [⟨0, 1, .jw, 0x0, none⟩, ⟨1, 1, .jw, 0x0, none⟩, ⟨2, 7, .jw, 0x0, none⟩, ⟨9, 8, .jw, 0x0, none⟩, ⟨17, 8, .jw, 0x0, none⟩, ⟨25, 2, .jw, 0x0, none⟩]⟩,
  -- FAB_JOINT_COMMIT
  ⟨0x2fff000, [], 0x0, [], [⟨0, 8, .wo, 0x0, none⟩, ⟨8, 2, .wo, 0x0, none⟩, ⟨16, 16, .wo, 0x0, none⟩]⟩,
  -- FAB_JOINT_STATUS
  ⟨0x2fff008, [], 0x0, [], [⟨0, 8, .ro, 0x0, none⟩, ⟨8, 2, .ro, 0x0, none⟩, ⟨10, 4, .ro, 0x0, none⟩, ⟨16, 16, .ro, 0x0, none⟩, ⟨32, 1, .ro, 0x0, none⟩, ⟨33, 1, .ro, 0x0, none⟩, ⟨34, 1, .w1c, 0x0, none⟩, ⟨35, 1, .w1c, 0x0, none⟩]⟩,
  -- FAB_JOINT_ARMED
  ⟨0x2fff010, [(0x8, 4)], 0x0, [], [⟨0, 64, .ro, 0x0, none⟩]⟩]

/-- The registers of block COL. -/
def regTableCOL : List RegDef := [
  -- COL_STATUS
  ⟨0x3000000, [], 0x0, [], [⟨0, 6, .ro, 0x0, none⟩, ⟨6, 6, .ro, 0x0, none⟩, ⟨32, 32, .ro, 0x0, none⟩]⟩,
  -- COL_BAY_TABLE
  ⟨0x3010000, [(0x100, 8)], 0x10, [1], [⟨0, 32, .jw, 0x0, none⟩, ⟨32, 9, .jw, 0x0, some (0, 256, 1)⟩, ⟨44, 8, .jw, 0x8, some (1, 255, 1)⟩]⟩,
  -- COL_BAY_STATUS
  ⟨0x3010008, [(0x100, 8)], 0x0, [], [⟨0, 7, .ro, 0x0, none⟩, ⟨7, 1, .ro, 0x0, none⟩, ⟨8, 8, .ro, 0x0, none⟩, ⟨16, 2, .ro, 0x0, none⟩]⟩,
  -- COL_BAY_COUNT0
  ⟨0x3010010, [(0x100, 8)], 0x0, [], [⟨0, 16, .ro, 0x0, none⟩, ⟨16, 16, .ro, 0x0, none⟩, ⟨32, 16, .ro, 0x0, none⟩, ⟨48, 16, .ro, 0x0, none⟩]⟩,
  -- COL_BAY_COUNT1
  ⟨0x3010018, [(0x100, 8)], 0x0, [], [⟨0, 16, .ro, 0x0, none⟩, ⟨16, 16, .ro, 0x0, none⟩, ⟨32, 16, .ro, 0x0, none⟩, ⟨48, 16, .ro, 0x0, none⟩]⟩,
  -- COL_BAY_COUNT2
  ⟨0x3010020, [(0x100, 8)], 0x0, [], [⟨0, 32, .ro, 0x0, none⟩]⟩,
  -- COL_BAY_EVENT
  ⟨0x3010028, [(0x100, 8)], 0x0, [], [⟨0, 1, .w1c, 0x0, none⟩, ⟨1, 1, .w1c, 0x0, none⟩, ⟨2, 1, .w1c, 0x0, none⟩, ⟨3, 1, .w1c, 0x0, none⟩, ⟨4, 1, .w1c, 0x0, none⟩, ⟨5, 1, .w1c, 0x0, none⟩, ⟨6, 1, .w1c, 0x0, none⟩]⟩,
  -- COL_JOINT_COMMIT
  ⟨0x33ff000, [], 0x0, [], [⟨0, 8, .wo, 0x0, none⟩, ⟨8, 2, .wo, 0x0, none⟩, ⟨16, 16, .wo, 0x0, none⟩]⟩,
  -- COL_JOINT_STATUS
  ⟨0x33ff008, [], 0x0, [], [⟨0, 8, .ro, 0x0, none⟩, ⟨8, 2, .ro, 0x0, none⟩, ⟨10, 4, .ro, 0x0, none⟩, ⟨16, 16, .ro, 0x0, none⟩, ⟨32, 1, .ro, 0x0, none⟩, ⟨33, 1, .ro, 0x0, none⟩, ⟨34, 1, .w1c, 0x0, none⟩, ⟨35, 1, .w1c, 0x0, none⟩]⟩,
  -- COL_JOINT_ARMED
  ⟨0x33ff010, [(0x8, 4)], 0x0, [], [⟨0, 64, .ro, 0x0, none⟩]⟩]

/-- The registers of block MGT. -/
def regTableMGT : List RegDef := [
  -- MGT_CFG
  ⟨0x3400000, [], 0x0, [], [⟨0, 1, .rw, 0x0, none⟩, ⟨1, 1, .sw, 0x0, none⟩, ⟨2, 1, .sw, 0x0, none⟩, ⟨3, 16, .sw, 0x88b6, none⟩, ⟨19, 16, .sw, 0x88b5, none⟩]⟩,
  -- MGT_STATUS
  ⟨0x3400008, [], 0x0, [], [⟨0, 2, .ro, 0x0, none⟩, ⟨2, 1, .ro, 0x0, none⟩, ⟨3, 1, .ro, 0x0, none⟩, ⟨4, 4, .ro, 0x0, none⟩]⟩,
  -- MGT_PLCA
  ⟨0x3400010, [], 0x0, [], [⟨0, 8, .sw, 0xff, none⟩, ⟨8, 8, .sw, 0x8, none⟩, ⟨16, 8, .sw, 0x20, none⟩, ⟨24, 8, .sw, 0x0, none⟩, ⟨32, 8, .sw, 0x80, none⟩]⟩,
  -- MGT_RXSTEER
  ⟨0x3400040, [], 0x1, [], [⟨0, 16, .jw, 0xfa50, none⟩, ⟨16, 3, .jw, 0x0, none⟩, ⟨19, 1, .jw, 0x1, none⟩]⟩,
  -- MGT_ETYPE
  ⟨0x3400048, [], 0x1, [], [⟨0, 16, .jw, 0x88b5, none⟩, ⟨16, 2, .jw, 0x3, none⟩, ⟨18, 1, .jw, 0x1, none⟩]⟩,
  -- MGT_ETYPE
  ⟨0x3400050, [], 0x1, [], [⟨0, 16, .jw, 0x88b6, none⟩, ⟨16, 2, .jw, 0x2, none⟩, ⟨18, 1, .jw, 0x1, none⟩]⟩,
  -- MGT_ETYPE
  ⟨0x3400048, [(0x8, 4)], 0x1, [0], [⟨0, 16, .jw, 0x0, none⟩, ⟨16, 2, .jw, 0x0, none⟩, ⟨18, 1, .jw, 0x0, none⟩]⟩,
  -- MGT_TXQ
  ⟨0x3400080, [], 0x1, [], [⟨0, 3, .jw, 0x0, none⟩, ⟨3, 12, .jw, 0x1, none⟩, ⟨15, 1, .jw, 0x0, none⟩]⟩,
  -- MGT_TXQ
  ⟨0x3400088, [], 0x1, [], [⟨0, 3, .jw, 0x2, none⟩, ⟨3, 12, .jw, 0x1, none⟩, ⟨15, 1, .jw, 0x0, none⟩]⟩,
  -- MGT_TXQ
  ⟨0x3400090, [], 0x1, [], [⟨0, 3, .jw, 0x4, none⟩, ⟨3, 12, .jw, 0x1, none⟩, ⟨15, 1, .jw, 0x0, none⟩]⟩,
  -- MGT_TXQ
  ⟨0x3400098, [], 0x1, [], [⟨0, 3, .jw, 0x6, none⟩, ⟨3, 12, .jw, 0x1, none⟩, ⟨15, 1, .jw, 0x0, none⟩]⟩,
  -- MGT_PEER
  ⟨0x34000c0, [(0x8, 4)], 0x1, [0], [⟨0, 48, .jw, 0x0, none⟩, ⟨48, 1, .jw, 0x0, none⟩]⟩,
  -- MGT_ADDR
  ⟨0x3400100, [], 0x0, [], [⟨0, 48, .ro, 0x0, none⟩, ⟨48, 1, .ro, 0x0, none⟩]⟩,
  -- MGT_ADDR
  ⟨0x3400108, [], 0x1, [], [⟨0, 48, .jw, 0x100009c7e03, none⟩, ⟨48, 1, .jw, 0x1, none⟩]⟩,
  -- MGT_ADDR
  ⟨0x3400100, [(0x8, 8)], 0x1, [0], [⟨0, 48, .jw, 0x0, none⟩, ⟨48, 1, .jw, 0x0, none⟩]⟩,
  -- MGT_TXCNT
  ⟨0x3400200, [], 0x0, [], [⟨0, 32, .ro, 0x0, none⟩, ⟨32, 16, .ro, 0x0, none⟩, ⟨48, 8, .ro, 0x0, none⟩, ⟨56, 8, .ro, 0x0, none⟩]⟩,
  -- MGT_RXCNT
  ⟨0x3400208, [], 0x0, [], [⟨0, 32, .ro, 0x0, none⟩, ⟨32, 16, .ro, 0x0, none⟩, ⟨48, 16, .ro, 0x0, none⟩]⟩,
  -- MGT_RXDROP
  ⟨0x3400210, [], 0x0, [], [⟨0, 64, .ro, 0x0, none⟩]⟩,
  -- MGT_MSGCNT
  ⟨0x3400218, [], 0x0, [], [⟨0, 16, .ro, 0x0, none⟩, ⟨16, 16, .ro, 0x0, none⟩, ⟨32, 16, .ro, 0x0, none⟩, ⟨48, 16, .ro, 0x0, none⟩]⟩,
  -- MGT_EVENT
  ⟨0x3400220, [], 0x0, [], [⟨0, 1, .w1c, 0x0, none⟩, ⟨1, 1, .w1c, 0x0, none⟩, ⟨2, 1, .w1c, 0x0, none⟩, ⟨3, 1, .w1c, 0x0, none⟩, ⟨4, 1, .w1c, 0x0, none⟩, ⟨5, 1, .w1c, 0x0, none⟩]⟩,
  -- MGT_STAGE
  ⟨0x3400228, [], 0x0, [], [⟨0, 40, .ro, 0x0, none⟩]⟩,
  -- MGT_JOINT_COMMIT
  ⟨0x35ff000, [], 0x0, [], [⟨0, 8, .wo, 0x0, none⟩, ⟨8, 2, .wo, 0x0, none⟩, ⟨16, 16, .wo, 0x0, none⟩]⟩,
  -- MGT_JOINT_STATUS
  ⟨0x35ff008, [], 0x0, [], [⟨0, 8, .ro, 0x0, none⟩, ⟨8, 2, .ro, 0x0, none⟩, ⟨10, 4, .ro, 0x0, none⟩, ⟨16, 16, .ro, 0x0, none⟩, ⟨32, 1, .ro, 0x0, none⟩, ⟨33, 1, .ro, 0x0, none⟩, ⟨34, 1, .w1c, 0x0, none⟩, ⟨35, 1, .w1c, 0x0, none⟩]⟩,
  -- MGT_JOINT_ARMED
  ⟨0x35ff010, [(0x8, 4)], 0x0, [], [⟨0, 64, .ro, 0x0, none⟩]⟩]

/-- The registers of block HIF. -/
def regTableHIF : List RegDef := [
  -- HIF_READY
  ⟨0x3600000, [], 0x0, [], [⟨0, 2, .ro, 0x0, none⟩]⟩,
  -- HIF_EVENT
  ⟨0x3600008, [], 0x0, [], [⟨0, 2, .w1c, 0x0, none⟩, ⟨2, 2, .w1c, 0x0, none⟩, ⟨4, 1, .w1c, 0x0, none⟩, ⟨5, 1, .w1c, 0x0, none⟩, ⟨6, 1, .w1c, 0x0, none⟩, ⟨7, 1, .w1c, 0x0, none⟩]⟩,
  -- HIF_PORT_STATUS
  ⟨0x3600010, [(0x8, 2)], 0x0, [], [⟨0, 1, .ro, 0x0, none⟩, ⟨1, 2, .ro, 0x0, none⟩, ⟨3, 3, .ro, 0x0, none⟩, ⟨6, 1, .ro, 0x0, none⟩, ⟨7, 16, .ro, 0x0, none⟩, ⟨23, 16, .ro, 0x0, none⟩, ⟨39, 16, .ro, 0x0, none⟩]⟩,
  -- HIF_BAY_FUNC
  ⟨0x3600100, [(0x20, 8)], 0x0, [], [⟨0, 2, .ro, 0x0, none⟩, ⟨2, 31, .ro, 0x0, none⟩, ⟨33, 31, .ro, 0x0, none⟩]⟩,
  -- HIF_BAY_APER
  ⟨0x3600108, [(0x20, 8), (0x8, 2)], 0x10, [1, 0], [⟨0, 1, .jw, 0x0, none⟩, ⟨1, 5, .jw, 0x0, none⟩, ⟨6, 28, .jw, 0x0, none⟩, ⟨34, 19, .jw, 0x0, none⟩]⟩,
  -- HIF_BAY_CTL
  ⟨0x3600118, [(0x20, 8)], 0x0, [], [⟨0, 1, .wo, 0x0, none⟩, ⟨1, 2, .ro, 0x0, none⟩]⟩,
  -- HIF_ADM_CFG
  ⟨0x3610000, [(0x40, 2)], 0x0, [], [⟨0, 1, .rw, 0x0, none⟩, ⟨1, 4, .sw, 0x4, none⟩, ⟨5, 4, .sw, 0x4, none⟩, ⟨9, 7, .sw, 0x0, none⟩, ⟨16, 8, .sw, 0x0, none⟩, ⟨24, 10, .sw, 0x0, none⟩]⟩,
  -- HIF_RING_CFG
  ⟨0x3620000, [(0x40, 64)], 0x0, [], [⟨0, 1, .rw, 0x0, none⟩, ⟨1, 4, .sw, 0x4, none⟩, ⟨5, 4, .sw, 0x4, none⟩, ⟨9, 7, .sw, 0x0, none⟩, ⟨16, 8, .sw, 0x0, none⟩, ⟨24, 10, .sw, 0x0, none⟩]⟩,
  -- HIF_ADM_SQ
  ⟨0x3610008, [(0x40, 2)], 0x0, [], [⟨6, 58, .sw, 0x0, none⟩]⟩,
  -- HIF_RING_SQ
  ⟨0x3620008, [(0x40, 64)], 0x0, [], [⟨6, 58, .sw, 0x0, none⟩]⟩,
  -- HIF_ADM_CQ
  ⟨0x3610010, [(0x40, 2)], 0x0, [], [⟨6, 58, .sw, 0x0, none⟩]⟩,
  -- HIF_RING_CQ
  ⟨0x3620010, [(0x40, 64)], 0x0, [], [⟨6, 58, .sw, 0x0, none⟩]⟩,
  -- HIF_ADM_STATUS
  ⟨0x3610018, [(0x40, 2)], 0x0, [], [⟨0, 2, .ro, 0x0, none⟩, ⟨2, 12, .ro, 0x0, none⟩, ⟨14, 12, .ro, 0x0, none⟩, ⟨26, 1, .ro, 0x1, none⟩, ⟨27, 7, .ro, 0x0, none⟩, ⟨34, 1, .ro, 0x0, none⟩, ⟨35, 1, .ro, 0x0, none⟩, ⟨36, 1, .ro, 0x0, none⟩, ⟨37, 1, .w1c, 0x0, none⟩]⟩,
  -- HIF_RING_STATUS
  ⟨0x3620018, [(0x40, 64)], 0x0, [], [⟨0, 2, .ro, 0x0, none⟩, ⟨2, 12, .ro, 0x0, none⟩, ⟨14, 12, .ro, 0x0, none⟩, ⟨26, 1, .ro, 0x1, none⟩, ⟨27, 7, .ro, 0x0, none⟩, ⟨34, 1, .ro, 0x0, none⟩, ⟨35, 1, .ro, 0x0, none⟩, ⟨36, 1, .ro, 0x0, none⟩, ⟨37, 1, .w1c, 0x0, none⟩]⟩,
  -- HIF_RING_OWN
  ⟨0x3620020, [(0x40, 64)], 0x0, [], [⟨0, 1, .sw, 0x0, none⟩, ⟨1, 5, .sw, 0x0, none⟩]⟩,
  -- HIF_JOINT_COMMIT
  ⟨0x37ff000, [], 0x0, [], [⟨0, 8, .wo, 0x0, none⟩, ⟨8, 2, .wo, 0x0, none⟩, ⟨16, 16, .wo, 0x0, none⟩]⟩,
  -- HIF_JOINT_STATUS
  ⟨0x37ff008, [], 0x0, [], [⟨0, 8, .ro, 0x0, none⟩, ⟨8, 2, .ro, 0x0, none⟩, ⟨10, 4, .ro, 0x0, none⟩, ⟨16, 16, .ro, 0x0, none⟩, ⟨32, 1, .ro, 0x0, none⟩, ⟨33, 1, .ro, 0x0, none⟩, ⟨34, 1, .w1c, 0x0, none⟩, ⟨35, 1, .w1c, 0x0, none⟩]⟩,
  -- HIF_JOINT_ARMED
  ⟨0x37ff010, [(0x8, 4)], 0x0, [], [⟨0, 64, .ro, 0x0, none⟩]⟩]

/-- The registers of block TCK. -/
def regTableTCK : List RegDef := [
  -- TCK_PERIOD
  ⟨0x3800000, [], 0x1, [], [⟨0, 14, .jw, 0x64, some (20, 10000, 1)⟩, ⟨16, 6, .jw, 0xf, some (5, 50, 1)⟩, ⟨22, 1, .jw, 0x0, none⟩]⟩,
  -- TCK_CHANGE_AT
  ⟨0x3800008, [], 0x1, [], [⟨0, 48, .jw, 0x0, none⟩]⟩,
  -- TCK_TICK
  ⟨0x3800010, [], 0x0, [], [⟨0, 48, .ro, 0x0, none⟩]⟩,
  -- TCK_TIME
  ⟨0x3800018, [], 0x0, [], [⟨0, 64, .ro, 0x0, none⟩]⟩,
  -- TCK_STATUS
  ⟨0x3800020, [], 0x0, [], [⟨0, 1, .ro, 0x0, none⟩, ⟨1, 1, .ro, 0x0, none⟩, ⟨2, 1, .ro, 0x0, none⟩, ⟨3, 1, .ro, 0x0, none⟩, ⟨4, 15, .ro, 0x0, none⟩]⟩,
  -- TCK_OFFSET
  ⟨0x3800028, [], 0x0, [], [⟨0, 32, .ro, 0x0, none⟩, ⟨32, 16, .ro, 0x0, none⟩]⟩,
  -- TCK_SLIP_CFG
  ⟨0x3800030, [], 0x2, [], [⟨0, 24, .jw, 0x2710, some (1, 16777215, 1)⟩]⟩,
  -- TCK_BAY_SLIP
  ⟨0x3800040, [(0x8, 8)], 0x2, [0], [⟨0, 16, .jw, 0x10, none⟩, ⟨16, 16, .ro, 0x0, none⟩, ⟨32, 16, .ro, 0x0, none⟩, ⟨48, 1, .ro, 0x0, none⟩]⟩,
  -- TCK_EVENT
  ⟨0x3800080, [], 0x0, [], [⟨0, 8, .w1c, 0x0, none⟩, ⟨8, 1, .w1c, 0x0, none⟩, ⟨9, 1, .w1c, 0x0, none⟩, ⟨10, 1, .w1c, 0x0, none⟩, ⟨11, 1, .w1c, 0x0, none⟩]⟩,
  -- TCK_SYNC_CFG
  ⟨0x3800200, [], 0x3, [], [⟨0, 1, .jw, 0x0, none⟩, ⟨1, 8, .jw, 0x80, none⟩, ⟨9, 10, .jw, 0x7d, some (16, 1000, 1)⟩, ⟨19, 5, .jw, 0x1, some (1, 31, 1)⟩, ⟨24, 8, .jw, 0x0, none⟩]⟩,
  -- TCK_TC_PORTS
  ⟨0x3800208, [], 0x3, [], [⟨0, 50, .jw, 0x0, none⟩]⟩,
  -- TCK_SYNC_STATUS
  ⟨0x3800210, [], 0x0, [], [⟨0, 6, .ro, 0x3f, none⟩, ⟨6, 6, .ro, 0x0, none⟩, ⟨12, 1, .ro, 0x0, none⟩, ⟨13, 8, .ro, 0x0, none⟩, ⟨21, 1, .ro, 0x0, none⟩, ⟨22, 8, .ro, 0x0, none⟩]⟩,
  -- TCK_JOINT_COMMIT
  ⟨0x3800100, [], 0x0, [], [⟨0, 8, .wo, 0x0, none⟩, ⟨8, 2, .wo, 0x0, none⟩, ⟨16, 16, .wo, 0x0, none⟩]⟩,
  -- TCK_JOINT_STATUS
  ⟨0x3800108, [], 0x0, [], [⟨0, 8, .ro, 0x0, none⟩, ⟨8, 2, .ro, 0x0, none⟩, ⟨10, 4, .ro, 0x0, none⟩, ⟨16, 16, .ro, 0x0, none⟩, ⟨32, 1, .ro, 0x0, none⟩, ⟨33, 1, .ro, 0x0, none⟩, ⟨34, 1, .w1c, 0x0, none⟩, ⟨35, 1, .w1c, 0x0, none⟩]⟩,
  -- TCK_JOINT_ARMED
  ⟨0x3800110, [(0x8, 4)], 0x0, [], [⟨0, 64, .ro, 0x0, none⟩]⟩]

/-- The registers of block FLT. -/
def regTableFLT : List RegDef := [
  -- FLT_STATUS
  ⟨0x3a00000, [], 0x0, [], [⟨0, 9, .ro, 0x0, none⟩, ⟨9, 1, .w1c, 0x0, none⟩, ⟨10, 16, .ro, 0x0, none⟩, ⟨26, 16, .ro, 0x0, none⟩]⟩,
  -- FLT_DEAD_LAST
  ⟨0x3a00008, [], 0x0, [], [⟨0, 15, .ro, 0x0, none⟩, ⟨16, 48, .ro, 0x0, none⟩]⟩,
  -- FLT_DEAD_CLR
  ⟨0x3a00010, [], 0x0, [], [⟨0, 15, .wo, 0x0, none⟩]⟩,
  -- FLT_SISREG
  ⟨0x3a00018, [], 0x0, [], [⟨0, 39, .sw, 0x0, none⟩, ⟨39, 9, .sw, 0x0, none⟩]⟩,
  -- FLT_SUSPECT
  ⟨0x3a00020, [], 0x0, [], [⟨0, 13, .ro, 0x0, none⟩, ⟨16, 32, .ro, 0x0, none⟩, ⟨48, 16, .ro, 0x0, none⟩]⟩,
  -- FLT_THR
  ⟨0x3a00100, [], 0x1, [], [⟨0, 8, .jw, 0x2, some (1, 3, 1)⟩, ⟨8, 32, .jw, 0x15180, none⟩]⟩,
  -- FLT_THR
  ⟨0x3a00108, [], 0x1, [], [⟨0, 8, .jw, 0x3, some (1, 255, 1)⟩, ⟨8, 32, .jw, 0x258, none⟩]⟩,
  -- FLT_THR
  ⟨0x3a00110, [], 0x1, [], [⟨0, 8, .jw, 0x2, some (1, 255, 1)⟩, ⟨8, 32, .jw, 0x15180, none⟩]⟩,
  -- FLT_LANE_THR
  ⟨0x3a00120, [], 0x1, [], [⟨0, 32, .jw, 0x989680, none⟩, ⟨32, 16, .jw, 0x3c, none⟩]⟩,
  -- FLT_BAY_CFG
  ⟨0x3a10000, [(0x100, 8)], 0x10, [1], [⟨0, 1, .jw, 0x0, none⟩, ⟨1, 1, .jw, 0x1, none⟩, ⟨2, 16, .jw, 0x1, some (1, 65535, 1)⟩, ⟨18, 16, .jw, 0x64, some (1, 65535, 1)⟩, ⟨34, 1, .jw, 0x0, none⟩, ⟨35, 1, .jw, 0x0, none⟩, ⟨36, 10, .jw, 0x40, none⟩]⟩,
  -- FLT_BAY_LIST
  ⟨0x3a10008, [(0x100, 8)], 0x10, [1], [⟨0, 32, .jw, 0x0, some (0, 4294967295, 16)⟩, ⟨32, 11, .jw, 0x0, some (0, 256, 1)⟩]⟩,
  -- FLT_BAY_REPSET
  ⟨0x3a10010, [(0x100, 8)], 0x10, [1], [⟨0, 32, .jw, 0x0, some (0, 4294967295, 2)⟩, ⟨32, 11, .jw, 0x0, some (0, 1024, 1)⟩]⟩,
  -- FLT_BAY_SISTERS
  ⟨0x3a10018, [(0x100, 8)], 0x10, [1], [⟨0, 15, .jw, 0x0, none⟩, ⟨15, 1, .jw, 0x0, none⟩, ⟨16, 15, .jw, 0x0, none⟩, ⟨31, 1, .jw, 0x0, none⟩]⟩,
  -- FLT_BAY_HOST
  ⟨0x3a10020, [(0x100, 8)], 0x10, [1], [⟨0, 48, .jw, 0x0, some (0, 281474976710655, 4096)⟩]⟩,
  -- FLT_BAY_GMASK
  ⟨0x3a10028, [(0x100, 8), (0x8, 4)], 0x10, [1, 0], [⟨0, 64, .jw, 0x0, none⟩]⟩,
  -- FLT_BAY_SNAPSTAT
  ⟨0x3a10048, [(0x100, 8)], 0x0, [], [⟨0, 48, .ro, 0x0, none⟩, ⟨48, 1, .ro, 0x0, none⟩, ⟨49, 1, .ro, 0x0, none⟩, ⟨50, 1, .ro, 0x0, none⟩]⟩,
  -- FLT_BAY_CADENCE
  ⟨0x3a10050, [(0x100, 8)], 0x0, [], [⟨0, 20, .ro, 0x0, none⟩, ⟨20, 8, .ro, 0x0, none⟩, ⟨28, 16, .ro, 0x1, none⟩]⟩,
  -- FLT_BAY_STATE
  ⟨0x3a10058, [(0x100, 8)], 0x0, [], [⟨0, 1, .w1c, 0x0, none⟩, ⟨1, 1, .ro, 0x0, none⟩, ⟨2, 1, .ro, 0x0, none⟩, ⟨3, 4, .ro, 0x0, none⟩, ⟨7, 4, .ro, 0x0, none⟩, ⟨11, 3, .ro, 0x0, none⟩, ⟨14, 22, .ro, 0x0, none⟩, ⟨36, 15, .ro, 0x0, none⟩]⟩,
  -- FLT_BAY_EVENT
  ⟨0x3a10060, [(0x100, 8)], 0x0, [], [⟨0, 1, .w1c, 0x0, none⟩, ⟨1, 1, .w1c, 0x0, none⟩, ⟨2, 1, .w1c, 0x0, none⟩, ⟨3, 1, .w1c, 0x0, none⟩, ⟨4, 1, .w1c, 0x0, none⟩, ⟨5, 1, .w1c, 0x0, none⟩, ⟨6, 1, .w1c, 0x0, none⟩, ⟨7, 1, .w1c, 0x0, none⟩]⟩,
  -- FLT_JOINT_COMMIT
  ⟨0x3fff000, [], 0x0, [], [⟨0, 8, .wo, 0x0, none⟩, ⟨8, 2, .wo, 0x0, none⟩, ⟨16, 16, .wo, 0x0, none⟩]⟩,
  -- FLT_JOINT_STATUS
  ⟨0x3fff008, [], 0x0, [], [⟨0, 8, .ro, 0x0, none⟩, ⟨8, 2, .ro, 0x0, none⟩, ⟨10, 4, .ro, 0x0, none⟩, ⟨16, 16, .ro, 0x0, none⟩, ⟨32, 1, .ro, 0x0, none⟩, ⟨33, 1, .ro, 0x0, none⟩, ⟨34, 1, .w1c, 0x0, none⟩, ⟨35, 1, .w1c, 0x0, none⟩]⟩,
  -- FLT_JOINT_ARMED
  ⟨0x3fff010, [(0x8, 4)], 0x0, [], [⟨0, 64, .ro, 0x0, none⟩]⟩]

/-- The register table of the block that holds an offset (R19); empty outside every block. -/
def regTableOf (off : Nat) : List RegDef :=
  if off < 0x100000 then regTableGLB
  else if off < 0x200000 then regTablePWR
  else if off < 0x300000 then regTableSEC
  else if off < 0x400000 then regTableSCH
  else if off < 0x800000 then regTableJNL
  else if off < 0x1800000 then regTableAG
  else if off < 0x2000000 then regTableMEM
  else if off < 0x3000000 then regTableFAB
  else if off < 0x3400000 then regTableCOL
  else if off < 0x3600000 then regTableMGT
  else if off < 0x3800000 then regTableHIF
  else if off < 0x3a00000 then regTableTCK
  else if off < 0x4000000 then regTableFLT
  else []

/-- The indices of an offset within an array of registers, or none where no instance lies at the offset. -/
def matchDims : List (Nat × Nat) → Nat → Option (List Nat)
  | [], rem => if rem = 0 then some [] else none
  | (stride, count) :: ds, rem =>
    if rem / stride < count then (matchDims ds (rem % stride)).map (fun l => rem / stride :: l) else none

/-- The register instance at an offset: its definition and its indices. -/
def findReg (off : Nat) : Option (RegDef × List Nat) :=
  (regTableOf off).findSome? fun d =>
    if d.base ≤ off then (matchDims d.dims (off - d.base)).map (fun ix => (d, ix)) else none

/-- The reset value of the register at an offset, assembled from its fields (R2, R6); 0 where no register is defined (R19). -/
def resetWord (off : Nat) : Reg64 :=
  match findReg off with
  | some (d, _) => d.fields.foldl (fun acc f => acc + BitVec.ofNat 64 (f.reset <<< f.lo)) 0
  | none => 0

/-- The joint ID of the JW fields of a register instance. -/
def RegDef.jointId (d : RegDef) (ix : List Nat) : Nat :=
  d.jointBase + ((d.jointCoef.zip ix).map (fun p => p.1 * p.2)).sum

/-- The offset of the JOINT_COMMIT register of the block that holds an offset; it names the joint block (R192). -/
def jointBlockOf (off : Nat) : Nat :=
  if off < 0x200000 then 0x1FF000
  else if off < 0x400000 then 0x3FF000
  else if off < 0x800000 then 0
  else if off < 0x1800000 then 0x8FF000 + 0x100000 * ((off - 0x800000) / 0x100000)
  else if off < 0x2000000 then 0x1FFF000
  else if off < 0x3000000 then 0x2FFF000
  else if off < 0x3400000 then 0x33FF000
  else if off < 0x3600000 then 0x35FF000
  else if off < 0x3800000 then 0x37FF000
  else if off < 0x3A00000 then 0x3800100
  else 0x3FFF000

end Sys2Proof.Machine
end

