-- ==== Sys2Proof/Machine/Tab.lean ====
section
/-! DEFINITION. Sparse maps from natural numbers in one canonical form: keys strictly rising and no entry equal to what
an unlisted key reads as. Registers, memories and numbered units are all held this way. -/

namespace Sys2Proof.Machine

/-- A sparse map: a list of (key, value) pairs. -/
abbrev Tab (α : Type) := List (Nat × α)

/-- The value at a key, or what an unlisted key reads as. -/
def Tab.get {α : Type} (dflt : Nat → α) (t : Tab α) (k : Nat) : α :=
  match t.find? (fun p => p.1 == k) with
  | some p => p.2
  | none => dflt k

/-- The map with one value changed; writing the default removes the entry. -/
def Tab.put {α : Type} [DecidableEq α] (dflt : Nat → α) (t : Tab α) (k : Nat) (v : α) : Tab α :=
  t.filter (fun p => decide (p.1 < k)) ++ (if v = dflt k then [] else [(k, v)]) ++
    t.filter (fun p => decide (k < p.1))

/-- The canonical form: keys strictly rising, no entry at its default. -/
def Tab.wf {α : Type} [DecidableEq α] (dflt : Nat → α) : Tab α → Bool
  | [] => true
  | [p] => decide (p.2 ≠ dflt p.1)
  | p :: q :: rest => decide (p.2 ≠ dflt p.1) && decide (p.1 < q.1) && Tab.wf dflt (q :: rest)

end Sys2Proof.Machine
end

