-- ==== Sys2Proof/Machine/State.lean ====
section
/-! DEFINITION. The state of the C96 as plain data, the faults and refusals, and the state after power-on reset.
Registers are kept by offset; what no register shows is kept beside them, per unit. -/

namespace Sys2Proof.Machine

/-- No command of this block ends in a fault: every rule of the spec gives an effect, or the command waits. A fault would
be raised by nothing; the constructor stands for an operand list no row admits (safe). -/
inductive Fault where
  /-- Raised by nothing (safe). -/
  | impossible
  deriving DecidableEq, Repr

/-- Refusals. -/
inductive Refusal where
  /-- A command whose meaning the model does not hold yet, by its mnemonic (safe). -/
  | notModelled (mnemonic : String)
  deriving DecidableEq, Repr

/-! ### Clock, journal, joints -/

/-- Time as the model keeps it: the device's own time in ns since power-on, the time of the next tick edge, whether the edge set of the next
edge has closed (R26), µs-scale timers' bases, and the counter that numbers free values (the model's own field). -/
structure Clock where
  timeNs : Nat
  nextEdgeNs : Nat
  setClosed : Bool
  freeCtr : Nat
  resetNs : Nat        -- time of AO release or of the last warm reset (R473)
  deriving DecidableEq, Repr

/-- A journal entry (R426). -/
structure JEntry where
  seq : Nat
  time : Nat
  tick : Nat
  origin : Nat
  addrWord : Nat
  old : Nat
  new : Nat
  hash : Nat           -- bytes 48 to 63 (R428)
  deriving DecidableEq, Repr

/-- A seal record (R429): the digest it signs and the sequence of its seal entry. -/
structure SealRec where
  index : Nat
  seq : Nat
  digest : Nat
  keys : List Nat            -- IDs of the alias keys that sign it (R413)
  sig : Nat
  deriving DecidableEq, Repr

/-- An event entry not yet appended (R430). -/
structure QEvent where
  code : Nat
  addr : Nat
  detail : Nat
  merged : Nat
  origin : Nat
  deriving DecidableEq, Repr

/-- A register write held while the journal is full (R430). -/
structure HeldWrite where
  via : Via
  off : Nat
  size : Nat
  value : Nat
  deriving DecidableEq, Repr

/-- The change journal (R425 to R431). -/
structure Journal where
  entries : List JEntry      -- newest first
  seals : List SealRec       -- newest first
  held : List HeldWrite      -- oldest first
  queued : List QEvent       -- oldest first
  sealedSeq : Nat            -- entries below this sequence are covered by a seal
  consumedSeq : Nat          -- consumer sequence last read (R431)
  exportSeq : Nat            -- next entry to copy to the export ring
  exportPort : Nat           -- port of the export ring
  lastSealNs : Nat
  sealDue : Bool             -- a seal fell due while SEC restarts
  waitSince : Option Nat     -- since when writers wait for room
  earlyFrom : Nat            -- sequence of the first entry of the early buffer (R481)
  lostBelow : Nat            -- entries below this sequence were lost with the ring's contents (R13)
  deriving DecidableEq, Repr

/-- An armed joint (R192): the block's JOINT_COMMIT offset, the joint ID, the token and origin of its last arm, the edge it
is armed for. -/
structure Armed where
  block : Nat
  id : Nat
  token : Nat
  origin : Nat
  edge : Nat
  waits : Bool               -- its edge found the journal full (R430)
  deriving DecidableEq, Repr

/-- A shadow register: register offset, its shadow word, and per field (lowest bit) the origin of the last write. -/
structure Shadow where
  off : Nat
  word : Nat
  origins : List (Nat × Nat)
  deriving DecidableEq, Repr

/-- A timing change the master has committed (R37): new period, guard and skew domain and the tick it takes effect at. -/
structure TimingChange where
  period : Nat
  guard : Nat
  skew : Nat
  tick : Nat
  deriving DecidableEq, Repr

/-- Joints (R192 to R200). -/
structure Joints where
  shadows : List Shadow
  armed : List Armed
  timing : Option TimingChange
  deriving DecidableEq, Repr

/-! ### Memories -/

/-- Memories, each in the canonical form of `Tab`: the local address space below the registers (HBM and tile memory, keyed
by local address, R17) and the memories of hosts A and B (keyed by bus address). -/
structure Mems where
  loc : Tab Byte
  hostA : Tab Byte
  hostB : Tab Byte
  deriving DecidableEq, Repr

/-! ### Arrays (R65 to R107, R201 to R224) -/

/-- The key of a loaded weight tile (R77). -/
structure TileKey where
  addr : Nat
  stride : Nat
  fmtB : Nat
  transB : Nat
  k : Nat
  n : Nat
  sel : Nat
  mulFmt : Nat
  p : Nat
  split : Nat
  piece : Nat
  deriving DecidableEq, Repr

/-- A loaded weight tile: its key and its decoded rows (K rows of n elements). -/
structure Tile where
  key : TileKey
  rows : List (List Val)
  deriving DecidableEq, Repr

/-- One entry of a phase list (R203). -/
structure Phase where
  first : Nat
  count : Nat
  reps : Nat
  vstage : Nat
  deriving DecidableEq, Repr

/-- One entry of a deadline list (R204) with its hold state (R214). -/
structure Deadline where
  peg : Nat
  offset : Nat
  due : Bool
  late : Bool := false       -- its deadline_late has been judged
  deriving DecidableEq, Repr

/-- A backlog entry (R208): stage-table index, tag and age. -/
structure BackEntry where
  desc : Nat
  tag : Nat
  age : Nat
  deriving DecidableEq, Repr

/-- An operand block staged in the feeder buffer (R69): descriptor index, tag, operand, block number, decoded rows. -/
structure Staged where
  desc : Nat
  tag : Nat
  isB : Bool
  block : Nat
  bytes : Nat
  rows : List (List Val)
  deriving DecidableEq, Repr

/-- A pass in flight: its descriptor words, the cycle it started at, the cycle its output peg is incremented at, whether it
belongs to the current work (R208), and the output rows (bay offset and bytes) that still wait for room in the drain
queue (R141). Then what a pass that is still being fed needs (R69, R100): its place in the stage table and its tag, the A
blocks that have not entered yet, those that entered and wait for the rest, the weights or B pieces of each sub-pass, the bytes
of the feeder buffer it keeps of A and of B, and whether it runs checked. -/
structure PassRec where
  w0 : Nat
  w1 : Nat
  w2 : Nat
  w3 : Nat
  start : Nat
  pegCycle : Nat
  current : Bool
  rowsLeft : List (Nat × List Byte)
  mismatch : Bool
  idx : Nat := 0
  tag : Nat := 0
  more : Nat := 0
  blocks : List (List (List Val)) := []
  wts : List (List (List Val)) := []
  heldA : Nat := 0
  heldB : Nat := 0
  chk : Bool := false
  deriving DecidableEq, Repr

/-- An open OS chain (R75): class, checked bit, split value, accumulator mode (0 FP32, 1 INT32, 2 FP64), and whether its
opening OS-GEMM came from the backlog. -/
structure Chain where
  cls : Nat
  checked : Nat
  split : Nat
  mode : Nat
  skipped : Bool
  deriving DecidableEq, Repr

/-- The dispatcher record of an array: what R212 saves with a context. -/
structure Dispatcher where
  phases : List Phase
  deadlines : List Deadline
  work : List Nat          -- descriptors of the current work not yet issued, in table order (classes 0, 1, 3)
  enq : List Nat           -- class-2 descriptors of the index that wait for backlog room
  enqFull : Bool := false  -- one found the backlog full since the last edge (R208)
  backlog : List BackEntry
  outstanding : Nat        -- current-work passes issued and not completed
  index : Nat
  phase : Nat
  rep : Nat                -- repetitions of the phase already begun
  done : Bool
  advanced : Bool          -- the current index completed in time (set at action 1)
  inputsReady : Bool       -- every input peg of the index was at threshold at the last edge (R30)
  deriving DecidableEq, Repr

/-- One matrix array. -/
structure ArrayU where
  disp : Dispatcher
  active : Option Tile
  shadowT : Option Tile
  acc : Tab (BitVec 64)        -- accumulator of cell (i, j) at 128 i + j
  accChk : Tab (BitVec 64)     -- checksum column accumulators
  inflight : List PassRec      -- oldest first
  chain : Option Chain
  staged : List Staged
  draws : Tab Nat              -- stochastic numbers drawn per drain column in the step (R502)
  lastS : Nat                  -- S of the last WS pass, its m, and L, k of the last load (R77)
  lastM : Nat
  lastL : Nat
  lastK : Nat
  swapS : Nat
  freeAt : Nat                 -- earliest cycle for the next entry (R78, R101, R103)
  meshStall : Nat              -- cycles that staging waited for a mesh link and no pass has been charged with (R252)
  splitTo : Nat                -- the cycle until which a split pass keeps the array from issuing anything (R99)
  osDone : Nat                 -- the cycle after the last OS-GEMM's completion, from which a DRAIN may start (R78)
  locate : Nat                 -- 0 none, 1 requested, 2 running
  locCause : Nat
  deriving DecidableEq, Repr

/-- Per-AG units: the start arbiter (R84) and forwarded increments in flight (R123). -/
structure PegFwd where
  srcAg : Nat
  dstAg : Nat
  peg : Nat
  amount : Nat
  step8 : Nat
  bay : Nat
  deriving DecidableEq, Repr

/-- A resource FLT watches (R370): a tile-memory line, an array, an HBM row, a fabric lane. -/
inductive Resource where
  | line (ag line : Nat)
  | array (a : Nat)
  | row (unit row : Nat)
  | lane (port lane : Nat)
  deriving DecidableEq, Repr

/-- An entry of the suspect table (R370): resource, time of its first counted event in ns, count. -/
structure Suspect where
  res : Resource
  first : Nat
  count : Nat
  deriving DecidableEq, Repr

/-- What is per AG and no register shows. -/
structure AgU where
  startReq : List (Nat × Nat) -- arrays that asked for a ramp, by the cycle of the request and then by index
  lastStart : Option Nat     -- cycle of the last granted start
  remapped : Tab Nat         -- line index → 1 + spare line of its bank (R114)
  retireDue : List (Nat × Nat) -- lines to retire, with cause 0 count threshold, 1 uncorrectable
  sparesUsed : Tab Nat       -- spares used per bank
  failed : List Nat          -- failed extents
  pegDue : Bool              -- the tick peg's increment of the last edge has not been made (R120)
  hold : Nat                 -- holding level set by PWR, 0 to 96 (R378)
  pegSrc : Tab Nat           -- cause of the last increment per peg (R252): 1 HBM DMA, 2 fabric, 3 forwarded
  deriving DecidableEq, Repr

/-! ### Vector slices (R137 to R165) -/

/-- One vector slice. -/
structure VecU where
  v : Tab (BitVec 4096)
  p : Tab (BitVec 128)
  s : Tab Reg64
  pc : Nat
  rep : Nat
  prog : List Reg64
  copying : Option (List Reg64)
  dq : List (BitVec 4096)
  draws : Tab Nat
  running : Bool
  deriving DecidableEq, Repr

/-! ### DMA engines (R130 to R133) -/

/-- A DMA descriptor in flight. -/
structure DmaRec where
  id : Nat                   -- its place in the order of starts of the engine
  w0 : Nat
  w1 : Nat
  w2 : Nat
  w3 : Nat
  deriving DecidableEq, Repr

/-- One DMA engine. -/
structure DmaU where
  rep : Nat
  started : Nat              -- descriptors started since the step start
  inflight : List DmaRec     -- oldest first
  running : Bool
  deriving DecidableEq, Repr

/-! ### Bays and contexts (R166 to R253) -/

/-- An HBM region of a bay (R181). -/
structure Region where
  vbase : Nat
  size : Nat
  page : Nat
  offset : Nat               -- the bay's HBM offset of its first byte (R261)
  deriving DecidableEq, Repr

/-- A command fetched from a ring (R438 to R443): the ring (0 to 63 context rings, 64 and 65 the admin rings), its command
ID, the SQ head after its fetch, and its 64 bytes. -/
structure Cmd where
  ring : Nat
  id : Nat
  sqHead : Nat
  entry : BitVec 512
  deriving DecidableEq, Repr

/-- A completion entry that waits (R441): command ID, SQ head, status, result. -/
structure Cpl where
  id : Nat
  sqHead : Nat
  status : Nat
  result : Nat
  deriving DecidableEq, Repr

/-- A ring, beside its registers (R438 to R442): SQ tail last rung, CQ head last rung, completions posted and not consumed,
commands fetched and not started, started and not completed, completions held, completions not yet signalled and the time of
the first of them, a doorbell held while a control core restarts, and commands whose completion is to be dropped (R449). -/
structure RingU where
  tail : Nat
  cqHead : Nat
  cqUsed : Nat
  fetched : List Cmd         -- oldest first
  started : List Cmd
  held : List Cpl            -- oldest first
  unsent : Nat
  firstNs : Nat
  heldTail : Option Nat      -- SQ tail and CQ head of doorbells held while a control core restarts (R402, R439)
  heldHead : Option Nat
  dropped : List Cmd
  deriving DecidableEq, Repr

/-- The running or pre-empted step of a context. -/
structure StepRec where
  ctx : Nat
  cmd : Cmd
  startTick : Nat
  no : Nat                   -- its own step number (R52, R230)
  measured : Nat
  seed : Nat                 -- the bay seed in effect at the step start (R52)
  preempted : Bool
  draining : Bool
  preempts : Nat
  urgent : Nat
  restored : Bool
  overSeen : Bool
  early : Option Nat         -- status of an early end
  own : Nat
  upstream : Nat
  mism : Nat
  waits : List Nat           -- waiting cycles: HBM, mesh, fabric, power, other (R252)
  saveUs : Nat
  restoreUs : Nat
  damaged : Bool
  returned : Bool            -- a gating collective of the step returned a flag bit of 1 (R219)
  justResumed : Bool         -- no slip at the first edge after a resumption (R239)
  absorbed : Bool            -- a member of a collective instance became gone through a fault notice (R366)
  withheld : Bool            -- withholding was entered (R348, R349)
  workEdge : Option Nat      -- edge at which its work was found complete while SCH restarts (R402)
  deriving DecidableEq, Repr

/-- A raise in progress (R182): its command, its place in the order of admission, the staged image, the edge it commits at,
and the time its reservation first waited for a thaw or for zeroed pages (R184). -/
structure RaiseRec where
  cmd : Cmd
  order : Nat
  image : List Byte
  reserved : Bool
  commitEdge : Option Nat
  waitNs : Option Nat
  deriving DecidableEq, Repr

/-- A switch in progress (R247): the chosen context, the context being saved, and the edge whose set was open when the
restore ended. -/
structure SwitchRec where
  inn : Nat
  out : Option Nat
  doneEdge : Option Nat
  deriving DecidableEq, Repr

/-! ### Fabric ports, packets and streams (R275 to R325) -/

/-- A sequenced flit in a port's retry buffer (R286, R287): link sequence, class, and the kind of credit it took. -/
structure Flit where
  seq : Nat
  tc : Nat
  shared : Bool
  resent : Nat               -- resends without progress
  deriving DecidableEq, Repr

/-- What a packet that waits for its acknowledgement belongs to. -/
inductive Owner where
  | none
  /-- A TOKEN_REQ. -/
  | token
  /-- A WRITE of a DMA descriptor: engine and descriptor. -/
  | dma (eng id : Nat)
  /-- A READ_REQ of a DMA descriptor and the bay address its data goes to. -/
  | dmaRead (eng id va : Nat)
  /-- A WRITE of a host command. -/
  | host (cmd : Cmd)
  /-- A READ_REQ of a host command and the bay address its data goes to. -/
  | hostRead (cmd : Cmd) (va : Nat)
  /-- A snapshot packet of a bay to its sister (0 or 1). -/
  | snap (bay sister : Nat)
  /-- A collective packet of a bay's instance to a member. -/
  | coll (bay tbl step dst : Nat)
  /-- A read of a refill chunk, and the bay address its data goes to. -/
  | refill (bay chunk va : Nat)
  deriving DecidableEq, Repr

/-- A packet held until it is acknowledged (R293, R294). -/
structure SentPkt where
  pkt : Packet
  sentNs : Nat
  tries : Nat
  owner : Owner
  got : List Nat             -- offsets of the data that has come, of a READ_REQ
  deriving DecidableEq, Repr

/-- A packet in a receive buffer (R286, R297): its number, its priority on an ETHERNET port, and its flits by the credits they
were sent on, reserved per class and then shared. -/
structure BufPkt where
  id : Nat
  prio : Nat
  flits : List Nat
  deriving DecidableEq, Repr

/-- A packet delivered to this device, with its arrival port and its number in the receive buffer. -/
structure InPkt where
  port : Nat
  pkt : Packet
  buf : Option Nat
  deriving DecidableEq, Repr

/-- A packet queued for a port, with the destination MAC of its frame on an ETHERNET port. -/
structure QPkt where
  pkt : Packet
  mac : Nat
  buf : Option Nat           -- the received packet it passes on
  deriving DecidableEq, Repr

/-- A stream as its destination sees it (R293): next sequence expected in order, sequences received beyond it, packets to
acknowledge, and the time of the first of them. -/
structure RxStream where
  next : Nat
  beyond : List Nat
  due : Nat
  firstNs : Nat
  deriving DecidableEq, Repr

/-- One port, beside its registers. -/
structure PortU where
  stateNs : Nat              -- when it entered its state
  lanes : Nat                -- lanes with signal
  retiring : Option Nat      -- lane of a retirement under way
  reqNs : Option Nat         -- when its RETIRE request was last sent
  returning : Bool           -- on its way back from WITHDRAWN (R299)
  disabling : Bool           -- going to DISABLED because admin_en was written 0
  txSeq : Nat
  rxSeq : Nat
  unrep : Nat                -- sequenced flits received and not reported
  unrepNs : Nat
  nakSent : Bool
  retry : List Flit          -- oldest first
  progressNs : Nat
  peerRsv : List Nat         -- credits the peer gave: reserved per class, then shared
  used : List Nat            -- credits in use: reserved per class, then shared
  lastCum : List Nat         -- last cumulative counts received
  freed : List Nat           -- cumulative counts returned to the peer
  owed : Bool                -- credits returned that no ACK_CREDIT has reported
  buffer : List BufPkt       -- packets in the receive buffer
  queue : List QPkt
  paused : Nat               -- priorities paused by PFC
  pausing : Nat              -- priorities this end pauses by PFC
  hbCount : Nat
  hbSentNs : Nat
  hbNs : Option Nat          -- last heartbeat of a DIRECT peer
  hbPeers : Tab Nat          -- ETHERNET: 1 + time of the last heartbeat per peer
  deadPeers : List Nat
  accepted : Bool            -- this port accepts the peer's last record
  matched : Bool             -- the peer reported a match
  recordNs : Nat             -- when the record was last sent
  deficit : List Nat         -- deficit counters of TC0 to TC5, and of TC6 beyond its limit
  turn : Nat                 -- class whose turn it is
  winFlits : Nat             -- flits of the current window of 64, and TC6 flits with priority in it
  winTc6 : Nat
  bayDeficit : List Nat      -- deficit counters of the bays
  bayTurn : Nat              -- bay whose turn it is
  txPn : List Nat            -- next packet number of the transmit associations
  rxPn : List Nat            -- next packet number expected on the receive associations
  lastRecord : Nat           -- the handshake record last sent
  want : Option Nat          -- lane of this end's own RETIRE request, 0xFF where the port goes down
  laneDue : List Nat         -- lanes FLT has found lasting faults on
  toRecord : Option Nat      -- lane to enter in the board record once the port is ACTIVE again
  trained : Bool             -- its lanes kept their lock over a warm reset (R483)
  deriving DecidableEq, Repr

/-- The last announcement received on a port (R319). -/
structure Ann where
  prio : Nat
  noPps : Nat
  id : Nat
  dist : Nat
  nonTc : Bool
  sender : Nat
  ns : Nat
  deriving DecidableEq, Repr

/-- Tick synchronisation (R319 to R324). -/
structure SyncU where
  anns : Tab (Option Ann)    -- per port and sender: 32,768 × port + sender
  annNs : Nat
  annSeq : Nat
  req : Option (Nat × Nat)   -- port and t1 of the SYNC_REQ that waits for its answer
  ptp : Option (Nat × Nat)   -- t1 and t2 of the last Sync
  delayT3 : Option Nat
  measNs : Nat
  outside : Nat              -- consecutive measurements outside the bound
  short : Bool               -- synced was cleared under R38
  jump : Option Int          -- a correction of more than 1 µs that waits for an edge
  everSynced : Bool
  edges : List Byte          -- the edges an ETHERNET parent told before the first measurement
  parentId : Nat             -- the parent device
  begun : Option Nat         -- when synchronisation began (start-up step 11)
  ppsNs : Option Nat
  ppsGood : Nat
  deriving DecidableEq, Repr

/-- The fabric beside its ports. -/
structure FabU where
  ports : Tab PortU
  inbox : List InPkt            -- delivered packets, oldest first
  bufSeq : Nat                  -- number of the next packet taken into a receive buffer
  sent : List SentPkt           -- oldest first
  waiting : List (Packet × Owner) -- packets that wait for room in the resend area
  nextSeq : Tab Nat             -- per stream: 8 × destination + class
  rx : Tab RxStream             -- per stream: 8 × source + class
  bcastSeq : Nat
  seen : List (Nat × Nat × Nat) -- broadcasts: source, sequence, time
  sync : SyncU
  deriving DecidableEq, Repr

/-! ### Fault tolerance (R351 to R372) -/

/-- A slot of the sister region (R355): requester, tag, base, bytes, list size, the version each generation holds, and which
is newest. -/
structure Slot where
  dev : Nat
  tag : Nat
  base : Nat
  bytes : Nat
  listBytes : Nat
  buildId : Nat
  gen0 : Option Nat
  gen1 : Option Nat
  newest : Option Nat
  deriving DecidableEq, Repr

/-- A bind to one sister (R354): attempts, time of the last one, the sister's feed and rack, its slot, and the generation the
next snapshot goes to. -/
structure Bind where
  dev : Option Nat
  tries : Nat
  sentNs : Nat
  feed : Nat
  slotBase : Nat
  gen : Nat
  deriving DecidableEq, Repr

/-- A snapshot under way (R356, R357): its version, its header, the tick it started at, whether it is still read, gate-wait
ticks it caused, the destinations (0 and 1 the sisters, 2 the host) that still wait, and the commands that asked for it. -/
structure Snap where
  version : Nat
  header : List Byte
  startTick : Nat
  reading : Bool
  gateTicks : Nat
  dests : List Nat
  failed : Bool
  key : Option Nat           -- the key it began with
  cmds : List Cmd
  deriving DecidableEq, Repr

/-- A refill under way (R367 to R369). -/
structure Refill where
  cmd : Cmd
  begun : Bool               -- no step of the bay ran or was pre-empted any more
  src : Option Nat           -- the source asked or read from
  sources : List Nat         -- sources not yet tried, in order
  srcVersion : Nat
  slotVersion : Nat
  slotBase : Nat
  left : List Nat            -- chunks still to read, the first being read
  live : List Byte           -- the bay state record of the source's live bay
  slotRec : List Byte        -- that of the failed device's slot
  deriving DecidableEq, Repr

/-- What FLT keeps per bay beside registers. -/
structure FltBay where
  binds : List Bind          -- sisters 0 and 1
  snap : Option Snap
  cmds : List Cmd            -- SNAPSHOT commands that wait
  hostGen : Nat
  everDone : Bool
  measured : List Nat        -- measured ticks of the last 16 closed steps, newest first
  refill : Option Refill
  chunks : List (Nat × Nat × Nat)  -- the refill journal: chunk, source, version
  dropEdge : Option Nat
  dropEnd : Bool             -- the step ends at the next edge
  holder : Option Nat        -- device that reads from the bay (refill_hold)
  asks : List Packet         -- REFILL_REQs that wait for the step's close
  deriving DecidableEq, Repr

/-- FLT beside its registers. -/
structure FltU where
  dead : List Nat            -- oldest first
  deaths : List (Nat × Nat)  -- device and time of each kind-0 notice
  noticeSeq : Nat
  timers : List Nat          -- times of fault notices whose 6 µs have not passed
  slots : List Slot
  bays : Tab FltBay
  deriving DecidableEq, Repr

/-! ### Collectives (R326 to R350) -/

/-- A segment that a member reduces: slice, segment, present contributions, their number (deferred ones included), flag. -/
structure Seg where
  slice : Nat
  seg : Nat
  present : List Nat
  count : Nat
  flag : Bool
  closed : Bool
  deriving DecidableEq, Repr

/-- An open instance (R326, R332): the bay, the table index, the low 16 bits of the step, the descriptor and its tables. -/
structure Inst where
  bay : Nat
  tbl : Nat
  step : Nat
  desc : List Nat            -- w0 to w7
  members : List Nat
  counts : List Nat
  t0 : Option Nat            -- the tick the own step started at, once it has
  issued : Bool
  sending : Bool             -- the own sending has been done
  segs : List Seg            -- segments it reduces
  landed : List (Nat × Nat)  -- slices or blocks and segments that have landed or are lost
  blocks : Tab (Option Nat)  -- ALL_TO_ALL: the count of each sender's block
  standIn : Option (Nat × Nat) -- slice stood in for, and the edge it was learned at
  flags : Bool               -- OR of the flags of the segments written
  lost : Bool
  defer : List (Nat × Nat × Bool) -- deferred contributions: segment, number, flag
  gaveUp : Bool
  deriving DecidableEq, Repr

/-- The collective engine beside its registers. -/
structure ColU where
  insts : List Inst          -- oldest first
  waits : List (Nat × Nat × Nat) -- openings that wait for a free instance (bay, table index, step)
  done : List (Nat × Nat × Nat)  -- instances of the current steps that have completed
  closed : List Inst         -- completed instances, kept for late contributions until the next step's opens
  left : List (Nat × Nat × Nat × Nat)  -- members gone by LEAVE, NO_TAG or a failed packet: bay, table index, step, member
  deriving DecidableEq, Repr

/-! ### Contexts and bays -/

/-- What a context's save region holds (R247). -/
structure SavedState where
  mid : Bool
  pegs : Tab Reg64
  dmaReps : Tab Nat
  arrays : Tab ArrayU
  slices : Tab VecU
  dma : Tab DmaU
  fields : List (Nat × Nat × Nat × Nat)  -- register fields of the step, as offset, low bit, width and value (R212, R247)
  area : Tab Byte            -- context area, by tile-memory offset
  stamp : Nat                -- the number of the free bytes that the save left in the save region
  deriving DecidableEq, Repr, Inhabited

end Sys2Proof.Machine

/-- The context state that a restore finds where anything but the device altered the save region, by the number of the event
(R247: undefined). -/
opaque Sys2Proof.Config.freeContext (n : Nat) : Sys2Proof.Machine.SavedState

namespace Sys2Proof.Machine

/-- One context (R232 to R250), beside its registers. -/
structure CtxU where
  waitingSince : Option Nat  -- edge whose set its waiting command or step arrived in
  susReq : List (Cmd × Nat)  -- PREEMPTs that wait, with the edge they were admitted to
  pre : Option StepRec       -- its pre-empted step
  saved : Option SavedState
  deriving DecidableEq, Repr

/-- One bay, beside its registers. -/
structure BayU where
  extMap : Tab Nat           -- extent-map index → 1 + 96 × AG + extent (R111, R176)
  regions : List Region
  chans : List Nat
  chanLen : Nat              -- L of R261
  pegInit : List (Nat × Nat × Nat)  -- (AG, peg, value) of PEG_INIT (R177)
  tileData : List (Nat × Nat) -- tile-memory offset and length of each TILE_DATA section that the raise loaded (R205)
  periodUs : Nat             -- compiled period and guard (R28)
  guardPct : Nat
  kind1 : List (Nat × Nat)   -- REG_JOINTS kind-1 entries: bay-0 offset and value (R180)
  lightOk : Bool
  step : Option StepRec
  raise : Option RaiseRec
  strike : List Cmd          -- STRIKEs that wait for the bay
  strikeEdge : Option Nat    -- edge a STRIKE was admitted to
  released : Bool            -- the release of a strike has been done; the scrub runs
  switch : Option SwitchRec
  encKey : Option Nat        -- key material in the bay's slot (R272)
  overNow : Bool             -- over as it stood after action 1 of the latest edge (R34)
  lossSeen : Nat             -- ports lost since the raise or thaw (R450)
  thawEdge : Option Nat
  digest : Nat               -- SHA-384 of the bent's signed content, measured by SEC (R423)
  deriving DecidableEq, Repr

/-! ### Firmware (R397 to R408) -/

/-- An image of a bundle (R403): security version, firmware level, interface level and lowest accepted level. -/
structure FwImage where
  secVer : Nat
  level : Nat
  ifLevel : Nat
  ifMin : Nat
  deriving DecidableEq, Repr

/-- A bundle: its level and its SEC, PWR, SCH and CC images. -/
structure Bundle where
  level : Nat
  images : List FwImage
  deriving DecidableEq, Repr

/-! ### The board record (R415 to R417) -/

/-- The board record in the flash: what the manufacturing and owner sections hold, and the field section the device itself
writes. It survives every reset. -/
structure Board where
  mfgValid : Bool
  serial : Nat
  variant : Nat
  keyIds : List Nat          -- key IDs of SEC_IDENT, SEC_IDENT2, SEC_IDENT3
  envCapW : Nat
  upMax : Nat
  dnMax : Nat
  peakW : Nat
  macBase : Nat
  ownerValid : Bool
  ownerKeys : List Nat       -- key IDs of SEC_OWNER0, SEC_OWNER1
  epoch : Nat
  coords : Option (Nat × Nat × Nat)
  selfAssign : Bool
  rack : Nat
  masterEn : Bool
  adminEn : Nat              -- bit p: admin_en of port p
  siteEn : Bool
  envW : Nat
  ownUpMax : Option Nat
  ownDnMax : Option Nat
  generation : Nat
  aPhys : Nat
  arrRepair : Tab Reg64      -- REPAIR word of array a
  lines : List (Nat × Nat × Nat)  -- (AG, line, spare)
  extents : List (Nat × Nat) -- failed extents (AG, extent)
  rows : List (Nat × Nat)    -- (row, 0 sPPR or 1 + remap entry)
  lanes : List (Nat × Nat)   -- (port, lane)
  chans : List Nat           -- failed channels
  disabledAgs : Nat
  disabledStacks : Nat
  sisreg : Reg64
  due : Nat                  -- field updates that wait for SEC (R417)
  slots : List Bundle        -- the bundles of firmware slots 0 and 1 (R403)
  sysId : Nat                -- system and tick domain IDs of a device that assigns itself (R306)
  domId : Nat
  rollback : List Nat        -- flash counters 0 to 3 (R416)
  hbmSet : List Nat          -- HBM training settings of each stack (R274)
  mgt : List (Nat × Reg64)   -- management MAC address, PLCA, peer and filter settings, by register offset (R468)
  deriving DecidableEq, Repr

/-! ### Power (R373 to R395) -/

/-- A coordinator heard (R382): its priority and ID, its token size in 1/16 W, when it was heard, and on which path: 1 the fabric,
2 the management port. -/
structure Coord where
  prio : Nat
  dev : Nat
  tokW : Nat
  ns : Nat
  path : Nat
  deriving DecidableEq, Repr

/-- What PWR and the governor keep beside registers. -/
structure PwrU where
  gain : Nat                 -- calibration gain g, in 1/65,536
  draw : Nat                 -- D of the last interval; this and every draw below in µW
  eff : Nat                  -- E_eff in force
  thermal : Option Nat       -- thermal limit
  raws : List (Nat × Nat)    -- uncalibrated estimate and intervals of the last 10 ms by ms, newest first
  want : Nat                 -- what work would draw in the last interval
  hold : Nat                 -- holding load in the last interval
  tickSum : Nat              -- sums over the tick: draw, holding load, intervals, intervals with work withheld under rule 1
  tickHold : Nat
  tickN : Nat
  tickHeld : Nat
  heldAgs : Nat              -- AGs with a start withheld in the tick
  below : Nat                -- consecutive ticks below 0.90 of E_eff
  throttling : Bool
  validNs : Nat              -- last valid regulator reading
  calFault : Bool
  goodNs : Option Nat        -- since when readings are valid again
  overNs : Option Nat        -- since when the measured power exceeds E_eff by 10 %
  causeNs : Nat              -- last cause of POWER mode
  coolNs : Option Nat        -- since when the hottest junction is below 100 °C
  trip : Bool                -- the thermal trip is latched
  hotCap : Nat               -- bit s: the bandwidth of stack s is capped at 8/16 because it is hot (R394)
  clockUp : Option Nat       -- time at which VOUT_COMMAND asked for a higher clock state, and whether it is to be asked again
  clockAgain : Bool
  shortfall : Nat            -- unfilled frost energy below 1 J, pJ
  window : Nat               -- token window that has begun
  rise : Nat                 -- rise in it
  token : Nat                -- grant held for it
  forcedW : Nat              -- forced rise in it, and the origin of the STEP
  forcedBy : Nat
  grants : List (Nat × Nat)  -- window and draw granted
  asked : Option (Nat × Nat) -- windows asked for, and the window the request was last sent in
  waited : Nat
  reqSeq : Nat
  heard : List Coord         -- coordinators heard
  coordNs : Nat              -- last COORD_ANNOUNCE sent
  coordSeq : Nat
  queue : List (Nat × Nat × Nat)  -- requests: device, path, windows wanted, in order of first arrival
  deriving DecidableEq, Repr

/-! ### Firmware operations and SEC -/

/-- An activation or revert under way (R405 to R407): whether it is to role B, its origin, and the core restarting for it. -/
structure FwJob where
  toB : Bool
  origin : Nat
  now : Option Nat
  deriving DecidableEq, Repr

/-- The restart controller and the firmware operations beside registers. -/
structure FwU where
  times : Tab (List Nat)     -- counted restarts of each core, in ns, newest first (R401)
  begun : Tab Nat            -- 1 + time at which the core's restart began
  job : Option FwJob
  stage : Option Via         -- the path a stage op came by
  restarts : List Nat        -- cores of a restart op still to be restarted
  secWait : List (Via × Nat) -- SEC_CMD ops that wait for SEC
  deriving DecidableEq, Repr

/-- SEC beside registers: installed MACsec keys by 6 × port + association, secured sessions per transport (DOE A, DOE B,
management, fabric), insecure IDE streams, SPDM requests that wait for SEC. -/
structure SecU where
  macsec : Tab (Option Nat)
  sessions : Tab Nat
  insecure : List (Nat × Nat)
  spdm : List (SpdmPath × Nat × List Byte)
  tdiLocked : List (Nat × Nat)  -- port and VF whose TDI is in CONFIG_LOCKED or RUN
  deriving DecidableEq, Repr

/-! ### The management port (R454 to R468) -/

/-- A frame queued for sending, with the attempts made. -/
structure TxFrame where
  frame : Frame
  attempts : Nat
  deriving DecidableEq, Repr

/-- The management MAC and agent beside registers. -/
structure MgtU where
  tx : Tab (List TxFrame)    -- transmit queues 0 to 3
  rx : Tab (List Frame)      -- receive queues 0 to 3
  onAir : Option (Nat × TxFrame)  -- an attempt that meets a collision, with its queue
  backoff : Option Nat       -- end of the back-off
  turn : Nat                 -- frames the node may still send in this PLCA cycle
  beaconNs : Nat
  kept : Tab (Option (Nat × Frame))  -- per peer: sequence and answer of its last request (R466)
  delayed : List (Nat × Nat × Packet)  -- DISCOVERs to a group address: time, requester, packet (R463)
  dropped : Nat              -- transmit frames dropped by mac_en = 0 (R468)
  deriving DecidableEq, Repr

/-! ### Start-up (R470 to R485) -/

/-- Start-up beside registers: whether AO is released, the step in progress, whether start-up has stopped, whether ACLK failed
to lock in time, the time of the step's begin, and the warm reset that waits for the thermal trip. -/
structure BootU where
  released : Bool
  step : Nat
  halted : Bool
  noLock : Bool
  stepNs : Nat
  warmWait : Option (Nat × Nat)  -- last_reset code and origin
  hbmDone : Bool                 -- HBM training of this start-up has ended
  early : Bool               -- the journal goes to the early buffer (R481)
  chans : List Nat           -- the usable channels at the end of step 7, ascending (R259)
  deriving DecidableEq, Repr

/-- What the device sends out: interrupts, packets, frames, pins, telemetry events. -/
inductive Output where
  | telemetry (code : Nat) (args : List Nat)
  | msix (port func vector : Nat)
  /-- A control flit on a DIRECT port: kind and body (R284). -/
  | flit (port kind : Nat) (body : List Byte)
  /-- A packet on a DIRECT port. -/
  | packet (port : Nat) (pkt : Packet)
  /-- A packet in a frame on an ETHERNET port, with the SCI of a protected one (R296, R298). -/
  | ethFrame (port : Nat) (hdr : FrameHdr) (sci : Nat) (pkt : Packet)
  /-- An IEEE 1588 event message on an ETHERNET port (R322): MAC, domainNumber, message type and timestamp. -/
  | ptp (port mac domain type t : Nat)
  /-- A PFC pause or release (R297). -/
  | pfc (port prio : Nat) (pause : Bool)
  /-- INIT flits with the credit counts of this end (R279). -/
  | initFlits (port : Nat) (counts : List Nat)
  /-- The resend of the flits of the retry buffer from a sequence on (R287). -/
  | resend (port seq count : Nat)
  /-- A DISCOVER_REPLY that has reached the manager that asked (R311). -/
  | toManager (pkt : Packet)
  /-- A frame on the management segment, and a jam. -/
  | frame (f : Frame)
  | jam
  | beacon
  /-- A PMBus command to every regulator concerned, and its value (R376, R489). -/
  | pmbus (cmd value : Nat)
  /-- THERMTRIP_N is driven low (R393). -/
  | thermtrip
  /-- An in-band interrupt on I3C (R495). -/
  | i3cInterrupt
  /-- An SPDM answer to a requester (R421, R422). -/
  | spdm (path : SpdmPath) (requester : Nat) (answer : List Byte)
  deriving DecidableEq, Repr

/-! ### The device -/

/-- Everything but the queue of waiting commands. -/
structure Dev where
  regs : Tab Reg64           -- every register of the register space, by offset
  clk : Clock
  jnl : Journal
  jt : Joints
  mem : Mems
  arr : Tab ArrayU
  ag : Tab AgU
  fwd : List PegFwd
  vec : Tab VecU
  dma : Tab DmaU
  bay : Tab BayU
  ctx : Tab CtxU
  ring : Tab RingU
  unmapped : List (Nat × Nat × Nat × Nat)  -- (port, function, base, length) with no translation (R437)
  snap : Tab Reg64           -- the registers at action 2 of the latest edge, and its tick (R446)
  snapMissing : List Nat     -- AGs whose snapshot of the latest edge is missing, their control core restarting (R402)
  snapTick : Nat
  snapKeys : Tab (Option Nat) -- job snapshot key per fabric tag (R358, R420)
  keySeq : Tab Nat           -- 1 + last key-package sequence accepted per target kind (R420)
  board : Board
  rowDue : List (Nat × Nat)  -- HBM rows to repair, with cause 0 count threshold, 1 uncorrectable (R269)
  sppr : List (Nat × Nat)    -- (channel, bank) whose sPPR resource is used
  remaps : Tab Nat           -- remap entries used per channel
  dirty : List (Nat × Nat)   -- HBM 2 MiB units (first, count) that wait to be zeroed (R263)
  suspects : List Suspect    -- oldest first
  fab : FabU
  flt : FltU
  col : ColU
  pwr : PwrU
  fw : FwU
  sec : SecU
  mgt : MgtU
  boot : BootU
  pcieUp : Nat               -- bit p: PERST_N of PCIe port p has gone high (R448)
  i3cAddr : Nat              -- I3C address: static 0x5C, then the dynamic one (R495)
  i3cPage : List Byte        -- the 32-byte I3C page as last refreshed
  out : List Output
  deriving DecidableEq, Repr

/-- The state: the device and the commands that wait, first in, first out. -/
structure State where
  dev : Dev
  pending : List Instr
  deriving DecidableEq, Repr

/-! ### Reset values -/

/-- An array after reset: nothing loaded, accumulators zero (DESIGN CHOICE: the spec gives their reset value nowhere). -/
def ArrayU.reset : ArrayU where
  disp := { phases := [], deadlines := [], work := [], enq := [], backlog := [], outstanding := 0, index := 0, phase := 0,
            rep := 0, done := false, advanced := false, inputsReady := false }
  active := none
  shadowT := none
  acc := []
  accChk := []
  inflight := []
  chain := none
  staged := []
  draws := []
  lastS := 0
  lastM := 0
  lastL := 0
  lastK := 0
  swapS := 0
  freeAt := 0
  meshStall := 0
  splitTo := 0
  osDone := 0
  locate := 0
  locCause := 0

/-- An AG after reset. -/
def AgU.reset : AgU :=
  { startReq := [], lastStart := none, remapped := [], retireDue := [], sparesUsed := [], failed := [], pegDue := false,
    hold := 0, pegSrc := [] }

/-- A slice after reset. -/
def VecU.reset : VecU :=
  { v := [], p := [], s := [], pc := 0, rep := 0, prog := [], copying := none, dq := [], draws := [], running := false }

/-- A DMA engine after reset. -/
def DmaU.reset : DmaU := { rep := 0, started := 0, inflight := [], running := false }

/-- A ring after reset: OFF and empty. -/
def RingU.reset : RingU :=
  { tail := 0, cqHead := 0, cqUsed := 0, fetched := [], started := [], held := [], unsent := 0, firstNs := 0,
    heldTail := none, heldHead := none, dropped := [] }

/-- A context after reset. -/
def CtxU.reset : CtxU := { waitingSince := none, susReq := [], pre := none, saved := none }

/-- A bay after reset: EMPTY, owning nothing. -/
def BayU.reset : BayU where
  extMap := []
  regions := []
  chans := []
  chanLen := 0
  pegInit := []
  tileData := []
  periodUs := 0
  guardPct := 0
  kind1 := []
  lightOk := false
  step := none
  raise := none
  strike := []
  strikeEdge := none
  released := false
  switch := none
  encKey := none
  overNow := false
  lossSeen := 0
  thawEdge := none
  digest := 0

/-- A port after reset: DISABLED, nothing sent or received. -/
def PortU.reset : PortU where
  stateNs := 0
  lanes := 0
  retiring := none
  reqNs := none
  returning := false
  disabling := false
  txSeq := 0
  rxSeq := 0
  unrep := 0
  unrepNs := 0
  nakSent := false
  retry := []
  progressNs := 0
  peerRsv := List.replicate 9 0
  used := List.replicate 9 0
  lastCum := List.replicate 9 0
  freed := List.replicate 9 0
  owed := false
  buffer := []
  queue := []
  paused := 0
  pausing := 0
  hbCount := 0
  hbSentNs := 0
  hbNs := none
  hbPeers := []
  deadPeers := []
  accepted := false
  matched := false
  recordNs := 0
  deficit := List.replicate 7 0
  turn := 0
  winFlits := 0
  winTc6 := 0
  bayDeficit := List.replicate 8 0
  bayTurn := 0
  txPn := [1, 1]
  rxPn := [1, 1, 1, 1]
  lastRecord := 0
  want := none
  laneDue := []
  toRecord := none
  trained := false

/-- A stream nothing has arrived on. -/
def RxStream.reset : RxStream := { next := 0, beyond := [], due := 0, firstNs := 0 }

/-- Synchronisation after reset: nothing heard. -/
def SyncU.reset : SyncU where
  anns := []
  annNs := 0
  annSeq := 0
  req := none
  ptp := none
  delayT3 := none
  measNs := 0
  outside := 0
  short := false
  jump := none
  everSynced := false
  edges := []
  parentId := 0
  begun := none
  ppsNs := none
  ppsGood := 0

/-- The fabric after reset. -/
def FabU.reset : FabU where
  ports := []
  inbox := []
  bufSeq := 0
  sent := []
  waiting := []
  nextSeq := []
  rx := []
  bcastSeq := 0
  seen := []
  sync := SyncU.reset

/-- A bay's FLT record after reset. -/
def FltBay.reset : FltBay where
  binds := List.replicate 2 { dev := none, tries := 0, sentNs := 0, feed := 0, slotBase := 0, gen := 0 }
  snap := none
  cmds := []
  hostGen := 0
  everDone := false
  measured := []
  refill := none
  chunks := []
  dropEdge := none
  dropEnd := false
  holder := none
  asks := []

/-- FLT after reset. -/
def FltU.reset : FltU := { dead := [], deaths := [], noticeSeq := 0, timers := [], slots := [], bays := [] }

/-- The collective engine after reset. -/
def ColU.reset : ColU := { insts := [], waits := [], done := [], closed := [], left := [] }

/-- PWR and the governor after reset: gain 1, nothing drawn, no limit but the envelope. -/
def PwrU.reset : PwrU where
  gain := 65536
  draw := 0
  eff := 0
  thermal := none
  raws := []
  want := 0
  hold := 0
  tickSum := 0
  tickHold := 0
  tickN := 0
  tickHeld := 0
  heldAgs := 0
  below := 0
  throttling := false
  validNs := 0
  calFault := false
  goodNs := none
  overNs := none
  causeNs := 0
  coolNs := none
  trip := false
  hotCap := 0
  clockUp := none
  clockAgain := false
  shortfall := 0
  window := 0
  rise := 0
  token := 0
  forcedW := 0
  forcedBy := 0
  grants := []
  asked := none
  waited := 0
  reqSeq := 0
  heard := []
  coordNs := 0
  coordSeq := 0
  queue := []

/-- The management port after reset: empty queues. -/
def MgtU.reset : MgtU where
  tx := []
  rx := []
  onAir := none
  backoff := none
  turn := 0
  beaconNs := 0
  kept := []
  delayed := []
  dropped := 0

/-- The clock after reset: time 0; the first edge of the free-running tick one default period (100 µs) later (R21, R25). -/
def Clock.reset : Clock := { timeNs := 0, nextEdgeNs := 100000, setClosed := false, freeCtr := 0, resetNs := 0 }

/-- The journal after reset: empty (R426). -/
def Journal.reset : Journal where
  entries := []
  seals := []
  held := []
  queued := []
  sealedSeq := 0
  consumedSeq := 0
  exportSeq := 0
  exportPort := 0
  lastSealNs := 0
  sealDue := false
  waitSince := none
  earlyFrom := 0
  lostBelow := 0

/-- The board record before its first use: sections that verify, serial 0, unowned, nothing repaired (DESIGN CHOICE: what a
board's flash holds is the board's). -/
def Board.reset : Board where
  mfgValid := true
  serial := 0
  variant := 0
  keyIds := [0, 0, 0]
  envCapW := 1800
  upMax := 20000
  dnMax := 20000
  peakW := 2000
  macBase := 0
  ownerValid := false
  ownerKeys := [0, 0]
  epoch := 0
  coords := none
  selfAssign := false
  rack := 0
  masterEn := false
  adminEn := 0
  siteEn := false
  envW := 1800
  ownUpMax := none
  ownDnMax := none
  generation := 0
  aPhys := 0
  arrRepair := []
  lines := []
  extents := []
  rows := []
  lanes := []
  chans := []
  disabledAgs := 0
  disabledStacks := 0
  sisreg := 0
  due := 0
  slots := [{ level := 0, images := List.replicate 4 { secVer := 0, level := 0, ifLevel := 0, ifMin := 0 } },
            { level := 0, images := [] }]
  sysId := 0
  domId := 0
  rollback := [0, 0, 0, 0]
  hbmSet := List.replicate 8 0
  mgt := []

/-- The device right after power-on reset: every register at its reset value, every memory with nothing listed. -/
def Dev.reset : Dev where
  regs := []
  clk := Clock.reset
  jnl := Journal.reset
  jt := { shadows := [], armed := [], timing := none }
  mem := { loc := [], hostA := [], hostB := [] }
  arr := []
  ag := []
  fwd := []
  vec := []
  dma := []
  bay := []
  ctx := []
  ring := []
  unmapped := []
  snap := []
  snapMissing := []
  snapTick := 0
  snapKeys := []
  keySeq := []
  board := Board.reset
  rowDue := []
  sppr := []
  remaps := []
  dirty := []
  suspects := []
  fab := FabU.reset
  flt := FltU.reset
  col := ColU.reset
  pwr := PwrU.reset
  fw := { times := [], begun := [], job := none, stage := none, restarts := [], secWait := [] }
  sec := { macsec := [], sessions := [], insecure := [], spdm := [], tdiLocked := [] }
  mgt := MgtU.reset
  boot := { released := false, step := 0, halted := false, noLock := false, stepNs := 0, warmWait := none, hbmDone := false,
            early := true, chans := [] }
  pcieUp := 0
  i3cAddr := 0x5C
  i3cPage := List.replicate 32 0
  out := []

/-- The state right after reset: the device at its reset values and no command waiting. -/
def State.reset : State := { dev := Dev.reset, pending := [] }

end Sys2Proof.Machine
end

