-- ==== Sys2Proof/Machine/Ops.lean ====
section
/-! DEFINITION. The named operations on the state: registers and their fields, memories, units, the journal, output. -/

namespace Sys2Proof.Machine

/-! ### Registers -/

/-- The register at an offset. -/
def Dev.rd (d : Dev) (off : Nat) : Reg64 := Tab.get resetWord d.regs off

/-- Insert before the first element that may follow. -/
def insertBy {α : Type} (le : α → α → Bool) (x : α) : List α → List α
  | [] => [x]
  | y :: ys => if le x y then x :: y :: ys else y :: insertBy le x ys

/-- A list in order; elements that are equal in it keep their order. -/
def sortBy {α : Type} (le : α → α → Bool) (l : List α) : List α := l.foldr (insertBy le) []

/-- The device with one register changed. -/
def Dev.wr (d : Dev) (off : Nat) (v : Reg64) : Dev := { d with regs := Tab.put resetWord d.regs off v }

/-- The field of a word at bit lo of width w. -/
def fieldOf (v : Reg64) (lo w : Nat) : Nat := (v.toNat >>> lo) % 2 ^ w

/-- A word with one field replaced by the low bits of n. -/
def insField (v : Reg64) (lo w n : Nat) : Reg64 :=
  BitVec.ofNat 64 (v.toNat % 2 ^ lo + ((n % 2 ^ w) <<< lo) + ((v.toNat >>> (lo + w)) <<< (lo + w)))

/-- A register field. -/
def Dev.get (d : Dev) (f : RF) : Nat := fieldOf (d.rd f.off) f.lo f.w

/-- The device with one register field changed. -/
def Dev.set (d : Dev) (f : RF) (n : Nat) : Dev := d.wr f.off (insField (d.rd f.off) f.lo f.w n)

/-- A one-bit field as a truth value. -/
def Dev.flag (d : Dev) (f : RF) : Bool := d.get f == 1

/-- A field raised by n, held at its greatest value ("saturates"). -/
def Dev.incSat (d : Dev) (f : RF) (n : Nat) : Dev := d.set f (min (d.get f + n) (2 ^ f.w - 1))

/-- A field raised by n modulo its width ("wraps"). -/
def Dev.incWrap (d : Dev) (f : RF) (n : Nat) : Dev := d.set f (d.get f + n)

/-- Field updates in order. -/
def Dev.sets (d : Dev) (l : List (RF × Nat)) : Dev := l.foldl (fun d p => d.set p.1 p.2) d

/-- Bit b of a mask field set. -/
def Dev.setBit (d : Dev) (f : RF) (b : Nat) : Dev := d.set f (d.get f ||| 2 ^ b)

/-- Bit b of a mask field cleared. -/
def Dev.clearBit (d : Dev) (f : RF) (b : Nat) : Dev := if (d.get f).testBit b then d.set f (d.get f - 2 ^ b) else d

/-- Bit b of a mask field. -/
def Dev.bitOf (d : Dev) (f : RF) (b : Nat) : Bool := (d.get f).testBit b

/-- Two's-complement value of a field. -/
def Dev.getS (d : Dev) (f : RF) : Int := signedOf f.w (d.get f)

/-- A register returned to its reset value. -/
def Dev.resetReg (d : Dev) (off : Nat) : Dev := d.wr off (resetWord off)

/-- A field returned to its reset value. -/
def Dev.resetField (d : Dev) (f : RF) : Dev := d.set f (fieldOf (resetWord f.off) f.lo f.w)

/-! ### Units -/

def Dev.arrU (d : Dev) (a : Nat) : ArrayU := Tab.get (fun _ => ArrayU.reset) d.arr a
def Dev.putArr (d : Dev) (a : Nat) (u : ArrayU) : Dev := { d with arr := Tab.put (fun _ => ArrayU.reset) d.arr a u }
def Dev.agU (d : Dev) (n : Nat) : AgU := Tab.get (fun _ => AgU.reset) d.ag n
def Dev.putAg (d : Dev) (n : Nat) (u : AgU) : Dev := { d with ag := Tab.put (fun _ => AgU.reset) d.ag n u }
def Dev.vecU (d : Dev) (x : Nat) : VecU := Tab.get (fun _ => VecU.reset) d.vec x
def Dev.putVec (d : Dev) (x : Nat) (u : VecU) : Dev := { d with vec := Tab.put (fun _ => VecU.reset) d.vec x u }
def Dev.dmaU (d : Dev) (e : Nat) : DmaU := Tab.get (fun _ => DmaU.reset) d.dma e
def Dev.putDma (d : Dev) (e : Nat) (u : DmaU) : Dev := { d with dma := Tab.put (fun _ => DmaU.reset) d.dma e u }
def Dev.bayU (d : Dev) (b : Nat) : BayU := Tab.get (fun _ => BayU.reset) d.bay b
def Dev.putBay (d : Dev) (b : Nat) (u : BayU) : Dev := { d with bay := Tab.put (fun _ => BayU.reset) d.bay b u }
def Dev.ctxU (d : Dev) (k : Nat) : CtxU := Tab.get (fun _ => CtxU.reset) d.ctx k
def Dev.putCtx (d : Dev) (k : Nat) (u : CtxU) : Dev := { d with ctx := Tab.put (fun _ => CtxU.reset) d.ctx k u }

def Dev.ringU (d : Dev) (r : Nat) : RingU := Tab.get (fun _ => RingU.reset) d.ring r
def Dev.putRing (d : Dev) (r : Nat) (u : RingU) : Dev := { d with ring := Tab.put (fun _ => RingU.reset) d.ring r u }

def Dev.fltBay (d : Dev) (b : Nat) : FltBay := Tab.get (fun _ => FltBay.reset) d.flt.bays b

def Dev.putFltBay (d : Dev) (b : Nat) (u : FltBay) : Dev :=
  { d with flt := { d.flt with bays := Tab.put (fun _ => FltBay.reset) d.flt.bays b u } }

/-! ### Memories -/

/-- What a byte nothing has written reads as: zero (R13, R181 and R500 for tile memory and HBM pages; DESIGN CHOICE for
host memory and for HBM outside a bay). -/
def memDefault : Nat → Byte := fun _ => 0

/-- The canonical form of a memory. -/
def Memory.wf (m : Tab Byte) : Bool := Tab.wf memDefault m

/-- One byte of the local address space below the registers. -/
def Dev.byte (d : Dev) (a : Nat) : Byte := Tab.get memDefault d.mem.loc a

/-- The device with one byte of local memory changed. -/
def Dev.putByte (d : Dev) (a : Nat) (v : Byte) : Dev :=
  { d with mem := { d.mem with loc := Tab.put memDefault d.mem.loc a v } }

/-- One byte of a host's memory (port 0 A, 1 B) by bus address. -/
def Dev.hostByte (d : Dev) (port a : Nat) : Byte :=
  Tab.get memDefault (if port = 0 then d.mem.hostA else d.mem.hostB) a

/-- The device with one byte of a host's memory changed. -/
def Dev.putHostByte (d : Dev) (port a : Nat) (v : Byte) : Dev :=
  if port = 0 then { d with mem := { d.mem with hostA := Tab.put memDefault d.mem.hostA a v } }
  else { d with mem := { d.mem with hostB := Tab.put memDefault d.mem.hostB a v } }

/-- Bytes stored from an address upward. -/
def Dev.putBytes (d : Dev) : Nat → List Byte → Dev
  | _, [] => d
  | a, v :: vs => (d.putByte a v).putBytes (a + 1) vs

/-- n bytes from an address upward. -/
def Dev.bytes (d : Dev) (a n : Nat) : List Byte := (List.range n).map fun i => d.byte (a + i)

/-- Bytes stored to host memory. -/
def Dev.putHostBytes (d : Dev) (port : Nat) : Nat → List Byte → Dev
  | _, [] => d
  | a, v :: vs => (d.putHostByte port a v).putHostBytes port (a + 1) vs

/-- n bytes of host memory. -/
def Dev.hostBytes (d : Dev) (port a n : Nat) : List Byte := (List.range n).map fun i => d.hostByte port (a + i)

/-- Local address of a byte of the tile-memory slice of AG g (R108). -/
def tileBase (g : Nat) : Nat := 0x8000000000 + 0xC000000 * g

/-- Local address of extent e of AG g (R110). -/
def extentBase (g e : Nat) : Nat := tileBase g + 0x200000 * e

/-! ### Output, free values and time -/

/-- One more output. -/
def Dev.emit (d : Dev) (o : Output) : Dev := { d with out := d.out ++ [o] }

/-- The next free-value number, and the device with the counter advanced. -/
def Dev.fresh (d : Dev) : Nat × Dev :=
  (d.clk.freeCtr, { d with clk := { d.clk with freeCtr := d.clk.freeCtr + 1 } })

/-- The current tick number (R24). -/
def Dev.tick (d : Dev) : Nat := d.get TCK_TICK.tick

/-- The tick whose edge set is open: the next edge, or the one after it once the set has closed (R26). -/
def Dev.openEdge (d : Dev) : Nat := d.tick + (if d.clk.setClosed then 2 else 1)

/-- Global time in ns (R25): the device's own count, moved by the jumps of tick synchronisation. -/
def Dev.gtime (d : Dev) : Nat := d.get TCK_TIME.time_ns

/-- The device's own time advanced to a given ns count; global time advances by as much. -/
def Dev.setTime (d : Dev) (ns : Nat) : Dev :=
  ({ d with clk := { d.clk with timeNs := ns } }).set TCK_TIME.time_ns (d.gtime + (ns - d.clk.timeNs))

/-- One nanosecond passes while no command waits, never past the next edge (the model's own reading of an idle queue). -/
def Dev.idle (d : Dev) : Dev :=
  if d.clk.timeNs < d.clk.nextEdgeNs then d.setTime (d.clk.timeNs + 1) else d

/-- The step on an empty queue. -/
def idle (s : State) : State := { s with dev := s.dev.idle }

/-- A command's effect on the device; the queue stays as it is. -/
def onDev (s : State) (f : Dev → Dev) : Host.Outcome State Fault Refusal := .next { s with dev := f s.dev }

/-! ### Bays and AGs -/

/-- The bay that owns AG n: the bay whose ag_mask holds bit n, in any state but EMPTY (R166). -/
def Dev.bayOfAg (d : Dev) (n : Nat) : Option Nat :=
  (List.range 8).find? fun b => d.get (SCH_BAY_STATE.state b) != 0 && d.bitOf (SCH_BAY_STATE.ag_mask b) n

/-- State codes of a bay (R168). -/
def bayEmpty : Nat := 0
def bayRaising : Nat := 1
def bayRaised : Nat := 2
def bayStriking : Nat := 3
def bayFrozen : Nat := 4

/-- The state of a bay. -/
def Dev.bayState (d : Dev) (b : Nat) : Nat := d.get (SCH_BAY_STATE.state b)

/-- An AG is stopped while it belongs to no bay with a raised bent (R93, R125). -/
def Dev.agStopped (d : Dev) (n : Nat) : Bool :=
  match d.bayOfAg n with
  | some b => d.bayState b == bayRaising || (d.bayState b == bayStriking && (d.bayU b).released)
  | none => true

/-- The AGs of a bay, ascending. -/
def Dev.bayAgs (d : Dev) (b : Nat) : List Nat := (List.range 16).filter fun n => d.bitOf (SCH_BAY_STATE.ag_mask b) n

/-- The arrays of a bay, ascending; also its slices. -/
def Dev.bayArrays (d : Dev) (b : Nat) : List Nat := (d.bayAgs b).flatMap fun n => (List.range 6).map fun x => 6 * n + x

/-- The DMA engines of a bay. -/
def Dev.bayDmas (d : Dev) (b : Nat) : List Nat := (d.bayAgs b).flatMap fun n => (List.range 4).map fun e => 4 * n + e

/-! ### The journal (R425 to R430) -/

/-- The origin ID of a path (R425). -/
def viaOrigin : Via → Nat
  | .host p _ => 1 + p.val
  | .sec => 0x10
  | .pwr => 0x11
  | .sch => 0x12
  | .cc n => 0x20 + n.val
  | .mgmt => 0x30
  | .fabric => 0x40
  | .auto => 0x50

/-- The bay named in a register's journal entries: of a per-bay register or of a bay's AG, otherwise 0 (R426). -/
def Dev.journalBay (d : Dev) (off : Nat) : Nat :=
  if 0x800000 ≤ off && off < 0x1800000 then (d.bayOfAg ((off - 0x800000) / 0x100000)).getD 0
  else if 0x320000 ≤ off && off < 0x320800 then (off - 0x320000) / 0x100
  else if 0x330000 ≤ off && off < 0x332000 then (off - 0x330000) / 0x400
  else if 0x3F0000 ≤ off && off < 0x3F0040 then (off - 0x3F0000) / 8
  else if 0x3800040 ≤ off && off < 0x3800080 then (off - 0x3800040) / 8
  else if 0x3010000 ≤ off && off < 0x3010800 then (off - 0x3010000) / 0x100
  else if 0x3A10000 ≤ off && off < 0x3A10800 then (off - 0x3A10000) / 0x100
  else if 0x3600100 ≤ off && off < 0x3600200 then (off - 0x3600100) / 0x20
  else if 0x3620000 ≤ off && off < 0x3621000 then (off - 0x3620000) / 0x200
  else 0

/-- The address word of an entry (R426). -/
def addrWord (addr kind bay joint : Nat) : Nat := addr + 2 ^ 40 * kind + 2 ^ 48 * bay + 2 ^ 56 * joint

/-- Local address of a register (R501). -/
def regAddr (off : Nat) : Nat := 0x8100000000 + off

/-- Bytes 0 to 47 of an entry (R426). -/
def JEntry.head (e : JEntry) : List Byte :=
  toBytes 8 e.seq ++ toBytes 8 e.time ++ toBytes 6 e.tick ++ toBytes 2 e.origin ++ toBytes 8 e.addrWord ++
    toBytes 8 e.old ++ toBytes 8 e.new

/-- The 64 bytes of an entry. -/
def JEntry.bytes (e : JEntry) : List Byte := e.head ++ toBytes 16 e.hash

/-- The chain value of an entry after its predecessor (R428). -/
def chainValue (prev : List Byte) (e : JEntry) : List Byte := sha384 (prev ++ e.head)

/-- The sequence of the next entry. -/
def Dev.jnlSeq (d : Dev) : Nat := d.jnl.entries.length

/-- The bytes of the newest entry, or 64 zero bytes before the genesis entry (R428). -/
def Dev.jnlPrev (d : Dev) : List Byte :=
  match d.jnl.entries with
  | e :: _ => e.bytes
  | [] => List.replicate 64 0

/-- The capacity of the ring (R430), or of the early buffer until the end of start-up step 7 (R481). -/
def Dev.jnlCapacity (d : Dev) : Nat := if d.boot.early then 8192 else 4194304

/-- Entries not yet released (R430): not covered by a seal, or not consumed while export is enabled; of the early buffer, its
own entries alone count (R481). -/
def Dev.jnlUnreleased (d : Dev) : Nat :=
  let free := if d.flag JNL_CFG.export_en then min d.jnl.sealedSeq d.jnl.consumedSeq else d.jnl.sealedSeq
  d.jnlSeq - if d.boot.early then max free d.jnl.earlyFrom else free

/-- The ring is full for ordinary entries: 16 entries are kept free for seals (R429, R430). -/
def Dev.jnlFull (d : Dev) : Bool := decide (d.jnlCapacity - 16 ≤ d.jnlUnreleased)

/-- Append one entry, chained to its predecessor (R428); the ring becoming full is an event (R430, R481). -/
def Dev.jnlAppend (d : Dev) (origin addrW old new : Nat) : Dev :=
  let e0 : JEntry := { seq := d.jnlSeq, time := d.gtime, tick := d.tick, origin := origin, addrWord := addrW,
                       old := old, new := new, hash := 0 }
  let e := { e0 with hash := ofBytes ((chainValue d.jnlPrev e0).take 16) }
  let d' := ({ d with jnl := { d.jnl with entries := e :: d.jnl.entries } }).set JNL_HEAD.next_seq (d.jnlSeq + 1)
  if d.jnlFull || !d'.jnlFull then d'
  else
    let d' := d'.set JNL_EVENT.full 1
    if d'.boot.early then d'.set GLB_BOOTINFO.early_full 1 else d'

/-- A change entry (kind 0) for a register: whole words before and after. -/
def Dev.jnlChange (d : Dev) (origin off : Nat) (joint : Nat) (old new : Reg64) : Dev :=
  d.jnlAppend origin (addrWord (regAddr off) 0 (d.journalBay off) joint) old.toNat new.toNat

/-- A refusal entry (kind 1): the value in effect or the shadow, and the attempted value. -/
def Dev.jnlRefused (d : Dev) (origin off : Nat) (joint : Nat) (old new : Reg64) : Dev :=
  d.jnlAppend origin (addrWord (regAddr off) 1 (d.journalBay off) joint) old.toNat new.toNat

/-- An event entry (kind 3) with its code, detail and merged count (R427, R501). -/
def Dev.jnlEvent (d : Dev) (origin code addr detail : Nat) (merged : Nat := 0) : Dev :=
  let bay := if regAddr 0 ≤ addr && addr < regAddr 0x4000000 then d.journalBay (addr - regAddr 0) else 0
  d.jnlAppend origin (addrWord addr 3 bay 0) 0 (code + (detail % 2 ^ 32) * 2 ^ 16 + 2 ^ 48 * merged)

/-- An event that records an action already taken: appended at once, or queued while the ring is full, merging into the
newest queued event of the same code and address when the queue is full (R430). -/
def Dev.jnlEventAfter (d : Dev) (origin code addr detail : Nat) : Dev :=
  if !d.jnlFull && d.jnl.queued.isEmpty then d.jnlEvent origin code addr detail
  else
    let e : QEvent := { code := code, addr := addr, detail := detail, merged := 0, origin := origin }
    let q := d.jnl.queued
    let q' :=
      if q.length < 1024 then q ++ [e]
      else
        match q.getLast? with
        | some l =>
          if l.code == code && l.addr == addr then
            q.dropLast ++ [{ l with detail := detail, merged := min (l.merged + 1) 0xFFFF }]
          else q ++ [e]
        | none => q ++ [e]
    { d with jnl := { d.jnl with queued := q' } }

/-- A register change made and journaled as one change entry, when the value changes. -/
def Dev.wrJ (d : Dev) (origin off : Nat) (v : Reg64) : Dev :=
  if d.rd off = v then d else (d.wr off v).jnlChange origin off 0 (d.rd off) v

/-- A field change made and journaled. -/
def Dev.setJ (d : Dev) (origin : Nat) (f : RF) (n : Nat) : Dev :=
  d.wrJ origin f.off (insField (d.rd f.off) f.lo f.w n)

/-- A refused register-path access: counted in GLB_BAD_ACCESS with its offset, kind and origin code (R3, R18, R19). -/
def Dev.badAccess (d : Dev) (via : Via) (off : Nat) (isWrite : Bool) : Dev :=
  let o := match via with
    | .host p _ => p.val
    | .sec | .pwr | .sch | .cc _ | .auto => 2
    | .mgmt | .fabric => 3
  ((((d.incSat GLB_BAD_ACCESS.count 1).set GLB_BAD_ACCESS.last_offset off).set GLB_BAD_ACCESS.last_write
    isWrite.toNat).set GLB_BAD_ACCESS.last_origin o)

/-- A power domain starts to move to a state: the request is journaled with its origin, and the move is shown (R390). -/
def Dev.moveDomain (d : Dev) (origin dom st : Nat) : Dev :=
  let f := PWR_DOM.req dom
  let v := insField (d.rd f.off) f.lo f.w st
  d.wrJ origin f.off (if d.get (PWR_DOM.state dom) = st then v else insField v (PWR_DOM.moving dom).lo 1 1)

end Sys2Proof.Machine
end

