-- ==== Sys2Proof/Machine/Mem.lean ====
section
/-! DEFINITION. Address translation and access: the bay's virtual space, tile-memory offsets, HBM interleaving, host
apertures, and the local address map (R17, R18, R111, R169, R261, R436, R500). -/

namespace Sys2Proof.Machine

/-- Where an address leads: a byte of local memory, or of a host's memory. -/
inductive Loc where
  | loc (a : Nat)
  | host (port a : Nat)
  deriving DecidableEq, Repr

/-- The byte at a location. -/
def Dev.rdLoc (d : Dev) : Loc → Byte
  | .loc a => d.byte a
  | .host p a => d.hostByte p a

/-- One byte stored at a location. -/
def Dev.wrLoc (d : Dev) (l : Loc) (v : Byte) : Dev :=
  match l with
  | .loc a => d.putByte a v
  | .host p a => d.putHostByte p a v

/-- The local address of a tile-memory offset of a bay, by its extent map (R111). -/
def Dev.tileLoc (d : Dev) (b off : Nat) : Option Nat :=
  let e := Tab.get (fun _ => 0) (d.bayU b).extMap (off / 0x200000)
  if decide (off < 2 ^ 32) && decide (0 < e) then some (extentBase ((e - 1) / 96) ((e - 1) % 96) + off % 0x200000)
  else none

/-- The interleave granularity of an ilv code (R261). -/
def ilvGran : Nat → Nat
  | 0 => 256
  | 1 => 1024
  | 2 => 4096
  | _ => 65536

/-- The local address of a byte of the bay's HBM, by its HBM offset (R261). -/
def Dev.hbmLoc (d : Dev) (b o : Nat) : Option Nat :=
  let cs := (d.bayU b).chans
  let g := ilvGran (d.get (MEM_BAY_CFG.ilv b))
  if cs.isEmpty then none
  else
    let u := o / g
    match cs[u % cs.length]? with
    | some ch => some (2 ^ 31 * ch + d.get (MEM_BAY_CFG.chan_base b) + u / cs.length * g + o % g)
    | none => none

/-- Translation of a bay virtual address (R169, R170, R436). -/
def Dev.xlate (d : Dev) (b va : Nat) : Option Loc :=
  if va < 2 ^ 32 then (d.tileLoc b va).map Loc.loc
  else if va < 2 ^ 47 then
    match (d.bayU b).regions.find? (fun r => decide (r.vbase ≤ va) && decide (va < r.vbase + r.size)) with
    | some r => (d.hbmLoc b (r.offset + (va - r.vbase))).map Loc.loc
    | none => none
  else if va < 2 ^ 48 then
    let p := va / 2 ^ 46 % 2
    let x := va % 2 ^ 46
    if d.flag (HIF_BAY_APER.valid b p) && decide (x < 2 ^ 21 * d.get (HIF_BAY_APER.len_2m b p)) then
      some (.host p (2 ^ 21 * d.get (HIF_BAY_APER.base_2m b p) + x))
    else none
  else none

/-- A host address range that a function may not reach: an invalidated translation covers part of it (R437). -/
def Dev.untranslated (d : Dev) (p f addr len : Nat) : Bool :=
  d.unmapped.any fun u => u.1 == p && u.2.1 == f && decide (u.2.2.1 < addr + len) && decide (addr < u.2.2.1 + u.2.2.2)

/-- Every byte of a range is translated. Extents, HBM pages and apertures are all multiples of 2 MiB, so one byte per
2 MiB page of the range is enough. -/
def Dev.rangeOk (d : Dev) (b va n : Nat) : Bool :=
  if n = 0 then true
  else (List.range ((va + n - 1) / 2 ^ 21 - va / 2 ^ 21 + 1)).all fun i =>
    (d.xlate b ((va / 2 ^ 21 + i) * 2 ^ 21)).isSome

/-- One byte of the bay, zero outside it. -/
def Dev.bayByte (d : Dev) (b va : Nat) : Byte :=
  match d.xlate b va with
  | some l => d.rdLoc l
  | none => 0

/-- One byte stored in the bay; dropped outside it. -/
def Dev.putBayByte (d : Dev) (b va : Nat) (v : Byte) : Dev :=
  match d.xlate b va with
  | some l => d.wrLoc l v
  | none => d

/-- n bytes of the bay. -/
def Dev.bayBytes (d : Dev) (b va n : Nat) : List Byte := (List.range n).map fun i => d.bayByte b (va + i)

/-- Bytes stored in the bay from an address upward. -/
def Dev.putBayBytes (d : Dev) (b : Nat) : Nat → List Byte → Dev
  | _, [] => d
  | va, v :: vs => (d.putBayByte b va v).putBayBytes b (va + 1) vs

/-- The little-endian number of n bytes of the bay. -/
def Dev.bayNat (d : Dev) (b va n : Nat) : Nat := ofBytes (d.bayBytes b va n)

/-- The kinds of local address (R17). -/
inductive LKind where
  | hbm | tile | regs
  | window (port : Nat)
  | reserved
  deriving DecidableEq, Repr

/-- The kind of a local address (R17). -/
def localKind (a : Nat) : LKind :=
  if a < 0x8000000000 then .hbm
  else if a < 0x80C0000000 then .tile
  else if a < 0x8100000000 then .reserved
  else if a < 0x8104000000 then .regs
  else if a < 0xC000000000 then .reserved
  else if a < 0xE000000000 then .window 0
  else if a < 0x10000000000 then .window 1
  else .reserved

/-- The bay that an extent of an AG belongs to (R500). -/
def Dev.extentOwner (d : Dev) (g e : Nat) : Option Nat :=
  (List.range 8).find? fun b => (d.bayU b).extMap.any fun p => p.2 == 1 + 96 * g + e

/-- A local tile-memory address lies in an extent that belongs to a bay (R500). -/
def Dev.tileOwned (d : Dev) (a : Nat) : Bool :=
  let o := a - 0x8000000000
  (d.extentOwner (o / 0xC000000) (o % 0xC000000 / 0x200000)).isSome

/-- r of R258: MiB reserved at the top of each usable channel. -/
def Dev.reservedMiB (d : Dev) : Nat :=
  let n := ((List.range 8).filter fun s => d.bitOf GLB_STATUS.stack_usable s).length
  if 2 ≤ n then 32 else 64

/-- An HBM local address lies in the reserved region (R258). -/
def Dev.hbmReserved (d : Dev) (a : Nat) : Bool := decide ((2048 - d.reservedMiB) * 2 ^ 20 ≤ a % 2 ^ 31)

/-- A local address that an admin-ring command may reach (R18, R258, R447, R500). -/
def Dev.localReach (d : Dev) (a : Nat) : Bool :=
  match localKind a with
  | .hbm => !d.hbmReserved a && d.bitOf GLB_STATUS.stack_usable (a / 2 ^ 36)
  | .tile => d.tileOwned a
  | .window _ => true
  | .regs | .reserved => false

/-- The keys under which the controllers hold the line of a local HBM address: those of the bay whose pages it lies in, if that
bay is encrypted (R272). -/
def Dev.pageKey (d : Dev) (a : Nat) : Option Nat :=
  (List.range 8).findSome? fun b =>
    let u := d.bayU b
    let base := d.get (MEM_BAY_CFG.chan_base b)
    u.encKey.filter fun _ => u.chans.contains (a / 2 ^ 31) && decide (base ≤ a % 2 ^ 31) && decide (a % 2 ^ 31 < base + u.chanLen)

/-- The line of an address as its controller holds it under keys. Memory keeps what the bay reads, in the clear (log entry 169). -/
def Dev.cipherLine (d : Dev) (k a : Nat) : List Byte := Config.xtsEncrypt k (a / 64) (d.bytes (a / 64 * 64) 64)

/-- A byte of the line changed by a writer that does not pass the bay's keys. -/
def Dev.putCipher (d : Dev) (k a : Nat) (v : Byte) : Dev :=
  let l := Config.xtsDecrypt k (a / 64) ((d.cipherLine k a).set (a % 64) v)
  d.putBytes (a / 64 * 64) ((List.range 64).map fun i => l.getD i 0)

/-- Every byte of a local range can be reached (R18, R258, R500): reach changes at 2 MiB boundaries only. -/
def Dev.rangeReach (d : Dev) (a n : Nat) : Bool :=
  n == 0 || (List.range ((a + n - 1) / 2 ^ 21 - a / 2 ^ 21 + 1)).all fun i => d.localReach (max a ((a / 2 ^ 21 + i) * 2 ^ 21))

/-- A byte read through the local address map: host windows lead to the host's bus addresses of the window (the window's
offset is the bus address); the pages of an encrypted bay read as the controllers hold them. -/
def Dev.localByte (d : Dev) (a : Nat) : Byte :=
  match localKind a with
  | .hbm => match d.pageKey a with
    | some k => (d.cipherLine k a).getD (a % 64) 0
    | none => d.byte a
  | .tile => if d.tileOwned a then d.byte a else 0
  | .window p => d.hostByte p (a % 2 ^ 37)
  | .regs => 0
  | .reserved => 0xFF

/-- A byte written through the local address map; dropped where the access is not performed. -/
def Dev.putLocalByte (d : Dev) (a : Nat) (v : Byte) : Dev :=
  match localKind a with
  | .hbm => match d.pageKey a with
    | some k => d.putCipher k a v
    | none => d.putByte a v
  | .tile => if d.tileOwned a then d.putByte a v else d
  | .window p => d.putHostByte p (a % 2 ^ 37) v
  | .regs => d
  | .reserved => d

/-- Bytes written through the local address map. -/
def Dev.putLocalBytes (d : Dev) : Nat → List Byte → Dev
  | _, [] => d
  | a, v :: vs => (d.putLocalByte a v).putLocalBytes (a + 1) vs

/-- n bytes read through the local address map. -/
def Dev.localBytes (d : Dev) (a n : Nat) : List Byte := (List.range n).map fun i => d.localByte (a + i)

/-- The AG whose slice holds a tile offset of a bay. -/
def Dev.agOfTile (d : Dev) (b off : Nat) : Option Nat :=
  (d.tileLoc b off).map fun a => (a - 0x8000000000) / 0xC000000

/-- A byte of memory zeroed over a range: every listed byte of the range is removed. -/
def Dev.zeroLocal (d : Dev) (a n : Nat) : Dev :=
  { d with mem := { d.mem with loc := d.mem.loc.filter fun p => !(decide (a ≤ p.1) && decide (p.1 < a + n)) } }

end Sys2Proof.Machine
end

