-- ==== Sys2Proof/Machine/Peg.lean ====
section
/-! DEFINITION. Pegs: comparison, increment, forwarding, the tick peg (spec/06_tile_memory_and_mesh.md, R119 to R125). -/

namespace Sys2Proof.Machine

/-- Value c of entry s of a unit's threshold table whose first register is at `off`; entry 0 is always 0 (R121). -/
def Dev.thrC (d : Dev) (off s : Nat) : Nat :=
  if s = 0 then 0 else fieldOf (d.rd (off + 8 * (s / 4))) (16 * (s % 4)) 16

/-- A wait with value c at repetition index i on a peg of value v is satisfied (R121). -/
def pegOk (c i v : Nat) : Bool :=
  c == 0 || decide (((v : Int) - (c * (i + 1) % 65536 : Nat)) % 65536 < 32768)

/-- The wait of selector s on peg p of AG n at repetition index i (R121). -/
def Dev.waitOk (d : Dev) (thrOff s n p i : Nat) : Bool := pegOk (d.thrC thrOff s) i (d.get (AG_PEG.value n p))

/-- The valid forward entries of AG n with a source peg: (target AG, target peg), in entry order (R123). -/
def Dev.fwdTargets (d : Dev) (n p : Nat) : List (Nat × Nat) :=
  (d.regs.filter fun e => decide (AG_PEG_FWD.off n 0 ≤ e.1) && decide (e.1 < AG_PEG_FWD.off n 256)).filterMap fun e =>
    if fieldOf e.2 0 1 == 1 && fieldOf e.2 1 12 == p then some (fieldOf e.2 13 4, fieldOf e.2 17 12) else none

/-- An amount added to a peg modulo 2^16, its cause recorded for R252. -/
def Dev.addPeg (d : Dev) (n p amount cause : Nat) : Dev :=
  let u := d.agU n
  (d.incWrap (AG_PEG.value n p) amount).putAg n { u with pegSrc := Tab.put (fun _ => 0) u.pegSrc p cause }

/-- An increment of a peg (R122), sent on through every valid forward entry with that source (R123). Forwarded increments
carry the low 8 bits of the bay's step number. -/
def Dev.incPeg (d : Dev) (n p amount cause : Nat) : Dev :=
  let b := (d.bayOfAg n).getD 0
  let step := d.get (SCH_BAY_STEPNO.step b)
  let new := (d.fwdTargets n p).map fun t =>
    ({ srcAg := n, dstAg := t.1, peg := t.2, amount := amount, step8 := step % 256, bay := b } : PegFwd)
  let d := d.addPeg n p amount cause
  { d with fwd := d.fwd ++ new }

/-- The first element of a list that meets a test, and the list without it. -/
def takeFirst {α : Type} (f : α → Bool) : List α → Option (α × List α)
  | [] => none
  | x :: xs =>
    if f x then some (x, xs)
    else match takeFirst f xs with
      | some (y, ys) => some (y, x :: ys)
      | none => none

/-- The oldest forwarded increment from one AG to another lands, or is dropped as stale when its bay has started another
step (R123). -/
def Dev.pegForwardLand (d : Dev) (src dst : Nat) : Dev :=
  match takeFirst (fun f => f.srcAg == src && f.dstAg == dst) d.fwd with
  | none => d
  | some (f, rest) =>
    let d := { d with fwd := rest }
    if d.bayOfAg dst == some f.bay && d.get (SCH_BAY_STEPNO.step f.bay) % 256 == f.step8 then
      d.addPeg dst f.peg f.amount 3
    else d.incSat (AG_PEG_STATUS.stale_inc dst) 1

/-- PEG_FORWARD_LAND: R123. -/
def execPegForwardLand (src dst : AgId) (s : State) : Host.Outcome State Fault Refusal :=
  onDev s fun d => d.pegForwardLand src.val dst.val

/-- The control core of AG g runs (R397: core 3 + g). -/
def Dev.ccRunning (d : Dev) (g : Nat) : Bool := d.get (GLB_FW_CORE.state (3 + g)) == 0

/-- The AG's control core increments the tick peg once for an edge of the running step (R120); while the core restarts, or
when no edge's increment is due, nothing happens. -/
def Dev.tickPegIncrement (d : Dev) (n : Nat) : Dev :=
  let u := d.agU n
  if u.pegDue && d.ccRunning n then (d.putAg n { u with pegDue := false }).incPeg n 0xFFF 1 0 else d

/-- TICK_PEG_INCREMENT: R120. -/
def execTickPegIncrement (ag : AgId) (s : State) : Host.Outcome State Fault Refusal :=
  onDev s fun d => d.tickPegIncrement ag.val

/-- The word a PEG_ADD write carries. -/
def pegAddWord (peg amount : Nat) : Reg64 := BitVec.ofNat 64 (peg + 65536 * amount)

/-- A write to AGn_PEG_ADD: an increment, journaled as a live write; peg 0xFFF is refused (R120, R125). -/
def Dev.pegAdd (d : Dev) (origin n peg amount : Nat) : Dev :=
  if peg = 0xFFF then d.jnlRefused origin (AG_PEG_ADD.off n) 0 0 (pegAddWord peg amount)
  else (d.incPeg n peg amount 0).jnlChange origin (AG_PEG_ADD.off n) 0 0 (pegAddWord peg amount)

end Sys2Proof.Machine
end

