-- ==== Sys2Proof/Machine/VecIsa.lean ====
section
/-! DEFINITION. The vector instruction word, its fields and its validity (spec/07_vector_engine.md, R149 to R151). -/

namespace Sys2Proof.Machine

/-- The fields of an instruction word (R149). -/
structure VWord where
  op : Nat
  d : Nat
  a : Nat
  b : Nat
  c : Nat
  p : Nat
  z : Nat
  fmt : Nat
  fmt2 : Nat
  rm : Nat
  sat : Nat
  cls : Nat
  imm : Nat
  deriving DecidableEq, Repr

/-- The fields of a 64-bit word (R149). -/
def VWord.of (w : Nat) : VWord where
  op := w % 2 ^ 8
  d := w >>> 8 % 2 ^ 5
  a := w >>> 13 % 2 ^ 5
  b := w >>> 18 % 2 ^ 5
  c := w >>> 23 % 2 ^ 5
  p := w >>> 28 % 2 ^ 3
  z := w >>> 31 % 2
  fmt := w >>> 32 % 2 ^ 5
  fmt2 := w >>> 37 % 2 ^ 5
  rm := w >>> 42 % 2 ^ 3
  sat := w >>> 45 % 2
  cls := w >>> 46 % 2 ^ 2
  imm := w >>> 48 % 2 ^ 16

/-- How an op uses a register field: not at all, as a vector register, a scalar register, or a predicate. -/
inductive FieldUse where
  | none | vec | scalar | pred
  deriving DecidableEq, Repr

/-- What an op uses of the word (R150, R151): its register fields, whether it takes p and z, its format codes, and the
immediate bits it uses. Empty format lists mean that the field is not used. -/
structure VOp where
  d : FieldUse := .none
  a : FieldUse := .none
  b : FieldUse := .none
  c : FieldUse := .none
  masked : Bool := false
  zero : Bool := false
  fmts : List Fmt := []
  fmt2s : List Fmt := []
  rm : Bool := false
  sat : Bool := false
  cls : Bool := false
  immBits : Nat := 0

/-- The float formats of vector arithmetic. -/
def fmtFP : List Fmt := [.fp32, .fp64]
/-- The arithmetic formats of vector registers (R138). -/
def fmtArith : List Fmt := [.fp32, .fp64, .int32]
/-- All fifteen formats. -/
def fmtAll : List Fmt :=
  [.fp64, .fp32, .bf16, .fp16, .e4m3, .e5m2, .e3m2, .e2m3] ++ [.e2m1, .int32, .int16, .int8, .int4, .t4, .e8m0]
/-- The formats of 8 bits and wider (GATH, SCAT). -/
def fmtWide : List Fmt := fmtAll.filter fun f => decide (8 ≤ f.width)
/-- The formats of registers that CVT and VSTC convert from (R156, R157). -/
def fmtReg : List Fmt := [.fp64, .fp32, .int32, .int16]
/-- The formats CVT converts to (R157). -/
def fmtCvt : List Fmt := fmtReg ++ [.bf16, .fp16, .e4m3, .e5m2, .e3m2, .e2m3, .e2m1]
/-- The block-scaled formats of VSTB. -/
def fmtBlock : List Fmt := [.e4m3, .e5m2, .e3m2, .e2m3, .e2m1]

/-- The use table of R151. -/
def vopOf (w : VWord) : Option VOp :=
  let bin : VOp := { d := .vec, a := .vec, b := .vec, masked := true, zero := true }
  let un : VOp := { d := .vec, a := .vec, masked := true, zero := true }
  let isInt := w.fmt == 0x09
  match w.op with
  | 0x00 => some {}
  | 0x01 | 0x02 | 0x03 => some { bin with fmts := fmtArith, rm := !isInt }
  | 0x04 | 0x05 => some { bin with c := .vec, fmts := fmtFP, rm := true }
  | 0x06 => some { bin with fmts := fmtFP, rm := true }
  | 0x07 => some { un with fmts := fmtFP, rm := true }
  | 0x08 | 0x09 => some { bin with fmts := fmtArith }
  | 0x0A | 0x0B => some { bin with fmts := fmtFP }
  | 0x0C | 0x0D => some { un with fmts := fmtArith }
  | 0x0E => some { un with fmts := fmtFP, rm := true }
  | 0x10 | 0x11 | 0x12 | 0x13 | 0x14 | 0x15 => some { bin with fmts := [.int32] }
  | 0x18 => some { d := .pred, a := .vec, b := .vec, fmts := fmtArith, immBits := 0x7 }
  | 0x19 => some { bin with fmts := fmtAll }
  | 0x1A =>
    some { d := .pred, a := if w.imm % 16 == 4 then .scalar else .none,
           immBits := if w.imm % 16 == 2 || w.imm % 16 == 3 then 0x7F else 0xF }
  | 0x1B => some { d := .pred, a := .pred, b := .pred, immBits := 0x3 }
  | 0x20 | 0x21 | 0x22 | 0x23 | 0x24 | 0x25 | 0x26 => some { un with fmts := [.fp32] }
  | 0x28 => some { un with fmts := fmtReg, fmt2s := fmtCvt, rm := true, sat := true }
  | 0x30 | 0x31 | 0x32 => some { un with fmts := fmtArith }
  | 0x38 => some { bin with fmts := fmtArith }
  | 0x39 =>
    let pat := w.imm % 16
    some { un with b := if 3 ≤ pat && pat ≤ 6 then .vec else .none, fmts := fmtArith,
                   immBits := if pat == 0 then 0x70F else if pat == 1 then 0x7F0F else 0xF }
  | 0x3A => some { d := .vec, a := .vec, masked := true, zero := true, immBits := 0x703 }
  | 0x3B => some { d := .vec, a := .vec, masked := true, zero := true, immBits := 0x707 }
  | 0x3C => some { un with fmts := fmtArith, immBits := 0x7F }
  | 0x3D => some { d := .vec, a := .scalar, masked := true, zero := true, fmts := fmtArith }
  | 0x3E => some { d := .scalar, a := .vec, fmts := fmtArith, immBits := 0x7F }
  | 0x40 => some { d := .vec, a := .scalar, masked := true, zero := true, fmts := fmtAll, immBits := 0xFFFF }
  | 0x41 => some { d := .vec, a := .scalar, masked := true, fmts := fmtAll, cls := true, immBits := 0xFFFF }
  | 0x42 =>
    some { d := .vec, a := .scalar, c := if w.fmt == 0x0D then .scalar else .none, masked := true, zero := true,
           fmts := fmtAll, fmt2s := [.fp32, .int32, .fp64], immBits := 0xFFFF }
  | 0x43 =>
    some { d := .vec, a := .scalar, c := if w.fmt2 == 0x0D then .scalar else .none, masked := true, fmts := fmtReg,
           fmt2s := fmtAll, rm := true, sat := true, cls := true, immBits := 0xFFFF }
  | 0x44 =>
    some { d := .vec, a := .scalar, c := .scalar, fmts := [.fp32], fmt2s := fmtBlock, rm := true, sat := true,
           cls := true, immBits := 0xFFFF }
  | 0x45 => some { d := .vec, a := .scalar, b := .vec, c := .scalar, masked := true, zero := true, fmts := fmtWide }
  | 0x46 => some { d := .vec, a := .scalar, b := .vec, c := .scalar, masked := true, fmts := fmtWide, cls := true }
  | 0x47 => some { d := .vec, a := .scalar, b := .vec, c := .scalar, masked := true, fmts := [.fp32], cls := true }
  | 0x48 => some { d := .vec, masked := true, zero := true }
  | 0x50 | 0x51 => some { d := .scalar, immBits := 0xFFFF }
  | 0x52 => some { d := .scalar, a := .scalar, b := .scalar, immBits := 0xFFFF }
  | 0x53 | 0x54 | 0x55 | 0x56 => some { d := .scalar, a := .scalar, b := .scalar }
  | 0x57 => some { d := .scalar, immBits := 0x7 }
  | 0x58 | 0x59 => some { a := .scalar, b := .scalar, immBits := 0xFFFF }
  | 0x5C => some { immBits := 0xFFFF }
  | 0x5D => some { immBits := 0xFFF }
  | 0x5E | 0x5F => some {}
  | _ => none

/-- A register field is in range for its use: bit 4 of a scalar field is zero, a predicate field uses three bits, and
an unused field is zero (R150). -/
def fieldOk (u : FieldUse) (v : Nat) : Bool :=
  match u with
  | .none => v == 0
  | .vec => true
  | .scalar => decide (v < 16)
  | .pred => decide (v < 8)

/-- A format code is among those of a list; an unused field is zero. -/
def fmtOk (l : List Fmt) (code : Nat) : Bool :=
  if l.isEmpty then code == 0
  else match Fmt.ofCode code with
    | some f => l.contains f
    | none => false

/-- The sign-extended immediate. -/
def VWord.simm (w : VWord) : Int := signedOf 16 w.imm

/-- Conditions of R150 and R151 that concern one op only. -/
def vopSpecial (w : VWord) (pc len : Nat) : Bool :=
  match w.op with
  | 0x18 | 0x1B => w.d != 0
  | 0x1A => w.d != 0 && decide (w.imm % 16 ≤ 4)
  | 0x39 => decide (w.imm % 16 ≤ 7) && !(w.imm % 16 == 0 && decide ((if w.fmt == 0 then 5 else 6) < w.imm / 256 % 8))
  | 0x3A | 0x3B =>
    decide (w.imm % 4 ≤ 2) && decide (128 * (w.imm / 256 % 8) + 127 < 4096 / (16 >>> (w.imm % 4)))
  | 0x42 =>
    match Fmt.ofCode w.fmt, Fmt.ofCode w.fmt2 with
    | some f, some .fp32 => f != .fp64
    | some f, some .int32 => f.isInt
    | some f, some .fp64 => f == .fp64 || f == .fp32
    | _, _ => false
  | 0x44 => w.p == 0
  | 0x57 => decide (w.imm ≤ 5)
  | 0x58 | 0x59 => decide (0 ≤ (pc : Int) + w.simm) && decide ((pc : Int) + w.simm < len)
  | 0x5D => w.imm != 0xFFF
  | _ => true

/-- An instruction at index pc of a program of `len` instructions is valid (R150). -/
def vecValid (pc len : Nat) (word : Nat) : Bool :=
  let w := VWord.of word
  match vopOf w with
  | none => false
  | some u =>
    let dst := if u.fmt2s.isEmpty then w.fmt else w.fmt2
    let short := match Fmt.ofCode dst with
      | some f => f.isShort
      | none => false
    fieldOk u.d w.d && fieldOk u.a w.a && fieldOk u.b w.b && fieldOk u.c w.c &&
    (u.masked || w.op == 0x19 || w.p == 0) && (u.zero || w.z == 0) &&
    fmtOk u.fmts w.fmt && fmtOk u.fmt2s w.fmt2 &&
    (if u.rm then decide (w.rm ≤ 3) || (w.rm == 4 && short && !u.fmt2s.isEmpty) else w.rm == 0) &&
    (u.sat || w.sat == 0) && (u.cls || w.cls == 0) && (w.imm &&& u.immBits) == w.imm && vopSpecial w pc len

/-- Every instruction of a program is valid. -/
def progValid (prog : List Nat) : Bool :=
  (prog.zipIdx).all fun p => vecValid p.2 prog.length p.1

end Sys2Proof.Machine
end

