-- ==== Sys2Proof/Machine/Joint.lean ====
section
/-! DEFINITION. Joint fields: shadows, arming, the checks and the commit (spec/08_bents_bays_and_joints.md, R192 to R200, and
the joint rules of the other chapters). A joint is named by its block (the offset of the block's JOINT_COMMIT) and its ID. -/

namespace Sys2Proof.Machine

/-- The JOINT_COMMIT offset of a block. -/
def jblockOff : JBlock → Nat
  | .tck => 0x3800100
  | .sch => 0x3FF000
  | .mem => 0x1FFF000
  | .fab => 0x2FFF000
  | .col => 0x33FF000
  | .flt => 0x3FFF000
  | .hif => 0x37FF000
  | .mgt => 0x35FF000
  | .pwr => 0x1FF000
  | .ag n => 0x8FF000 + 0x100000 * n.val

/-- The fields of a JOINT_STATUS register, by the block's JOINT_COMMIT offset. -/
def JS.lastJoint (blk : Nat) : RF := ⟨blk + 8, 0, 8⟩
def JS.lastResult (blk : Nat) : RF := ⟨blk + 8, 8, 2⟩
def JS.lastReason (blk : Nat) : RF := ⟨blk + 8, 10, 4⟩
def JS.lastToken (blk : Nat) : RF := ⟨blk + 8, 16, 16⟩
def JS.armed (blk : Nat) : RF := ⟨blk + 8, 32, 1⟩
def JS.pending (blk : Nat) : RF := ⟨blk + 8, 33, 1⟩
def JS.writeRefused (blk : Nat) : RF := ⟨blk + 8, 34, 1⟩
def JS.staticErr (blk : Nat) : RF := ⟨blk + 8, 35, 1⟩

/-- An AG block's JOINT_COMMIT offset. -/
def isAgBlk (blk : Nat) : Bool := decide (0x8FF000 ≤ blk) && decide (blk < 0x18FF000) && (blk - 0x8FF000) % 0x100000 == 0

/-- The AG of an AG block. -/
def agOfBlk (blk : Nat) : Nat := (blk - 0x8FF000) / 0x100000

/-- A number lies in [lo, hi). -/
def within (x lo hi : Nat) : Bool := decide (lo ≤ x) && decide (x < hi)

/-- The block defines the joint ID (R192, R196). -/
def jointDefined (blk id : Nat) : Bool :=
  if blk == 0x3800100 then within id 1 4
  else if blk == 0x3FF000 then within id 0x10 0x68
  else if blk == 0x1FFF000 then id == 1
  else if blk == 0x2FFF000 then within id 0 0x32 || id == 0x80 || id == 0x81
  else if blk == 0x33FF000 then within id 0x10 0x18
  else if blk == 0x3FFF000 then id == 1 || within id 0x10 0x18
  else if blk == 0x37FF000 then within id 0x10 0x18
  else if blk == 0x35FF000 then id == 1
  else if blk == 0x1FF000 then id == 1 || id == 2
  else if isAgBlk blk then
    within id 0x10 0x16 || within id 0x20 0x26 || within id 0x30 0x33 || within id 0x40 0x46
  else false

/-- The joint is a boundary joint (R196, R231, R254, R350, R372). -/
def jointBoundary (blk id : Nat) : Bool :=
  if blk == 0x3FF000 then within id 0x18 0x20 || within id 0x60 0x68
  else if blk == 0x33FF000 then true
  else if blk == 0x3FFF000 then within id 0x10 0x18
  else if isAgBlk blk then within id 0x10 0x26 || id == 0x32 || within id 0x40 0x46
  else false

/-- The bay whose joint it is. -/
def Dev.jointBay (d : Dev) (blk id : Nat) : Option Nat :=
  if blk == 0x3FF000 then
    if within id 0x20 0x60 then some ((id - 0x20) / 8) else some (id % 8)
  else if blk == 0x33FF000 || blk == 0x3FFF000 || blk == 0x37FF000 then
    if within id 0x10 0x18 then some (id - 0x10) else none
  else if isAgBlk blk then d.bayOfAg (agOfBlk blk)
  else none

/-- The joint belongs to a stopped block and so commits at once (R200 and the stopped conditions of the chapters). -/
def Dev.jointStopped (d : Dev) (blk id : Nat) : Bool :=
  let bayOff (b : Nat) : Bool := d.bayState b == bayEmpty || d.bayState b == bayRaising
  if blk == 0x3FF000 then
    if within id 0x10 0x18 then false else bayOff ((d.jointBay blk id).getD 0)
  else if blk == 0x33FF000 then bayOff (id - 0x10)
  else if blk == 0x3FFF000 then within id 0x10 0x18 && bayOff (id - 0x10)
  else if blk == 0x1FFF000 then d.get (PWR_DOM.state 19) != 0
  else if blk == 0x35FF000 then !d.flag MGT_CFG.mac_en
  else if blk == 0x2FFF000 then within id 0 0x32 && d.get (FABP_STATUS.state id) == 0
  else if isAgBlk blk then d.agStopped (agOfBlk blk)
  else false

/-- A bay has a running step, or a context of it has a pre-empted one (R196). -/
def Dev.bayBusy (d : Dev) (b : Nat) : Bool :=
  (d.bayU b).step.isSome || (List.range 8).any fun c => (d.ctxU (8 * b + c)).pre.isSome

/-- A boundary joint may commit: its bay has no running and no pre-empted step, and for a repair joint no pass is in flight
(R86, R196). -/
def Dev.boundaryReady (d : Dev) (blk id : Nat) : Bool :=
  (match d.jointBay blk id with
   | some b => !d.bayBusy b
   | none => true) &&
  (!(isAgBlk blk && within id 0x20 0x26) || (d.arrU (6 * agOfBlk blk + (id - 0x20))).inflight.isEmpty)

/-! ### Shadows -/

/-- The word that a shadow would commit to: its written fields over the value in effect (R193). -/
def Dev.overlay (d : Dev) (s : Shadow) : Reg64 :=
  match findReg s.off with
  | some (r, _) => s.origins.foldl (fun v p =>
      match r.fields.find? (fun f => f.lo == p.1) with
      | some f => insField v f.lo f.w (fieldOf (BitVec.ofNat 64 s.word) f.lo f.w)
      | none => v) (d.rd s.off)
  | none => d.rd s.off

/-- The shadow of a register: the word it would commit to (R193). -/
def Dev.shadowWord (d : Dev) (off : Nat) : Reg64 :=
  match d.jt.shadows.find? (fun s => s.off == off) with
  | some s => d.overlay s
  | none => d.rd off

/-- The shadow of one field set, with the origin of the write. -/
def Dev.setShadow (d : Dev) (off lo w n origin : Nat) : Dev :=
  let word := insField (d.shadowWord off) lo w n
  let old := match d.jt.shadows.find? (fun s => s.off == off) with
    | some s => s.origins
    | none => []
  let s : Shadow := { off := off, word := word.toNat, origins := (old.filter fun p => p.1 != lo) ++ [(lo, origin)] }
  { d with jt := { d.jt with shadows := (d.jt.shadows.filter fun s => s.off != off) ++ [s] } }

/-- The shadowed registers of a joint, in ascending offset. -/
def Dev.jointShadows (d : Dev) (blk id : Nat) : List Shadow :=
  sortBy (fun a b => decide (a.off ≤ b.off)) <| d.jt.shadows.filter fun s =>
    match findReg s.off with
    | some (r, ix) => jointBlockOf s.off == blk && r.jointId ix == id
    | none => false

/-- The shadows of a joint dropped, so that each equals the value in effect. -/
def Dev.dropShadows (d : Dev) (blk id : Nat) : Dev :=
  let offs := (d.jointShadows blk id).map (·.off)
  { d with jt := { d.jt with shadows := d.jt.shadows.filter fun s => !offs.contains s.off } }

/-- The armed record of a joint. -/
def Dev.armedRec (d : Dev) (blk id : Nat) : Option Armed := d.jt.armed.find? fun a => a.block == blk && a.id == id

/-- The joint no longer armed. -/
def Dev.unarm (d : Dev) (blk id : Nat) : Dev :=
  { d with jt := { d.jt with armed := d.jt.armed.filter fun a => !(a.block == blk && a.id == id) } }

/-- The bits of the armed joints of a block in word q of JOINT_ARMED. -/
def Dev.armedWord (d : Dev) (blk q : Nat) : Nat :=
  (d.jt.armed.filter fun a => a.block == blk && a.id / 64 == q).foldl (fun w a => w ||| 2 ^ (a.id % 64)) 0

/-- A boundary joint of a bay is armed and waits (R196). -/
def Dev.bayPending (d : Dev) (b : Nat) : Bool :=
  d.jt.armed.any fun a => jointBoundary a.block a.id && d.jointBay a.block a.id == some b && !d.boundaryReady a.block a.id

/-- JOINT_STATUS.armed and pending, the JOINT_ARMED words, and the pending bits of arrays and slices, which stand until the
commit is taken, follow the armed joints of a block (R192, R196, R86, R144). -/
def Dev.refreshArmed (d : Dev) (blk : Nat) : Dev :=
  let mine := d.jt.armed.filter fun a => a.block == blk
  let pend := mine.filter fun a => jointBoundary blk a.id && !d.boundaryReady blk a.id
  let d := d.set (JS.armed blk) (!mine.isEmpty).toNat
  let d := d.set (JS.pending blk) (!pend.isEmpty).toNat
  let d := (List.range 4).foldl (fun d q => d.wr (blk + 0x10 + 8 * q) (BitVec.ofNat 64 (d.armedWord blk q))) d
  let d := (List.range 8).foldl (fun d b => d.set (SCH_BAY_PEND.boundary_pending b) (d.bayPending b).toNat) d
  if isAgBlk blk then
    (List.range 6).foldl (fun d x =>
      (d.set (AG_ARR_STATUS.repair_pending (agOfBlk blk) x) (mine.any fun a => a.id == 0x20 + x).toNat).set
        (AG_VEC_STATUS.prog_pending (agOfBlk blk) x) (mine.any fun a => a.id == 0x40 + x).toNat) d
  else d

/-- The last result of a block (R192). -/
def Dev.jointResult (d : Dev) (blk id result reason token : Nat) : Dev :=
  d.sets [(JS.lastJoint blk, id), (JS.lastResult blk, result), (JS.lastReason blk, reason), (JS.lastToken blk, token)]

/-! ### The checks of R195 -/

/-- Every field of a register word lies in its stated range and alignment (R195). -/
def rangesOk (r : RegDef) (v : Reg64) : Bool :=
  r.fields.all fun f =>
    match f.range with
    | none => true
    | some (lo, hi, al) =>
      let x := fieldOf v f.lo f.w
      decide (lo ≤ x) && decide (x ≤ hi) && x % al == 0

/-- The elements of a list are pairwise different. -/
def allDistinct : List Nat → Bool
  | [] => true
  | x :: xs => !xs.contains x && allDistinct xs

/-- A tile-memory range of a bay lies inside its extents. -/
def Dev.tileRangeOk (d : Dev) (b off n : Nat) : Bool := decide (off + n ≤ 2 ^ 32) && d.rangeOk b off n

/-- The guard rule of R23: the guard is at least the larger of 2 µs and 8 times the skew bound of the domain. -/
def guardOk (periodUs guardPct skew : Nat) : Bool :=
  decide (max 2000 (8 * (if skew = 0 then 40 else 400)) * 100 ≤ periodUs * 1000 * guardPct)

/-- Bytes of the mid-step state of R247 for a bay: the context area and 13,840 KiB per AG. -/
def Dev.midStepSize (d : Dev) (b : Nat) : Nat :=
  d.get (SCH_BAY_CTXAREA.area_ext b) * 0x200000 + (d.bayAgs b).length * (13840 * 1024)

/-- A virtual range lies wholly inside the bay's HBM regions (R250). -/
def Dev.hbmRangeOk (d : Dev) (b va n : Nat) : Bool :=
  decide (2 ^ 32 ≤ va) && decide (va + n ≤ 2 ^ 47) && d.rangeOk b va n

/-- The bay training joint's cross-field rules (R231). -/
def Dev.checkTraining (d : Dev) (b : Nat) : Bool :=
  allDistinct [d.get (SCH_BAY_DISP.rank_fwd b), d.get (SCH_BAY_DISP.rank_ig b), d.get (SCH_BAY_DISP.rank_wg b),
    d.get (SCH_BAY_DISP.rank_upd b)] &&
  decide (-64 ≤ d.getS (SCH_BAY_LSCFG.ls_min b)) &&
  decide (d.getS (SCH_BAY_LSCFG.ls_min b) ≤ d.getS (SCH_BAY_LSCFG.ls_init b)) &&
  decide (d.getS (SCH_BAY_LSCFG.ls_init b) ≤ d.getS (SCH_BAY_LSCFG.ls_max b)) &&
  decide (d.getS (SCH_BAY_LSCFG.ls_max b) ≤ 64) &&
  (!d.flag (SCH_BAY_SCHED.dir_valid b) || d.tileRangeOk b (d.get (SCH_BAY_SCHED.dir_offset b)) 1536) &&
  (!d.flag (SCH_BAY_GATECFG.line_en b) || d.tileRangeOk b (d.get (SCH_BAY_GATECFG.line_offset b)) 64)

/-- The bay scheduling joint's rules (R254). -/
def Dev.checkScheduling (d : Dev) (b : Nat) : Bool :=
  (List.range 8).all (fun c => d.get (SCH_CTX_STATE.saved b c) == 0) &&
  d.tileRangeOk b (d.get (SCH_BAY_CTXAREA.area_offset b)) (0x200000 * d.get (SCH_BAY_CTXAREA.area_ext b)) &&
  (!d.flag (SCH_BAY_TRING.ring_en b) ||
    (d.get (SCH_BAY_TRING.ring_base b) % 64 == 0 &&
     d.rangeOk b (d.get (SCH_BAY_TRING.ring_base b)) (64 * 2 ^ d.get (SCH_BAY_TRING.ring_log2 b))))

/-- The effective priority of a context (R240). -/
def Dev.effPrio (d : Dev) (b c : Nat) : Nat :=
  let base := d.get (SCH_CTX_CFG.base_prio b c)
  let t := d.get (SCH_BAY_SCHCFG.ctx_age_ticks b)
  if t = 0 then base else min 15 (base + d.get (SCH_CTX_STATE.wait b c) / t)

/-- The last two checks of R250, made on a configuration: save region and LIGHT mode. -/
def Dev.checkCtxPlace (d : Dev) (b c : Nat) : Bool :=
  let enabled := (List.range 8).filter fun k => d.flag (SCH_CTX_CFG.en b k)
  !d.flag (SCH_CTX_CFG.en b c) ||
    ((enabled.length == 1 || d.hbmRangeOk b (d.get (SCH_CTX_SAVE.save_base b c)) (d.midStepSize b)) &&
     (!d.flag (SCH_CTX_CFG.mode b c) || d.flag (SCH_BAY_STATE.light_ok b)))

/-- The context joint's rules (R250): `old` is the device before the commit. A commit that enables a second context leaves every
enabled one with a save region that is checked. -/
def Dev.checkContext (d old : Dev) (b c : Nat) : Bool :=
  let st := old.get (SCH_CTX_STATE.state b c)
  let sv := old.get (SCH_CTX_STATE.saved b c)
  let clears := old.flag (SCH_CTX_CFG.en b c) && !d.flag (SCH_CTX_CFG.en b c)
  let bay := old.bayState b
  (!clears || ((st == 1 || st == 6 || bay == bayEmpty || bay == bayRaising) && decide (sv ≤ 1))) &&
  (sv == 0 || (old.get (SCH_CTX_CFG.mode b c) == d.get (SCH_CTX_CFG.mode b c) &&
    old.get (SCH_CTX_SAVE.save_base b c) == d.get (SCH_CTX_SAVE.save_base b c))) &&
  (bay == bayEmpty || bay == bayRaising || (List.range 8).all (d.checkCtxPlace b))

/-- The AG joints' cross-field rules: route and peg (R136), repair (R93). -/
def Dev.checkAg (d : Dev) (n id : Nat) : Bool :=
  if id == 0x30 then
    allDistinct (((List.range 32).filter fun r => d.flag (AG_MROUTE.valid n r)).map fun r => d.get (AG_MROUTE.dst_stop n r))
  else if id == 0x31 then
    (List.range 256).all fun f =>
      !d.flag (AG_PEG_FWD.valid n f) ||
        (d.bayOfAg n != none && d.bayOfAg (d.get (AG_PEG_FWD.dst_ag n f)) == d.bayOfAg n &&
         d.get (AG_PEG_FWD.dst_ag n f) != n && d.get (AG_PEG_FWD.src_peg n f) != 0xFFF &&
         d.get (AG_PEG_FWD.dst_peg n f) != 0xFFF)
  else if within id 0x20 0x26 then
    let x := id - 0x20
    !(d.flag (AG_ARR_REPAIR.row_en0 n x) && d.flag (AG_ARR_REPAIR.row_en1 n x) &&
        d.get (AG_ARR_REPAIR.row0 n x) == d.get (AG_ARR_REPAIR.row1 n x)) &&
    !(d.flag (AG_ARR_REPAIR.col_en0 n x) && d.flag (AG_ARR_REPAIR.col_en1 n x) &&
        d.get (AG_ARR_REPAIR.col0 n x) == d.get (AG_ARR_REPAIR.col1 n x))
  else true

/-- The words of a slice's program as a commit would copy them (R143). -/
def Dev.progWords (d : Dev) (n x : Nat) : List Nat :=
  let b := (d.bayOfAg n).getD 0
  let base := d.get (AG_VEC_PROG.code_base n x)
  (List.range (d.get (AG_VEC_PROG.code_len n x))).map fun i => d.bayNat b (base + 8 * i) 8

/-- A port joint's rules (R302). -/
def Dev.checkPort (d : Dev) (p : Nat) : Bool :=
  let map := d.get (FABP_ETH0.pcp_map p)
  let pcp (t : Nat) : Nat := map / 2 ^ (3 * t) % 8
  (List.range 7).all (fun t => pcp t != pcp 7) && d.get (FABP_ETH0.max_payload p) != 3 &&
    d.bitOf (FABP_SEC.rx_an_valid p) (d.get (FABP_SEC.tx_an p))

/-- A next hop is valid and well formed (R325). -/
def Dev.nextHopOk (d : Dev) (h : Nat) : Bool := d.flag (FAB_NHA.valid h)

/-- The route joint's rules (R325). -/
def Dev.checkRoute (d : Dev) : Bool :=
  let entry (v np det prim na alt : Nat) : Bool :=
    v == 0 || (decide (det ≤ np) &&
      (List.range (np + 1)).all (fun j => d.nextHopOk (prim / 2 ^ (8 * j) % 256)) &&
      (List.range na).all (fun j => d.nextHopOk (alt / 2 ^ (8 * j) % 256)))
  (List.range 256).all (fun g =>
    entry (d.get (FAB_GRT.valid g)) (d.get (FAB_GRT.n_prim g)) (d.get (FAB_GRT.det g)) (d.get (FAB_GRT.prim g))
      (d.get (FAB_GRT.n_alt g)) (d.get (FAB_GRT.alt g))) &&
  (List.range 128).all (fun g =>
    entry (d.get (FAB_MRT.valid g)) (d.get (FAB_MRT.n_prim g)) (d.get (FAB_MRT.det g)) (d.get (FAB_MRT.prim g))
      (d.get (FAB_MRT.n_alt g)) (d.get (FAB_MRT.alt g))) &&
  (List.range 256).all (fun m =>
    !d.flag (FAB_MCT.valid m) ||
      ((!d.bitOf (FAB_MCT.nh_valid m) 0 || d.nextHopOk (d.get (FAB_MCT.nh0 m))) &&
       (!d.bitOf (FAB_MCT.nh_valid m) 1 || d.nextHopOk (d.get (FAB_MCT.nh1 m))))) &&
  (List.range 256).all fun i =>
    !d.flag (FAB_NHA.valid i) ||
      (if d.flag (FAB_NHA.kind i) then decide (d.get (FAB_NHA.target i) ≤ 49)
       else decide (d.get (FAB_NHA.target i) ≤ 6) &&
         (List.range 50).all fun p =>
           !(d.get (FABP_CFG.face p) == d.get (FAB_NHA.target i) && d.get (FABP_CFG.mode p) != 1))

/-- The snapshot list of a bay as (address, length in 4 KiB units, class) (R352). -/
def Dev.snapList (d : Dev) (b : Nat) : List (Nat × Nat × Nat) :=
  let off := d.get (FLT_BAY_LIST.offset b)
  (List.range (d.get (FLT_BAY_LIST.len b))).map fun i =>
    (d.bayNat b (off + 16 * i) 8, d.bayNat b (off + 16 * i + 8) 4, d.bayNat b (off + 16 * i + 12) 1)

/-- The FLT bay joint's rules (R352, R372): the list lies in the bay's extents, its entries are aligned, lie in HBM regions,
have a class of 0 or 1, a zero reserved part and do not overlap; the host snapshot base lies in the host range. -/
def Dev.checkFltBay (d : Dev) (b : Nat) : Bool :=
  let l := d.snapList b
  let off := d.get (FLT_BAY_LIST.offset b)
  (l.isEmpty || d.tileRangeOk b off (16 * l.length)) &&
  (d.get (FLT_BAY_REPSET.len b) == 0 ||
    d.tileRangeOk b (d.get (FLT_BAY_REPSET.offset b)) (2 * d.get (FLT_BAY_REPSET.len b))) &&
  (l.zipIdx).all (fun p =>
    p.1.1 % 4096 == 0 && decide (1 ≤ p.1.2.1) && d.hbmRangeOk b p.1.1 (4096 * p.1.2.1) && decide (p.1.2.2 ≤ 1) &&
    d.bayNat b (off + 16 * p.2 + 13) 3 == 0 &&
    (l.drop (p.2 + 1)).all fun q =>
      decide (p.1.1 + 4096 * p.1.2.1 ≤ q.1) || decide (q.1 + 4096 * q.2.1 ≤ p.1.1)) &&
  (!d.flag (FLT_BAY_CFG.host_en b) || decide (2 ^ 47 ≤ d.get (FLT_BAY_HOST.host_base b)))

/-- The default ID of a device whose owner section holds torus coordinates (R306). -/
def Board.defaultId (b : Board) : Option Nat :=
  if b.ownerValid then b.coords.map fun c => c.2.2 % 32 * 1024 + c.2.1 % 32 * 32 + c.1 % 32 else none

/-- What the site budget leaves for a window beside the free steps (R384), in 1/16 nW: site_slew in W/s, the window in ns, step_w in
1/16 W. -/
def Dev.windowBudget (d : Dev) : Nat :=
  let twNs := d.get PWR_THAW_CFG.tok_window_ticks * d.get TCK_PERIOD.period_us * 1000
  d.get PWR_SITE.site_slew * 16 * twNs - d.get PWR_SITE.n_devices * d.get PWR_THAW_CFG.step_w * 1000000000

/-- Tokens per window with a debt in mW (R384). -/
def Dev.tokensPerWindow (d : Dev) (debt : Nat) : Nat :=
  if d.get PWR_SITE.tok_w = 0 then 0 else (d.windowBudget - 16000000 * debt) / (1000000000 * d.get PWR_SITE.tok_w)

/-- The cross-field rules of the other blocks. -/
def Dev.checkOther (d : Dev) (blk id : Nat) : Bool :=
  if blk == 0x2FFF000 then if id == 0x81 then d.checkRoute else if id == 0x80 then true else d.checkPort id
  else if blk == 0x33FF000 then
    let b := id - 0x10
    let len := d.get (COL_BAY_TABLE.tbl_len b)
    len == 0 || (d.get (COL_BAY_TABLE.tbl_base b) % 64 == 0 && d.tileRangeOk b (d.get (COL_BAY_TABLE.tbl_base b)) (64 * len))
  else if blk == 0x3FFF000 then if id == 1 then true else d.checkFltBay (id - 0x10)
  else if blk == 0x37FF000 then
    let b := id - 0x10
    (List.range 2).all fun p =>
      !d.flag (HIF_BAY_APER.valid b p) ||
        (let f := d.get (HIF_BAY_APER.func b p)
         d.bitOf (HIF_BAY_FUNC.ports b) p &&
         (f == 0 || (if p = 0 then d.bitOf (HIF_BAY_FUNC.vf_a b) (f - 1) else d.bitOf (HIF_BAY_FUNC.vf_b b) (f - 1))) &&
         decide ((d.get (HIF_BAY_APER.base_2m b p) + d.get (HIF_BAY_APER.len_2m b p)) * 2 ^ 21 ≤ 2 ^ 64))
  else if blk == 0x35FF000 then
    allDistinct (((List.range 4).filter fun j => d.flag (MGT_ETYPE.valid j)).map fun j => d.get (MGT_ETYPE.ethertype j)) &&
    (List.range 8).all fun i =>
      i == 0 || !d.flag (MGT_ADDR.valid i) || d.get (MGT_ADDR.mac i) != d.get (MGT_ADDR.mac 0)
  else if blk == 0x1FF000 then
    if id == 1 then
      within (d.get PWR_ENV.env_w) 700 (d.get PWR_HWLIM.env_cap_w + 1) &&
      within (d.get PWR_SLEW_UP.slew) 50 (d.get PWR_HWLIM.up_max + 1) &&
      within (d.get PWR_SLEW_DN.slew) 50 (d.get PWR_HWLIM.dn_max + 1) &&
      within (d.get PWR_ENV.throttle_c) 85 105
    else
      within (d.get PWR_THAW_CFG.tok_window_ticks) 1 1001 &&
      (!d.flag PWR_COORD.is_coord || decide (1 ≤ d.tokensPerWindow 0))
  else true

/-- No aperture that a commit changes names a VF whose TDI is locked or runs (R452). -/
def Dev.tdiFree (d e : Dev) (b : Nat) : Bool :=
  (List.range 2).all fun p =>
    d.rd (HIF_BAY_APER.off b p) == e.rd (HIF_BAY_APER.off b p) ||
      d.sec.tdiLocked.all fun t =>
        t != (p, d.get (HIF_BAY_APER.func b p)) && t != (p, e.get (HIF_BAY_APER.func b p))

/-- The reason a commit is refused with, 0 where it is accepted (R195; R37 gives reason 2). `d` is the device before, `e` the
device with the joint's shadows in effect. -/
def Dev.jointCheck (d e : Dev) (blk id : Nat) : Nat :=
  let inRange := (d.jointShadows blk id).all fun s =>
    match findReg s.off with
    | some (r, _) => rangesOk r (d.overlay s)
    | none => true
  if blk == 0x3800100 && id == 1 then
    if !d.flag TCK_STATUS.master then 2
    else if inRange && guardOk (e.get TCK_PERIOD.period_us) (e.get TCK_PERIOD.guard_pct) (e.get TCK_PERIOD.skew_domain) &&
      decide (d.tick + 1024 ≤ e.get TCK_CHANGE_AT.change_tick) then 0 else 1
  else
    let cross : Bool :=
      if blk == 0x3FF000 then
        if within id 0x18 0x20 then e.checkTraining (id - 0x18)
        else if within id 0x60 0x68 then e.checkScheduling (id - 0x60)
        else if within id 0x20 0x60 then e.checkContext d ((id - 0x20) / 8) ((id - 0x20) % 8)
        else true
      else if isAgBlk blk then
        e.checkAg (agOfBlk blk) id &&
          (!within id 0x40 0x46 || progValid (e.progWords (agOfBlk blk) (id - 0x40)))
      else e.checkOther blk id && (blk != 0x37FF000 || d.tdiFree e (id - 0x10))
    if inRange && cross then 0 else 1

/-! ### The commit -/

/-- The device with every shadow of a joint in effect. -/
def Dev.applyShadows (d : Dev) (blk id : Nat) : Dev :=
  (d.jointShadows blk id).foldl (fun d s => d.wr s.off (d.overlay s)) d

/-- The change entries of one register at a commit: one per origin, in ascending origin order, each including the changes
of the entries before it (R427). -/
def Dev.jnlCommit (d : Dev) (id : Nat) (before : Reg64) (s : Shadow) (r : RegDef) : Dev :=
  let changed := s.origins.filter fun p =>
    match r.fields.find? (fun f => f.lo == p.1) with
    | some f => fieldOf before f.lo f.w != fieldOf (BitVec.ofNat 64 s.word) f.lo f.w
    | none => false
  let orgs := sortBy (fun a b => decide (a ≤ b)) (changed.map (·.2))
  let orgs := orgs.foldl (fun l o => if l.contains o then l else l ++ [o]) []
  (orgs.foldl (fun (acc : Dev × Reg64) o =>
    let new := (changed.filter fun p => p.2 == o).foldl (fun v p =>
      match r.fields.find? (fun f => f.lo == p.1) with
      | some f => insField v f.lo f.w (fieldOf (BitVec.ofNat 64 s.word) f.lo f.w)
      | none => v) acc.2
    (acc.1.jnlChange o s.off id acc.2 new, new)) (d, before)).1

/-- The physical rows and columns of an array that its repair fields bypass (R85). -/
def Dev.bypassedRows (d : Dev) (n x : Nat) : List Nat :=
  (if d.flag (AG_ARR_REPAIR.row_en0 n x) then [d.get (AG_ARR_REPAIR.row0 n x)] else []) ++
    if d.flag (AG_ARR_REPAIR.row_en1 n x) then [d.get (AG_ARR_REPAIR.row1 n x)] else []
def Dev.bypassedCols (d : Dev) (n x : Nat) : List Nat :=
  (if d.flag (AG_ARR_REPAIR.col_en0 n x) then [d.get (AG_ARR_REPAIR.col0 n x)] else []) ++
    if d.flag (AG_ARR_REPAIR.col_en1 n x) then [d.get (AG_ARR_REPAIR.col1 n x)] else []

/-- The physical line of logical line i, for the lines that are bypassed (R65). -/
def physLine (byp : List Nat) (i : Nat) : Nat := ((List.range 130).filter fun l => !byp.contains l).getD i 130

/-- The logical line of physical line l, if it is not bypassed (R65). -/
def logLine (byp : List Nat) (l : Nat) : Option Nat :=
  if byp.contains l then none else some (((List.range l).filter fun i => !byp.contains i).length)

/-- A loaded tile under a new mapping: the cells keep what they hold (R67), and each logical cell now reads the cell that the new
mapping gives it. A cell that held nothing of the tile holds a free value (DESIGN CHOICE, log entry 166). -/
def Tile.remapped (t : Tile) (oldRows oldCols newRows newCols : List Nat) (c : Nat) : Tile :=
  let mul := (Fmt.ofCode t.key.mulFmt).getD .fp32
  { t with rows := (List.range t.rows.length).map fun r => (List.range t.key.n).map fun j =>
      match logLine oldRows (physLine newRows (r / t.key.p)), logLine oldCols (physLine newCols j) with
      | some i, some k => (t.rows[i * t.key.p + r % t.key.p]?.bind fun row => row[k]?).getD
          (mul.decode (Config.cellWeight c (128 * r + j) % 2 ^ mul.width))
      | _, _ => mul.decode (Config.cellWeight c (128 * r + j) % 2 ^ mul.width) }

/-- The tiles of an array after a repair commit that changed its mapping from that of the device `old` (R65, R85). -/
def Dev.remapTiles (old d : Dev) (n x : Nat) : Dev :=
  let r := (old.bypassedRows n x, d.bypassedRows n x)
  let k := (old.bypassedCols n x, d.bypassedCols n x)
  if r.1 = r.2 ∧ k.1 = k.2 then d
  else
    let c := d.fresh
    let u := c.2.arrU (6 * n + x)
    c.2.putArr (6 * n + x) { u with active := u.active.map fun t => t.remapped r.1 k.1 r.2 k.2 (2 * c.1)
                                    shadowT := u.shadowT.map fun t => t.remapped r.1 k.1 r.2 k.2 (2 * c.1 + 1) }

/-- repair_skew and checked_capable from the repair fields of an array (R85). -/
def Dev.refreshRepair (d : Dev) (n x : Nat) : Dev :=
  let r0 := d.flag (AG_ARR_REPAIR.row_en0 n x)
  let r1 := d.flag (AG_ARR_REPAIR.row_en1 n x)
  let c0 := d.flag (AG_ARR_REPAIR.col_en0 n x)
  let c1 := d.flag (AG_ARR_REPAIR.col_en1 n x)
  (d.set (AG_ARR_STATUS.repair_skew n x) ((r0 || r1).toNat + (c0 || c1).toNat)).set
    (AG_ARR_STATUS.checked_capable n x) (!(c0 && c1)).toNat

/-- The slice starts the copy of its program (R143); a program of length 0 leaves it idle. -/
def Dev.startProgCopy (d : Dev) (n x : Nat) : Dev :=
  let u := d.vecU (6 * n + x)
  d.putVec (6 * n + x) { u with copying := some ((d.progWords n x).map (BitVec.ofNat 64)) }

/-- The effective priorities of a bay's contexts follow a commit that touches them (R240). -/
def Dev.showPrios (d : Dev) (b : Nat) : Dev :=
  (List.range 8).foldl (fun d c => if d.flag (SCH_CTX_CFG.en b c) then d.set (SCH_CTX_STATE.eff_prio b c) (d.effPrio b c) else d) d

/-- The record of a fabric port beside its registers. -/
def Dev.port (d : Dev) (p : Nat) : PortU := Tab.get (fun _ => PortU.reset) d.fab.ports p

def Dev.putPort (d : Dev) (p : Nat) (u : PortU) : Dev :=
  { d with fab := { d.fab with ports := Tab.put (fun _ => PortU.reset) d.fab.ports p u } }

/-- The record of a port changed. -/
def Dev.updPort (d : Dev) (p : Nat) (f : PortU → PortU) : Dev := d.putPort p (f (d.port p))

/-- The valid heartbeat peers of a port (R299). -/
def Dev.hbPeersOf (d : Dev) (p : Nat) : List Nat :=
  (List.range 16).flatMap fun q => (List.range 4).filterMap fun i =>
    let e := d.get (FABP_HBPEER.peers p q) / 2 ^ (16 * i) % 65536
    if 32768 ≤ e then some (e % 32768) else none

/-- After a commit of a port joint a quarantined port tries again (R282); a peer newly named is watched from now on, and is told this
device's record (R283, R299). -/
def Dev.portCommitted (old d : Dev) (p : Nat) : Dev :=
  let d := if d.get (FABP_STATUS.state p) == 9 then d.set (FABP_STATUS.state p) 5 else d
  let new := (d.hbPeersOf p).filter fun q => !(old.hbPeersOf p).contains q
  if new.isEmpty then d
  else d.updPort p fun u =>
    { u with hbPeers := new.foldl (fun t q => Tab.put (fun _ => 0) t q (d.clk.timeNs + 1)) u.hbPeers, lastRecord := 0 }

/-- What a commit does beside its fields: R32 (slip window), R85 (repair), R143 (vector program), R229 (loss scale), R250
(a cleared context), R254 (telemetry ring), R282 and R299 (a port joint), R359 (a fixed
interval). -/
def Dev.commitHook (old d : Dev) (blk id : Nat) : Dev :=
  if blk == 0x3800100 && id == 2 then
    if old.get TCK_SLIP_CFG.window_ticks == d.get TCK_SLIP_CFG.window_ticks then d
    else (List.range 8).foldl (fun d b =>
      d.sets [(TCK_BAY_SLIP.own_count b, 0), (TCK_BAY_SLIP.upstream_count b, 0), (TCK_BAY_SLIP.over b, 0)]) d
  else if blk == 0x3FF000 && within id 0x18 0x20 then
    let b := id - 0x18
    let initChanged := old.get (SCH_BAY_LSCFG.ls_init b) != d.get (SCH_BAY_LSCFG.ls_init b)
    if initChanged || (old.flag (SCH_BAY_LSCFG.ls_enable b) && !d.flag (SCH_BAY_LSCFG.ls_enable b)) then
      d.sets [(SCH_BAY_TRAIN.ls_exp b, d.get (SCH_BAY_LSCFG.ls_init b)), (SCH_BAY_TRAIN.clean_count b, 0)]
    else d
  else if blk == 0x3FF000 && within id 0x20 0x60 then
    let b := (id - 0x20) / 8
    let c := (id - 0x20) % 8
    let d := d.showPrios b
    if d.flag (SCH_CTX_CFG.en b c) then
      if d.get (SCH_CTX_STATE.state b c) == 0 && d.bayState b != bayEmpty && d.bayState b != bayRaising then
        d.set (SCH_CTX_STATE.state b c) 1
      else d
    else
      (d.sets [(SCH_CTX_STATE.state b c, 0), (SCH_CTX_STATE.saved b c, 0)]).putCtx (8 * b + c)
        { d.ctxU (8 * b + c) with saved := none }
  else if blk == 0x3FF000 && within id 0x60 0x68 then
    let b := id - 0x60
    let d := d.showPrios b
    if d.flag (SCH_BAY_TRING.ring_en b) && !old.flag (SCH_BAY_TRING.ring_en b) then
      d.sets [(SCH_BAY_THEAD.head b, 0), (SCH_BAY_THEAD.overrun b, 0)]
    else d
  else if isAgBlk blk && within id 0x20 0x26 then (old.remapTiles d (agOfBlk blk) (id - 0x20)).refreshRepair (agOfBlk blk) (id - 0x20)
  else if isAgBlk blk && within id 0x40 0x46 then d.startProgCopy (agOfBlk blk) (id - 0x40)
  else if blk == 0x3FFF000 && within id 0x10 0x18 then
    let b := id - 0x10
    if d.flag (FLT_BAY_CFG.auto b) then d
    else d.set (FLT_BAY_CADENCE.interval b) (min (d.get (FLT_BAY_CFG.interval_fixed b)) (d.get (FLT_BAY_CFG.max_lost b)))
  else if blk == 0x2FFF000 && within id 0 0x32 then d.portCommitted old id
  else d

/-- A refused commit: no field changes, the shadows are kept, the joint is disarmed (R195); the journal records each
register that would have changed, or the arm where none would. -/
def Dev.refuseCommit (d : Dev) (blk id token origin reason : Nat) : Dev :=
  let diff := (d.jointShadows blk id).filter fun s => d.rd s.off != d.overlay s
  let d' := d.unarm blk id
  let d' := if diff.isEmpty then d'.jnlRefused origin blk id 0 (BitVec.ofNat 64 (id + 65536 * token))
    else diff.foldl (fun e s => e.jnlRefused origin s.off id (d.rd s.off) (d.overlay s)) d'
  let d' := if blk == 0x3800100 && id == 1 then d'.set TCK_EVENT.change_refused 1 else d'
  let d' := if isAgBlk blk && within id 0x40 0x46 then
      d'.set (AG_VEC_EVENT.prog_refused (agOfBlk blk) (id - 0x40)) 1 else d'
  (d'.jointResult blk id 2 reason token).refreshArmed blk

/-- A joint commits, or is refused (R193, R195). A timing commit of the tick master takes effect at change_tick: until then
period, guard and skew domain keep their values (R37); a further timing commit replaces the change that still waits, which is the
model's choice (log entry 156). -/
def Dev.commitJoint (d : Dev) (blk id token origin : Nat) : Dev :=
  let e := d.applyShadows blk id
  let reason := d.jointCheck e blk id
  if reason ≠ 0 then d.refuseCommit blk id token origin reason
  else
    let e' := (d.jointShadows blk id).foldl (fun x s =>
      match findReg s.off with
      | some (r, _) => x.jnlCommit id (d.rd s.off) s r
      | none => x) e
    let e' := if blk == 0x3800100 && id == 1 then
        { e'.wr TCK_PERIOD.off (d.rd TCK_PERIOD.off) with
          jt := { e'.jt with timing := some { period := e.get TCK_PERIOD.period_us, guard := e.get TCK_PERIOD.guard_pct,
                                              skew := e.get TCK_PERIOD.skew_domain, tick := e.get TCK_CHANGE_AT.change_tick } } }
      else e'
    let e' := (e'.dropShadows blk id).unarm blk id
    ((Dev.commitHook d e' blk id).jointResult blk id 1 0 token).refreshArmed blk

/-- The word a JOINT_COMMIT write carries. -/
def jointWord (id op token : Nat) : Reg64 := BitVec.ofNat 64 (id + op * 256 + 65536 * token)

/-- A refused JOINT_COMMIT write (R192). -/
def Dev.refuseJointOp (d : Dev) (origin blk id op token reason : Nat) : Dev :=
  (d.jnlRefused origin blk 0 0 (jointWord id op token)).jointResult blk id 2 reason token

/-- Op 0: the joint is armed for the open edge set, or commits at once where its block is stopped; a second arm changes only
the token (R192, R200). -/
def Dev.armJoint (d : Dev) (origin blk id token : Nat) : Dev :=
  if !jointDefined blk id then d.refuseJointOp origin blk id 0 token 3
  else
    let d := d.jnlChange origin blk 0 0 (jointWord id 0 token)
    match d.armedRec blk id with
    | some _ =>
      { d with jt := { d.jt with armed := d.jt.armed.map fun a =>
          if a.block == blk && a.id == id then { a with token := token } else a } }
    | none =>
      if d.jointStopped blk id then d.commitJoint blk id token origin
      else
        let a : Armed := { block := blk, id := id, token := token, origin := origin, edge := d.openEdge, waits := false }
        ({ d with jt := { d.jt with armed := d.jt.armed ++ [a] } }).refreshArmed blk

/-- Op 1: the joint is disarmed and its shadows are kept; the result is discarded (R192). -/
def Dev.disarmJoint (d : Dev) (origin blk id token : Nat) : Dev :=
  if !jointDefined blk id then d.refuseJointOp origin blk id 1 token 3
  else
    let d := d.jnlChange origin blk 0 0 (jointWord id 1 token)
    ((d.unarm blk id).jointResult blk id 3 0 token).refreshArmed blk

/-- Op 2: the shadows of an unarmed joint return to the values in effect; refused for an armed joint (R192). -/
def Dev.revertJoint (d : Dev) (origin blk id token : Nat) : Dev :=
  if !jointDefined blk id then d.refuseJointOp origin blk id 2 token 3
  else if (d.armedRec blk id).isSome then d.refuseJointOp origin blk id 2 token 5
  else (d.jnlChange origin blk 0 0 (jointWord id 2 token)).dropShadows blk id

/-- A write to JOINT_COMMIT (R192); op 3 is refused. -/
def Dev.jointOp (d : Dev) (origin blk id op token : Nat) : Dev :=
  match op with
  | 0 => d.armJoint origin blk id token
  | 1 => d.disarmJoint origin blk id token
  | 2 => d.revertJoint origin blk id token
  | _ => d.refuseJointOp origin blk id op token (if jointDefined blk id then 4 else 3)

/-- Every armed joint of a block disarmed with result discarded and reason 6, at a strike (R190, R200). -/
def Dev.discardJoints (d : Dev) (p : Armed → Bool) : Dev :=
  let gone := d.jt.armed.filter p
  gone.foldl (fun d a => ((d.unarm a.block a.id).jointResult a.block a.id 3 6 a.token).refreshArmed a.block) d

/-! ### The register path: classes of fields (R3 to R8, R194) -/

/-- The static fields of a register may be written: its block is stopped (R5 and the stopped conditions of the chapters). -/
def Dev.swStopped (d : Dev) (off : Nat) : Bool :=
  if 0x800000 ≤ off && off < 0x1800000 then d.agStopped ((off - 0x800000) / 0x100000)
  else if 0x320000 ≤ off && off < 0x320800 then
    let st := d.bayState ((off - 0x320000) / 0x100)
    st == bayEmpty || st == bayRaising
  else if 0x2000000 ≤ off && off < 0x2320000 then d.get (FABP_STATUS.state ((off - 0x2000000) / 0x10000)) == 0
  else if off == FAB_ID.off then (List.range 8).all fun b => d.bayState b == bayEmpty
  else if off == FLT_SISREG.off then (List.range 8).all (fun b => d.bayState b != bayRaised) && d.flt.slots.isEmpty
  else if 0x3610000 ≤ off && off < 0x3610080 then d.get (HIF_ADM_STATUS.state ((off - 0x3610000) / 0x40)) == 0
  else if 0x3620000 ≤ off && off < 0x3621000 then d.get (HIF_RING_STATUS.state ((off - 0x3620000) / 0x40)) == 0
  else if 0x3400000 ≤ off && off < 0x3600000 then !d.flag MGT_CFG.mac_en
  else false

/-- The static-write error bit of the block that owns a register, where the block has one (R7, R93). -/
def Dev.staticErr (d : Dev) (off : Nat) : Dev :=
  let blk := jointBlockOf off
  let d := if blk = 0 then d else d.set (JS.staticErr blk) 1
  let d := if off == FAB_ID.off then d.set FAB_ID.static_write_err 1 else d
  if 0x800000 ≤ off && off < 0x1800000 then
    let n := (off - 0x800000) / 0x100000
    let r := off % 0x100000
    if r < 0x6000 then d.set (AG_ARR_EVENT.static_write_err n (r / 0x1000)) 1
    else if 0x8000 ≤ r && r < 0x8600 then d.set (AG_ARR_EVENT.static_write_err n ((r - 0x8000) / 0x100)) 1
    else d
  else d

/-- A write of a word to the bytes [lo, lo + n) of a register covers a field when they share a bit (R7). -/
def covers (byteLo nbytes : Nat) (f : FieldDef) : Bool :=
  decide (f.lo < 8 * (byteLo + nbytes)) && decide (8 * byteLo < f.lo + f.w)

/-- The effect of a write on a register, field by field under the class of each field (R6, R7, R8, R194). `att` is the
attempted whole word. A live or static change is one change entry; each refusal is one refusal entry. A joint field that is
covered with its shadow's value counts as not written (R194). -/
def Dev.writeFields (d : Dev) (origin off byteLo nbytes : Nat) (att : Reg64) : Dev :=
  match findReg off with
  | none => d
  | some (r, ix) =>
    let id := r.jointId ix
    let blk := jointBlockOf off
    let cov := r.fields.filter (covers byteLo nbytes)
    let old := d.rd off
    let stopped := d.swStopped off
    -- live and static fields
    let new := cov.foldl (fun v f =>
      let x := fieldOf att f.lo f.w
      match f.acc with
      | .rw => insField v f.lo f.w x
      | .w1c => insField v f.lo f.w (fieldOf old f.lo f.w &&& (2 ^ f.w - 1 - x))
      | .w1s => insField v f.lo f.w (fieldOf old f.lo f.w ||| x)
      | .sw => if stopped then insField v f.lo f.w x else v
      | _ => v) old
    let swRefused := !stopped && cov.any fun f => f.acc == .sw && fieldOf att f.lo f.w != fieldOf old f.lo f.w
    let wo := cov.any fun f => f.acc == .wo
    let d := if new != old then (d.wr off new).jnlChange origin off 0 old new
      else if wo then d.jnlChange origin off 0 0 att else d
    let d := if swRefused then (d.staticErr off).jnlRefused origin off 0 old att else d
    -- joint fields
    let jw := cov.filter fun f => f.acc == .jw
    let sh := d.shadowWord off
    let armed := (d.armedRec blk id).isSome
    let written := jw.filter fun f => fieldOf att f.lo f.w != fieldOf sh f.lo f.w
    if written.isEmpty then d
    else if armed then (d.set (JS.writeRefused blk) 1).jnlRefused origin off id sh att
    else written.foldl (fun d f => d.setShadow off f.lo f.w (fieldOf att f.lo f.w) origin) d

/-- The whole word that a write of n bytes at byte offset lo of a register attempts: the other bytes keep their values in
effect, or their shadows. -/
def mergeBytes (cur : Reg64) (byteLo nbytes value : Nat) : Reg64 := insField cur (8 * byteLo) (8 * nbytes) value

/-- The register-path write of R3 to R8 and R19 to a register with no effect of its own: a write of another size or
alignment, or to an offset where no register lies, is discarded and counted. -/
def Dev.regWriteCore (d : Dev) (via : Via) (off size value : Nat) : Dev :=
  if !((size == 4 || size == 8) && off % size == 0) then d.badAccess via off true
  else
    let base := off - off % 8
    match findReg base with
    | none => d.badAccess via off true
    | some _ =>
      let byteLo := off % 8
      let att := mergeBytes (d.shadowWord base) byteLo size value
      d.writeFields (viaOrigin via) base byteLo size att

end Sys2Proof.Machine
end

