-- ==== Sys2Proof/Machine/Pass.lean ====
section
/-! DEFINITION. Pass descriptors and what they compute: operand pairs, the checks of R73, operand decoding, the products and
sums of the cells, split pieces, checked mode (spec/03_number_formats.md, spec/04_matrix_arrays.md,
spec/05_long_products_by_splitting.md). -/

namespace Sys2Proof.Machine

/-! ### Descriptors -/

/-- A pass descriptor (R71). -/
structure Desc where
  op : Nat
  cls : Nat
  fmtA : Nat
  fmtB : Nat
  fmtOut : Nat
  split : Nat
  transA : Bool
  transB : Bool
  accumulate : Bool
  checked : Bool
  stoch : Bool
  reserved : Nat
  m : Nat
  k : Nat
  n : Nat
  aAddr : Nat
  aStride : Nat
  aPeg : Nat
  aSel : Nat
  bAddr : Nat
  bStride : Nat
  bPeg : Nat
  bSel : Nat
  oAddr : Nat
  oStride : Nat
  oPeg : Nat
  sel : Nat
  deriving DecidableEq, Repr

/-- Bits [lo, lo + w) of a number. -/
def bitsOf (x lo w : Nat) : Nat := (x >>> lo) % 2 ^ w

/-- The fields of the four words (R71). -/
def Desc.of (w0 w1 w2 w3 : Nat) : Desc where
  op := bitsOf w0 0 4
  cls := bitsOf w0 4 2
  fmtA := bitsOf w0 6 5
  fmtB := bitsOf w0 11 5
  fmtOut := bitsOf w0 16 5
  split := bitsOf w0 21 2
  transA := w0.testBit 23
  transB := w0.testBit 24
  accumulate := w0.testBit 25
  checked := w0.testBit 26
  stoch := w0.testBit 27
  reserved := bitsOf w0 28 4
  m := bitsOf w0 32 16 + 1
  k := bitsOf w0 48 8
  n := bitsOf w0 56 8 + 1
  aAddr := bitsOf w1 0 32
  aStride := bitsOf w1 32 16
  aPeg := bitsOf w1 48 12
  aSel := bitsOf w1 60 4
  bAddr := bitsOf w2 0 32
  bStride := bitsOf w2 32 16
  bPeg := bitsOf w2 48 12
  bSel := bitsOf w2 60 4
  oAddr := bitsOf w3 0 32
  oStride := bitsOf w3 32 16
  oPeg := bitsOf w3 48 12
  sel := bitsOf w3 60 4

/-- The descriptor a pass record holds. -/
def PassRec.desc (r : PassRec) : Desc := Desc.of r.w0 r.w1 r.w2 r.w3

/-- The four words of descriptor i of array a's stage table (R71, R93). -/
def Dev.descWords (d : Dev) (b a i : Nat) : Nat × Nat × Nat × Nat :=
  let base := d.get (AG_ARR_TABLE.tbl_base (a / 6) (a % 6)) + 32 * i
  (d.bayNat b base 8, d.bayNat b (base + 8) 8, d.bayNat b (base + 16) 8, d.bayNat b (base + 24) 8)

/-- Descriptor i of array a's stage table. -/
def Dev.descAt (d : Dev) (b a i : Nat) : Desc :=
  let w := d.descWords b a i
  Desc.of w.1 w.2.1 w.2.2.1 w.2.2.2

/-! ### Operand pairs (R60) -/

/-- E4M3 or E5M2. -/
def Fmt.isFp8 : Fmt → Bool
  | .e4m3 | .e5m2 => true
  | _ => false

/-- E3M2, E2M3 or E2M1. -/
def Fmt.isFp6 : Fmt → Bool
  | .e3m2 | .e2m3 | .e2m1 => true
  | _ => false

/-- INT8, INT4 or T4. -/
def Fmt.isNarrow : Fmt → Bool
  | .int8 | .int4 | .t4 => true
  | _ => false

/-- What an operand pair multiplies as: the formats of A and B after expansion, the MACs per cell p, and the accumulator
mode (0 FP32, 1 INT32, 2 FP64). -/
structure Pair where
  mulA : Fmt
  mulB : Fmt
  p : Nat
  mode : Nat
  deriving DecidableEq, Repr

/-- The operand pair of two formats under a split value (R60), in either order. -/
def pairOf (a b : Fmt) (split : Nat) : Option Pair :=
  match split with
  | 0 =>
    if a == .bf16 && b == .bf16 || a == .fp16 && b == .fp16 then some ⟨a, b, 1, 0⟩
    else if a.isFp8 && (b.isFp8 || b.isFp6) || a.isFp6 && b.isFp8 then some ⟨a, b, 2, 0⟩
    else if a.isFp6 && b.isFp6 then some ⟨a, b, 4, 0⟩
    else if a == .bf16 && b.isNarrow || a.isNarrow && b == .bf16 then some ⟨.bf16, .bf16, 1, 0⟩
    else if a.isFp8 && b.isNarrow then some ⟨a, .e4m3, 2, 0⟩
    else if a.isNarrow && b.isFp8 then some ⟨.e4m3, b, 2, 0⟩
    else if a == .int4 && b == .int4 then some ⟨a, b, 4, 1⟩
    else if (a == .int8 || a == .int4) && (b == .int8 || b == .int4) then some ⟨a, b, 2, 1⟩
    else none
  | 1 => if a == .fp32 && b == .fp32 then some ⟨a, b, 1, 0⟩ else none
  | 2 => if a == .fp64 && b == .fp64 then some ⟨a, b, 1, 2⟩ else none
  | _ => none

/-- The pair of a descriptor that names both operands. -/
def Desc.pair (q : Desc) : Option Pair :=
  match Fmt.ofCode q.fmtA, Fmt.ofCode q.fmtB with
  | some a, some b => pairOf a b q.split
  | _, _ => none

/-- fmt_out is allowed for an accumulator mode and a split value (R60). -/
def outAllowed (mode split : Nat) (f : Fmt) : Bool :=
  match mode, split with
  | 1, _ => f == .int32
  | 2, _ => f == .fp64
  | _, 1 => f == .fp32
  | _, _ => f == .fp32 || f == .bf16 || f == .fp16 || f.isFp8

/-- Cell rows times p: the reduction length of a pass (R66). -/
def Desc.bigK (q : Desc) : Nat :=
  match q.pair with
  | some p => q.k * p.p
  | none => 0

/-! ### Block parameters (R70) -/

/-- A scale descriptor. -/
structure Scale where
  base : Nat
  stride : Nat
  block : Nat
  kind : Nat
  reserved : Nat
  deriving DecidableEq, Repr

/-- The fields of a scale descriptor. -/
def Scale.of (w : Nat) : Scale :=
  { base := bitsOf w 0 32, stride := bitsOf w 32 16, block := bitsOf w 48 2, kind := bitsOf w 50 2, reserved := bitsOf w 52 12 }

/-- The scale descriptor that selector s of an array names for an operand; selector 0 means no block parameters. -/
def Dev.scaleOf (d : Dev) (a s : Nat) (isB : Bool) : Scale :=
  if s = 0 then Scale.of 0
  else Scale.of (if isB then d.get (AG_ARR_SCLB.descriptor (a / 6) (a % 6) s) else d.get (AG_ARR_SCLA.descriptor (a / 6) (a % 6) s))

/-- Elements per block: 32, 64 or 128. -/
def Scale.elems (s : Scale) : Nat := 32 <<< s.block

/-- Bytes of one parameter: 1 for E8M0, 4 for an INT record, 32 for a T4 table. -/
def Scale.size (s : Scale) : Nat :=
  match s.kind with
  | 1 => 1
  | 2 => 4
  | 3 => 32
  | _ => 0

/-- The parameter bytes of block i of operand row r (column for B), as a number. -/
def Dev.blockParam (d : Dev) (b : Nat) (s : Scale) (r i : Nat) : Nat :=
  d.bayNat b (s.base + r * s.stride * 64 + i * s.size) s.size

/-- The kinds of block parameters that an operand format takes beside the other operand's format (R70, R55). A descriptor of
kind 0 has no parameters, and its other fields are not looked at (DESIGN CHOICE, log entry 162). -/
def kindOk (f other : Fmt) (s : Scale) : Bool :=
  let intPair := (f == .int8 || f == .int4) && (other == .int8 || other == .int4)
  (if f.isFp6 then s.kind == 1
   else if f.isFp8 then decide (s.kind ≤ 1)
   else if intPair then s.kind == 0
   else if f == .int8 || f == .int4 then s.kind == 2
   else if f == .t4 then s.kind == 3
   else s.kind == 0) &&
  (s.kind == 0 || (s.block != 3 && s.reserved == 0 && s.base % 64 == 0 && (s.kind != 1 || s.block == 0)))

/-! ### The checks of R73 -/

/-- Bytes of a row of n elements of w bits (R41). -/
def rowBytes (n w : Nat) : Nat := (n * w + 7) / 8

/-- The bytes written for an output row: its elements, then zeros to the end of the row's last 64-byte line (R41, R112). -/
def rowLines (n w : Nat) (elems : List Nat) : List Byte := toBytes ((rowBytes n w + 63) / 64 * 64) (packElems w elems)

/-- Rows of `len` bytes at a stride lie inside the bay, with a legal address and stride (R68, R73); rows of no bytes are
not reached. -/
def Dev.regionOk (d : Dev) (b addr stride rows len : Nat) : Bool :=
  addr % 64 == 0 && (decide (rows ≤ 1) || decide (len ≤ stride * 64)) &&
    (len == 0 || (List.range rows).all fun r => d.tileRangeOk b (addr + r * stride * 64) len)

/-- The block parameters of an operand lie inside the bay: one parameter row per operand row. The stride of parameter rows has
no least value (DESIGN CHOICE, log entry 161: R68 gives one to the rows of operands and outputs). -/
def Dev.scaleRegionOk (d : Dev) (b : Nat) (s : Scale) (rows bigK : Nat) : Bool :=
  s.kind == 0 || (List.range rows).all fun r =>
    d.tileRangeOk b (s.base + r * s.stride * 64) ((bigK + s.elems - 1) / s.elems * s.size)

/-- Operand A of a pass is legal: kind, transposition, region. -/
def Dev.operandAOk (d : Dev) (b a : Nat) (q : Desc) (fa fb : Fmt) (bigK : Nat) : Bool :=
  let s := d.scaleOf a q.sel false
  kindOk fa fb s && !(q.transA && (s.kind != 0)) &&
  (if q.transA then d.regionOk b q.aAddr q.aStride bigK (rowBytes q.m fa.width)
   else d.regionOk b q.aAddr q.aStride q.m (rowBytes bigK fa.width)) &&
  d.scaleRegionOk b s q.m bigK

/-- Operand B of a pass is legal. -/
def Dev.operandBOk (d : Dev) (b a : Nat) (q : Desc) (fa fb : Fmt) (bigK : Nat) : Bool :=
  let s := d.scaleOf a q.sel true
  kindOk fb fa s && !(q.transB && (s.kind != 0)) &&
  (if q.transB then d.regionOk b q.bAddr q.bStride q.n (rowBytes bigK fb.width)
   else d.regionOk b q.bAddr q.bStride bigK (rowBytes q.n fb.width)) &&
  d.scaleRegionOk b s q.n bigK

/-- fmt_out of a DRAIN with a split value: one that R60 lists for some accumulator the split allows; its chain narrows it to
its own (R60, R61, R75). -/
def drainAllowed (split : Nat) (f : Fmt) : Bool :=
  match split with
  | 0 => outAllowed 0 0 f || outAllowed 1 0 f
  | 1 => outAllowed 0 1 f
  | _ => outAllowed 2 2 f

/-- The chain rules of R75 for a descriptor of the chain's own class. -/
def chainOk (chain : Option Chain) (q : Desc) : Bool :=
  match chain with
  | none => !((q.op == 1 && q.accumulate) || q.op == 3)
  | some c =>
    c.checked == q.checked.toNat && c.split == q.split &&
    (match q.op with
     | 1 => q.accumulate && (match q.pair with | some p => p.mode == c.mode | none => false)
     | 3 => match Fmt.ofCode q.fmtOut with | some f => outAllowed c.mode c.split f | none => false
     | _ => false)

/-- The descriptor meets R60, R70, R71 (n from 1 to 128), R72 and R73 on array a of bay b; `w` are its words (for the unused fields). -/
def Dev.descFormOk (d : Dev) (b a : Nat) (w : Nat × Nat × Nat × Nat) : Bool :=
  let q := Desc.of w.1 w.2.1 w.2.2.1 w.2.2.2
  let short := match Fmt.ofCode q.fmtOut with
    | some f => f.isShort
    | none => false
  let common := q.reserved == 0 && decide (q.k ≤ 128) && decide (q.n ≤ 128) && decide (q.split ≤ 2) &&
    (q.split == 0 || (!q.checked && !q.stoch)) && (!q.stoch || short)
  common &&
  (match q.op with
   | 0 =>
     match Fmt.ofCode q.fmtA, Fmt.ofCode q.fmtB, Fmt.ofCode q.fmtOut with
     | some fa, some fb, some fo =>
       match pairOf fa fb q.split with
       | some p =>
         outAllowed p.mode q.split fo && d.operandAOk b a q fa fb (q.k * p.p) && d.operandBOk b a q fa fb (q.k * p.p) &&
           d.regionOk b q.oAddr q.oStride q.m (rowBytes q.n fo.width)
       | none => false
     | _, _, _ => false
   | 1 =>
     q.fmtOut == 0 && !q.stoch && w.2.2.2 % 2 ^ 48 == 0 && decide (q.m ≤ 128) &&
     (match Fmt.ofCode q.fmtA, Fmt.ofCode q.fmtB with
      | some fa, some fb =>
        match pairOf fa fb q.split with
        | some p => d.operandAOk b a q fa fb (q.k * p.p) && d.operandBOk b a q fa fb (q.k * p.p)
        | none => false
      | _, _ => false)
   | 2 =>
     q.fmtOut == 0 && !q.transA && !q.accumulate && !q.checked && !q.stoch && q.m == 1 && w.2.1 == 0 &&
     w.2.2.2 % 2 ^ 48 == 0 &&
     (match Fmt.ofCode q.fmtA, Fmt.ofCode q.fmtB with
      | some fa, some fb =>
        match pairOf fa fb q.split with
        | some p => d.operandBOk b a q fa fb (q.k * p.p)
        | none => false
      | _, _ => false)
   | 3 =>
     q.fmtA == 0 && q.fmtB == 0 && !q.transA && !q.transB && !q.accumulate && q.k == 0 && w.2.1 == 0 && w.2.2.1 == 0 &&
     q.sel == 0 && decide (q.m ≤ 128) &&
     (match Fmt.ofCode q.fmtOut with
      | some fo => drainAllowed q.split fo && d.regionOk b q.oAddr q.oStride q.m (rowBytes q.n fo.width)
      | none => false)
   | _ => false)

/-- A descriptor is valid when it is fetched (R73), with the chain of its class that is open. -/
def Dev.descOk (d : Dev) (b a i : Nat) (chain : Option Chain) : Bool :=
  let q := d.descAt b a i
  d.descFormOk b a (d.descWords b a i) && chainOk (chain.filter fun c => c.cls == q.cls) q

/-! ### Decoding operands (R41, R55, R58, R59, R70) -/

/-- n elements of w bits from a bay address. -/
def Dev.bayElems (d : Dev) (b addr w n : Nat) : List Nat := unpackElems w n (d.bayNat b addr (rowBytes n w))

/-- The 16 entries of a T4 table held as a number. -/
def t4Table (x : Nat) : List Nat := unpackElems 16 16 x

/-- One element decoded: scaled under kind 1, expanded under kinds 2 and 3 to the multiplication format. -/
def decodeElem (f mul : Fmt) (kind param q : Nat) : Val :=
  match kind with
  | 1 => scaleUp param (f.decode q)
  | 2 => expandInt (f == .int4) param q mul
  | 3 => expandT4 (t4Table param) q mul
  | _ => f.decode q

/-- Rows of A in a segment of a split WS-GEMM (R100). -/
def segRows (split : Nat) : Nat := if split = 2 then 512 else 1024

/-- A transposed split WS-GEMM stages A by segments: the columns of one segment are one block (R69, R100). -/
def Desc.bySegment (q : Desc) : Bool := q.transA && q.split != 0 && q.op == 0

/-- The rows of operand A in one staged block: 128 rows of A, or 128 reduction rows when transposed (R69), of a segment's
columns in a split WS-GEMM. -/
def Dev.readABlock (d : Dev) (b a : Nat) (q : Desc) (p : Pair) (blk : Nat) : List (List Val) :=
  match Fmt.ofCode q.fmtA with
  | none => []
  | some fa =>
    let bigK := q.k * p.p
    let s := d.scaleOf a q.sel false
    if q.bySegment then
      (List.range bigK).map fun t =>
        (((d.bayElems b (q.aAddr + t * q.aStride * 64) fa.width q.m).drop (segRows q.split * blk)).take (segRows q.split)).map
          fa.decode
    else if q.transA then
      (List.range (min 128 (bigK - 128 * blk))).map fun t =>
        (d.bayElems b (q.aAddr + (128 * blk + t) * q.aStride * 64) fa.width q.m).map fa.decode
    else
      (List.range (min 128 (q.m - 128 * blk))).map fun r0 =>
        let r := 128 * blk + r0
        (d.bayElems b (q.aAddr + r * q.aStride * 64) fa.width bigK).zipIdx.map fun e =>
          decodeElem fa p.mulA s.kind (d.blockParam b s r (e.2 / s.elems)) e.1

/-- The K rows of operand B, n elements each (R68). -/
def Dev.readB (d : Dev) (b a : Nat) (q : Desc) (p : Pair) : List (List Val) :=
  match Fmt.ofCode q.fmtB with
  | none => []
  | some fb =>
    let bigK := q.k * p.p
    let s := d.scaleOf a q.sel true
    if q.transB then
      let rows := (List.range q.n).map fun j => d.bayElems b (q.bAddr + j * q.bStride * 64) fb.width bigK
      (List.range bigK).map fun t => rows.map fun r => fb.decode (r.getD t 0)
    else
      (List.range bigK).map fun t =>
        (d.bayElems b (q.bAddr + t * q.bStride * 64) fb.width q.n).zipIdx.map fun e =>
          decodeElem fb p.mulB s.kind (d.blockParam b s e.2 (t / s.elems)) e.1

/-- The number of A blocks of a pass (R69). -/
def Desc.aBlocks (q : Desc) (p : Pair) : Nat :=
  if q.k = 0 || decide (1 < q.op) then 0
  else if q.bySegment then (q.m + segRows q.split - 1) / segRows q.split
  else if q.transA then (q.k * p.p + 127) / 128
  else (q.m + 127) / 128

/-- Reduction rows as rows of A: the transpose of n columns. -/
def transposed (n : Nat) (rows : List (List Val)) : List (List Val) :=
  (List.range n).map fun r => rows.map fun t => t.getD r Val.zero

/-! ### Pieces (R94 to R96) -/

/-- Piece i of an element of a split pass: FP64 in three pieces (split 2), FP32 in two (split 1). A subnormal element or
a zero has every piece zero of its sign; a non-finite element is its own piece 1. -/
def pieceOf (split i : Nat) (v : Val) : Val :=
  match v with
  | .fin s m e =>
    if split = 2 then
      if m < 2 ^ 52 then .fin s 0 0
      else match i with
        | 1 => .fin s (m >>> 35) (e + 35)
        | 2 => .fin s (bitsOf m 17 18) (e + 17)
        | _ => .fin s (m % 2 ^ 17) e
    else
      if m < 2 ^ 23 then .fin s 0 0
      else match i with
        | 1 => .fin s (m >>> 6) (e + 6)
        | _ => .fin s (m % 64) e
  | v => if i = 1 then v else Val.zero

/-- The sub-passes of a split value: (A piece, B piece), in order (R97). -/
def subPasses (split : Nat) : List (Nat × Nat) :=
  match split with
  | 1 => [(1, 2), (2, 1), (1, 1)]
  | 2 => [(1, 3), (2, 2), (1, 2), (3, 1), (2, 1), (1, 1)]
  | _ => []

/-! ### Accumulation (R62, R98) -/

/-- The format of an accumulator mode. -/
def accFmt (mode : Nat) : Fmt :=
  match mode with
  | 1 => .int32
  | 2 => .fp64
  | _ => .fp32

/-- The value of accumulator bits. -/
def accVal (mode : Nat) (bits : BitVec 64) : Val := (accFmt mode).decode bits.toNat

/-- The bits of an accumulator value. -/
def accBits (mode : Nat) (v : Val) : BitVec 64 := BitVec.ofNat 64 ((accFmt mode).encode .rne false v).1

/-- The integer of an exact integer value. -/
def Val.toInt : Val → Int
  | .fin s m e => let x : Int := shiftInt m e; if s then -x else x
  | _ => 0

/-- Rounding to an accumulator format by RNE; every NaN is the canonical NaN. -/
def roundAcc (f : Fmt) (v : Val) : Val :=
  match v with
  | .nan .. => Val.canonNaN
  | v => f.decode (f.encode .rne false v).1

/-- A rounded value below the smallest normal becomes zero of the same sign (R49, R98). -/
def flushAcc (f : Fmt) (v : Val) : Val :=
  match v with
  | .fin s m e => if m < 2 ^ (if f == .fp64 then 52 else 23) then .fin s 0 0 else .fin s m e
  | v => v

/-- The products of one cell in one cycle added to the accumulator: exact products and an exact sum, one rounding (float),
or exact modulo 2^32 (integer) (R62). -/
def macStep (mode : Nat) (acc : Val) (prods : List (Val × Val)) : Val :=
  if mode = 1 then
    Val.ofInt (signedOf 32 (wrapInt 32 (prods.foldl (fun t p => t + p.1.toInt * p.2.toInt) acc.toInt)))
  else
    match prods.map fun p => (vmul p.1 p.2).1 with
    | [] => acc
    | x :: xs => roundAcc .fp32 (vadd .rne acc (xs.foldl (fun t y => (vadd .rne t y).1) x)).1

/-- The B pieces of the rows of B in each sub-pass of a split value; the rows themselves where nothing is split (R97). -/
def subWeights (split : Nat) (rb : List (List Val)) : List (List (List Val)) :=
  if split = 0 then [rb] else (subPasses split).map fun e => rb.map fun r => r.map (pieceOf split e.2)

/-- One product of two pieces added to the accumulator of a split pass; except of piece 1 by piece 1, a product with a
non-finite factor counts as +0 (R96, R98). -/
def splitStep (split pa pb : Nat) (acc : Val) (prods : List (Val × Val)) : Val :=
  let f := if split = 2 then Fmt.fp64 else Fmt.fp32
  prods.foldl (fun t p =>
    let prod := if (pa == 1 && pb == 1) || (p.1.isFinite && p.2.isFinite) then (vmul p.1 p.2).1 else Val.zero
    flushAcc f (roundAcc f (vadd .rne t prod).1)) acc

/-- The accumulator over k cell rows of p products each, in ascending reduction order. -/
def macRun (stp : Val → List (Val × Val) → Val) (p : Nat) : Nat → Val → List (Val × Val) → Val
  | 0, acc, _ => acc
  | k + 1, acc, l => macRun stp p k (stp acc (l.take p)) (l.drop p)

/-- The final accumulator of one cell over a pass: all its sub-passes in order (R97), or the plain sum; `as` is its row of A and
`ws` its column of weights or of B in each sub-pass. -/
def cellRun (mode split p k : Nat) (init : Val) (as : List Val) (ws : List (List Val)) : Val :=
  if split = 0 then macRun (macStep mode) p k init (as.zip (ws.headD []))
  else ((subPasses split).zip ws).foldl (fun t e =>
    macRun (splitStep split e.1.1 e.1.2) 1 k t ((as.map (pieceOf split e.1.1)).zip e.2)) init

/-- Column j of a list of rows. -/
def column (rows : List (List Val)) (j : Nat) : List Val := rows.map fun r => r.getD j Val.zero

/-! ### Checked mode (R89, R90) -/

/-- The exact sum of values, with the special cases of addition. -/
def exactSum (l : List Val) : Val :=
  match l with
  | [] => Val.zero
  | x :: xs => xs.foldl (fun t y => (vadd .rne t y).1) x

/-- An integer sum modulo 2^32. -/
def intSum (l : List Val) : Val := Val.ofInt (signedOf 32 (wrapInt 32 (l.foldl (fun t v => t + v.toInt) 0)))

/-- A checksum element: the exact sum rounded once by RNE to an 18-bit significand in the FP32 exponent range, or the exact
integer (R89). -/
def checkElem (mode : Nat) (l : List Val) : Val :=
  if mode = 1 then Val.ofInt (l.foldl (fun t v => t + v.toInt) 0)
  else
    match exactSum l with
    | .fin s m e =>
      let p : FloatParams := ⟨8, 17, 127, true, 255 * 2 ^ 17 - 1⟩
      p.decode (p.signBit s + (p.encodeMag .rne .ieee s m e).1)
    | .nan .. => Val.canonNaN
    | v => v

/-- The absolute value. -/
def Val.abs : Val → Val
  | .nan _ p => .nan false p
  | .inf _ => .inf false
  | .fin _ m e => .fin false m e

/-- FP32 sum in ascending order. DEDUCED: R90 says only "evaluated in FP32". -/
def sumF32 (l : List Val) : Val := l.foldl (fun t v => roundF32 (vadd .rne t v).1) Val.zero

/-- A row mismatches its checksum (R90). -/
def rowMismatch (mode tolExp : Nat) (y : List Val) (c : Val) : Bool :=
  if mode = 1 then wrapInt 32 (intSum y).toInt != wrapInt 32 c.toInt
  else
    let s := sumF32 y
    if !s.isFinite && !c.isFinite then false
    else if s.isFinite != c.isFinite then true
    else
      let diff := (roundF32 (vadd .rne s c.negate).1).abs
      let mag := roundF32 (vadd .rne (sumF32 (y.map Val.abs)) c.abs).1
      let bound := match mag with
        | .fin t m e => roundF32 (.fin t m (e - tolExp))
        | v => v
      diff.cmp bound == .gt

end Sys2Proof.Machine
end

