-- ==== Sys2Proof/Machine/Suspect.lean ====
section
/-! DEFINITION. Counting corrected errors on a resource and declaring a lasting fault (spec/15_fault_tolerance.md, R370). -/

namespace Sys2Proof.Machine

/-- The threshold register index of a resource's kind; lanes have their own rule. -/
def Resource.kind : Resource → Nat
  | .line .. => 0
  | .array _ => 1
  | .row .. => 2
  | .lane .. => 3

/-- The suspect table with in_use following it. -/
def Dev.putSuspects (d : Dev) (l : List Suspect) : Dev :=
  ({ d with suspects := l }).set FLT_SUSPECT.in_use l.length

/-- The entry of a resource removed. -/
def Dev.freeSuspect (d : Dev) (r : Resource) : Dev := d.putSuspects (d.suspects.filter fun s => s.res != r)

/-- One counted event on a line, an array or an HBM row; the answer is true when the fault is lasting, and the entry is
then freed (R370). -/
def Dev.suspect (d : Dev) (r : Resource) : Bool × Dev :=
  let n := d.get (FLT_THR.n r.kind)
  let w := 1000000000 * d.get (FLT_THR.window_s r.kind)
  let count := match d.suspects.find? (fun s => s.res == r) with
    | some s => if s.first + w < d.clk.timeNs then 1 else s.count + 1
    | none => 1
  if n ≤ count then (true, (d.freeSuspect r).incSat FLT_SUSPECT.lasting 1)
  else
    match d.suspects.find? (fun s => s.res == r) with
    | some s =>
      let e : Suspect := { res := r, first := if count = 1 then d.clk.timeNs else s.first, count := count }
      (false, { d with suspects := d.suspects.map fun t => if t.res == r then e else t })
    | none =>
      let e : Suspect := { res := r, first := d.clk.timeNs, count := 1 }
      if d.suspects.length < 4096 then (false, d.putSuspects (d.suspects ++ [e]))
      else
        let oldest := d.suspects.foldl (fun (o : Suspect) s => if s.first < o.first then s else o) (d.suspects.headD e)
        (false, (d.putSuspects ((d.suspects.erase oldest) ++ [e])).incWrap FLT_SUSPECT.evicted 1)

/-- The field section is written with the next generation: its counter, the event, the journal (R416, R417). -/
def Dev.writeField (d : Dev) : Dev :=
  let g := d.board.generation + 1
  let d := { d with board := { d.board with generation := g } }
  ((d.set (SEC_CTR.value 4) g).set SEC_EVENT.field_written 1).jnlEventAfter 0x10 0x0001 (regAddr (SEC_CTR.off 4)) g

/-- A change of the field section's content; its writing waits while SEC restarts, or a full journal stalls it (R417, R430). -/
def Dev.fieldUpdate (d : Dev) (f : Board → Board) : Dev :=
  let d := { d with board := f d.board }
  if d.get (GLB_FW_CORE.state 0) == 0 && !d.jnlFull then d.writeField else { d with board := { d.board with due := d.board.due + 1 } }

end Sys2Proof.Machine
end

