-- ==== Sys2Proof/Machine/Array.lean ====
section
/-! DEFINITION. The matrix arrays: the dispatcher's choice, staging, the four kinds of pass, completion, the start arbiter and
the locate test (spec/04_matrix_arrays.md, spec/05_long_products_by_splitting.md, spec/09_training_execution.md). -/

namespace Sys2Proof.Machine

/-! ### The step that runs on an array -/

/-- The running step of a bay while it is not pre-empted. -/
def Dev.liveStep (d : Dev) (b : Nat) : Option StepRec := (d.bayU b).step.filter fun r => !r.preempted

/-- A register field of the step of context c: where it is saved away, that of its saved state, else the register's (R212). -/
def Dev.stepField (d : Dev) (b c : Nat) (f : RF) : Nat :=
  let k := d.ctxU (8 * b + c)
  match k.pre, k.saved with
  | some _, some sv => match sv.fields.find? (fun e => e.1 == f.off && e.2.1 == f.lo) with
    | some e => e.2.2.2
    | none => d.get f
  | _, _ => d.get f

/-- The same field changed. -/
def Dev.setStepField (d : Dev) (b c : Nat) (f : RF) (v : Nat) : Dev :=
  let k := d.ctxU (8 * b + c)
  match k.pre, k.saved with
  | some _, some sv =>
    d.putCtx (8 * b + c) { k with saved := some { sv with fields := sv.fields.map fun e =>
      if e.1 == f.off && e.2.1 == f.lo then (e.1, e.2.1, e.2.2.1, v % 2 ^ f.w) else e } }
  | _, _ => d.set f v

/-- The guard of the tick in ns (R23). -/
def Dev.guardNs (d : Dev) : Nat := d.get TCK_PERIOD.period_us * 10 * d.get TCK_PERIOD.guard_pct

/-- The guard of the tick has begun. -/
def Dev.inGuard (d : Dev) : Bool := decide (d.clk.nextEdgeNs ≤ d.clk.timeNs + d.guardNs)

/-- A non-finite value or flag bit that comes too late for the gate's decision (R222). -/
def Dev.lateFlag (d : Dev) (b : Nat) : Dev :=
  (d.set (SCH_BAY_TEVENT.late_nonfinite b) 1).incSat (SCH_BAY_TCOUNT.late_flags b) 1

/-- n stores or drain rows that found a non-finite value (R163), with the running flag (R219). -/
def Dev.noteNonfinite (d : Dev) (b n : Nat) : Dev :=
  if n = 0 then d
  else
    let d := if 2 ≤ d.get (SCH_BAY_TRAIN.gate b) then (List.range n).foldl (fun d _ => d.lateFlag b) d else d
    ((d.set (SCH_BAY_VFLAG.nonfinite b) 1).incSat (SCH_BAY_VFLAG.nf_writes b) n).set (SCH_BAY_TRAIN.running_flag b) 1

/-- Sticky flags ORed into the bay's (R162). -/
def Dev.orFlags (d : Dev) (b : Nat) (f : FFlags) : Dev :=
  d.set (SCH_BAY_VFLAG.flags b) (d.get (SCH_BAY_VFLAG.flags b) ||| f.toNat)

/-! ### The dispatcher (R208 to R214) -/

/-- The descriptors of a phase's range whose class is (or is not) 2, in table order. -/
def Dev.rangeDescs (d : Dev) (b a : Nat) (ph : Phase) (isW : Bool) : List Nat :=
  ((List.range ph.count).map fun i => ph.first + i).filter fun i => ((d.descAt b a i).cls == 2) == isW

/-- An entry of the deadline list whose group is due still has entries in the backlog (R214). -/
def Dev.groupHeld (d : Dev) (b a : Nat) (u : ArrayU) (g : Deadline) : Bool :=
  g.due && u.disp.backlog.any fun e => (d.descAt b a e.desc).oPeg == g.peg

/-- A deadline hold is in force on an array (R214). -/
def Dev.deadlineHold (d : Dev) (b a : Nat) : Bool :=
  let u := d.arrU a
  u.disp.deadlines.any (d.groupHeld b a u)

/-- The backlog head is aged (R213). -/
def Dev.agedHead (d : Dev) (b a : Nat) : Bool :=
  let t := d.get (SCH_BAY_DISP.age_ticks b)
  match (d.arrU a).disp.backlog with
  | e :: _ => t != 0 && decide (t ≤ e.age)
  | [] => false

/-- AGn_ARRx_DISP and AGn_ARRx_BACKLOG follow the dispatcher's record. -/
def Dev.showDisp (d : Dev) (b a : Nat) : Dev :=
  let n := a / 6
  let x := a % 6
  let u := (d.arrU a).disp
  d.sets [(AG_ARR_DISP.index n x, u.index), (AG_ARR_DISP.phase n x, u.phase),
    (AG_ARR_DISP.vstage n x, match u.phases[u.phase]? with | some p => p.vstage | none => 0),
    (AG_ARR_DISP.hold n x, (d.deadlineHold b a).toNat), (AG_ARR_DISP.aged n x, (d.agedHead b a).toNat),
    (AG_ARR_DISP.done n x, u.done.toNat), (AG_ARR_BACKLOG.entries n x, u.backlog.length),
    (AG_ARR_BACKLOG.oldest_age n x, match u.backlog with | e :: _ => min e.age 0xFFFF | [] => 0)]

/-- Class-2 descriptors that wait enter the backlog in order while it has room for them (R208). -/
def enqueueBacklog (u : Dispatcher) : Dispatcher :=
  let room := 4096 - u.backlog.length
  { u with backlog := u.backlog ++ (u.enq.take room).map fun i => { desc := i, tag := u.index, age := 0 }
           enq := u.enq.drop room
           enqFull := u.enqFull || decide (room < u.enq.length) }

/-- A chosen pass: table index, tag of its peg waits, whether it comes from the backlog, and whether it counts as an
aged head. -/
structure Choice where
  desc : Nat
  tag : Nat
  backlog : Bool
  aged : Bool
  deriving DecidableEq, Repr

/-- The class heads of the current work and the backlog head: (class, table index, tag, from the backlog). -/
def Dev.heads (d : Dev) (b a : Nat) : List (Nat × Nat × Nat × Bool) :=
  let u := (d.arrU a).disp
  ([0, 1, 3].filterMap fun c =>
    (u.work.find? fun i => (d.descAt b a i).cls == c).map fun i => (c, i, u.index, false)) ++
  (match u.backlog with
   | e :: _ => [(2, e.desc, e.tag, true)]
   | [] => [])

/-- The pegs a descriptor waits on have reached their thresholds (R74, R121); class 3 also waits for the gate's decision
(R220). -/
def Dev.descReady (d : Dev) (b a : Nat) (q : Desc) (tag : Nat) : Bool :=
  let thr := AG_ARR_THR.off (a / 6) (a % 6) 0
  (decide (1 < q.op) || d.waitOk thr q.aSel (a / 6) q.aPeg tag) &&
  (q.op == 3 || d.waitOk thr q.bSel (a / 6) q.bPeg tag) &&
  (q.cls != 3 || decide (2 ≤ d.get (SCH_BAY_TRAIN.gate b)))

/-- The rank a candidate issues at, lower first (R210): an aged head and any backlog head under a hold come before every
class. -/
def Dev.rankOf (d : Dev) (b a cls : Nat) : Nat :=
  if cls = 2 && (d.agedHead b a || d.deadlineHold b a) then 0
  else 1 + d.get (match cls with
    | 0 => SCH_BAY_DISP.rank_fwd b
    | 1 => SCH_BAY_DISP.rank_ig b
    | 2 => SCH_BAY_DISP.rank_wg b
    | _ => SCH_BAY_DISP.rank_upd b)

/-- The array may choose: its bay runs a step that is not pre-empted, and it is not halted. -/
def Dev.mayIssue (d : Dev) (b a : Nat) : Bool :=
  (d.liveStep b).isSome && d.get (AG_ARR_STATUS.state (a / 6) (a % 6)) != 3 &&
    d.get (AG_ARR_STATUS.state (a / 6) (a % 6)) != 0

/-- The dispatcher's candidates (R210, R211, R214, R75): under an open chain only the chain's class, under a hold no class-0
head, in the guard no backlog entry. -/
def Dev.candidates (d : Dev) (b a : Nat) : List (Nat × Nat × Nat × Bool) :=
  (d.heads b a).filter fun h =>
    (match (d.arrU a).chain with
     | some c => h.1 == c.cls
     | none => !(h.1 == 0 && d.deadlineHold b a)) &&
    !(h.2.2.2 && d.inGuard)

/-- The ready candidate of lowest rank (R210). -/
def Dev.choose (d : Dev) (b a : Nat) : Option Choice :=
  if !d.mayIssue b a then none
  else
    let ready := (d.candidates b a).filter fun h => d.descReady b a (d.descAt b a h.2.1) h.2.2.1
    let best := ready.foldl (fun (o : Option (Nat × Nat × Nat × Bool)) h =>
      match o with
      | none => some h
      | some g => if d.rankOf b a h.1 < d.rankOf b a g.1 then some h else some g) none
    best.map fun h => { desc := h.2.1, tag := h.2.2.1, backlog := h.2.2.2, aged := h.2.2.2 && d.agedHead b a }

/-- A class head or backlog head that fails the check of R73 when the dispatcher fetches it. -/
def Dev.badHead (d : Dev) (b a : Nat) : Bool :=
  d.mayIssue b a && (d.heads b a).any fun h => !d.descOk b a h.2.1 (d.arrU a).chain

/-- The bay's step is to end early with a status at the next edge; an earlier cause keeps its status (R73, R115, R133). -/
def Dev.endStepEarly (d : Dev) (b status : Nat) : Dev :=
  match (d.bayU b).step with
  | some r => if r.early.isSome then d else d.putBay b { d.bayU b with step := some { r with early := some status } }
  | none => d

/-- Status codes of R443. -/
def stOk : Nat := 0
def stTickOverrun : Nat := 5
def stSkipped : Nat := 1
def stAccessDenied : Nat := 0x0B
def stBadCommand : Nat := 8
def stNoResource : Nat := 4
def stSignatureFail : Nat := 3
def stFaultAbsorbed : Nat := 6
def stShardOrphaned : Nat := 7
def stShardVersion : Nat := 9
def stPreempted : Nat := 2
def stStruck : Nat := 0x0A
def stInternal : Nat := 0x0F

/-- The array halts on an invalid descriptor (R73). -/
def Dev.haltArray (d : Dev) (b a : Nat) : Dev :=
  (((d.set (AG_ARR_STATUS.state (a / 6) (a % 6)) 3).set (AG_ARR_EVENT.desc_error (a / 6) (a % 6)) 1).set
    (AG_FDR_STATUS.stalled (a / 6) (a % 6)) 0).endStepEarly b stBadCommand

/-- A chosen descriptor leaves the current work or the backlog, and waiting class-2 descriptors move up (R208, R213). -/
def Dev.takeChoice (d : Dev) (b a : Nat) (c : Choice) : Dev :=
  let u := d.arrU a
  let n := a / 6
  let x := a % 6
  if c.backlog then
    let disp := enqueueBacklog { u.disp with backlog := u.disp.backlog.drop 1 }
    let d := (d.putArr a { u with disp := disp }).incWrap (AG_ARR_BACKLOG.issued n x) 1
    (if c.aged then d.incSat (AG_ARR_DCOUNT.aged_issues n x) 1 else d).showDisp b a
  else
    (d.putArr a { u with disp := { u.disp with work := u.disp.work.erase c.desc, outstanding := u.disp.outstanding + 1 } }).showDisp
      b a

/-- The chain after a pass of it issues: an OS-GEMM opens or continues it, a DRAIN closes it (R75). -/
def nextChain (u : ArrayU) (q : Desc) : Option Chain :=
  match q.op with
  | 1 =>
    match u.chain with
    | some c => some c
    | none => some { cls := q.cls, checked := q.checked.toNat, split := q.split,
                     mode := match q.pair with | some p => p.mode | none => 0, skipped := false }
  | 3 => none
  | _ => u.chain

/-- The array no longer waits for staged operands. -/
def Dev.unstalled (d : Dev) (a : Nat) : Dev := d.set (AG_FDR_STATUS.stalled (a / 6) (a % 6)) 0

/-- The record of a chosen pass. -/
def Dev.passRec (d : Dev) (b a : Nat) (c : Choice) (start pegCycle : Nat) : PassRec :=
  let w := d.descWords b a c.desc
  { w0 := w.1, w1 := w.2.1, w2 := w.2.2.1, w3 := w.2.2.2, start := start, pegCycle := pegCycle, current := !c.backlog,
    rowsLeft := [], mismatch := false, idx := c.desc, tag := c.tag }

/-- A pass enters flight: its record, the array in RUN, the chain, and its staged blocks used up but for those of A that it is
still to take. -/
def Dev.enterRec (d : Dev) (b a : Nat) (c : Choice) (r : PassRec) : Dev :=
  let u := d.arrU a
  (((d.putArr a { u with inflight := u.inflight ++ [r], chain := nextChain u r.desc,
                         staged := u.staged.filter fun s =>
                           !(s.desc == c.desc && s.tag == c.tag && (s.isB || r.more == 0)) }).set
    (AG_ARR_STATUS.state (a / 6) (a % 6)) 2).unstalled a).takeChoice b a c

/-- A pass that takes no operand A enters flight. -/
def Dev.enterFlight (d : Dev) (b a : Nat) (c : Choice) (start pegCycle : Nat) (rows : List (Nat × List Byte)) (mism : Bool) :
    Dev :=
  d.enterRec b a c { d.passRec b a c start pegCycle with rowsLeft := rows, mismatch := mism }

/-! ### The drain (R79, R80, R140 to R142) -/

/-- The drain window of a slice holds a row wholly (R140). -/
def Dev.inWindow (d : Dev) (a addr len : Nat) : Bool :=
  let base := d.get (AG_VEC_DWIN.dwin_base (a / 6) (a % 6))
  let top := base + 64 * d.get (AG_VEC_DWIN.dwin_len (a / 6) (a % 6))
  decide (base ≤ addr) && decide (addr + len ≤ top) && decide (0 < len)

/-- The 512-byte drain-queue entries of a row (R140). -/
def queueEntries (bytes : List Byte) : List (BitVec 4096) :=
  (List.range ((bytes.length + 511) / 512)).map fun i => BitVec.ofNat 4096 (ofBytes ((bytes.drop (512 * i)).take 512))

/-- Rows are written or queued in order until one finds no room in the drain queue; the answer holds the rows left
(R140, R141). Once SCH has closed the step no program empties the queue, and a row without room is discarded and counted as the
entries still present are (R142; DEDUCED, log entry 167). -/
def Dev.landRows (d : Dev) (b a : Nat) : List (Nat × List Byte) → Dev × List (Nat × List Byte)
  | [] => (d, [])
  | (addr, bytes) :: rest =>
    if d.inWindow a addr bytes.length then
      let v := d.vecU a
      let q := v.dq ++ queueEntries bytes
      if q.length ≤ 64 then
        ((d.putVec a { v with dq := q }).set (AG_VEC_STATUS.dq_entries (a / 6) (a % 6)) q.length).landRows b a rest
      else if (d.bayU b).step.isNone then
        ((d.incSat (AG_VEC_COUNT.dq_discard (a / 6) (a % 6)) (queueEntries bytes).length).set
          (AG_VEC_EVENT.dq_discard (a / 6) (a % 6)) 1).landRows b a rest
      else (d, (addr, bytes) :: rest)
    else (d.putBayBytes b addr bytes).landRows b a rest

/-- The rows of a new pass, which wait behind rows of an earlier pass that wait. -/
def Dev.landNew (d : Dev) (b a : Nat) (rows : List (Nat × List Byte)) : Dev × List (Nat × List Byte) :=
  if (d.arrU a).inflight.any (fun r => !r.rowsLeft.isEmpty) then (d, rows) else d.landRows b a rows

/-- The seed in effect at the start of the bay's step (R52). -/
def Dev.stepSeed (d : Dev) (b : Nat) : Nat :=
  match (d.bayU b).step with
  | some r => r.seed
  | none => d.get (SCH_BAY_SEED.seed b)

/-- The number of the bay's step: that of its own start, whatever steps started while it was pre-empted (R52, R239). -/
def Dev.stepNo (d : Dev) (b : Nat) : Nat :=
  match (d.bayU b).step with
  | some r => r.no
  | none => d.get (SCH_BAY_STEPNO.step b)

/-- Elements converted to fmt_out, drain column j from the left, with stochastic numbers drawn per column (R51, R79, R502);
the answer holds the encodings, the flags and the draw counts. -/
def Dev.convertRow (d : Dev) (b a : Nat) (fo : Fmt) (stoch : Bool) (draws : Tab Nat) (row : List Val) :
    List Nat × FFlags × Tab Nat :=
  let seed := d.stepSeed b
  let stepNo := d.stepNo b
  let cells := row.zipIdx.map fun e =>
    let rm := if stoch then RMode.stoch (stochNumber seed stepNo a e.2 (Tab.get (fun _ => 0) draws e.2)) else .rne
    fo.encode rm false e.1
  (cells.map (·.1), FFlags.orAll (cells.map (·.2)),
    if stoch then row.zipIdx.foldl (fun t e => Tab.put (fun _ => 0) t e.2 (Tab.get (fun _ => 0) t e.2 + 1)) draws else draws)

/-- Rows of a pass from row `first` on converted and placed: accumulator rows become (address, bytes), with flags, draws, and
the count of rows that hold a non-finite value (R54, R79, R80). -/
def Dev.drainRows (d : Dev) (b a : Nat) (q : Desc) (fo : Fmt) (first : Nat) (rows : List (List Val)) :
    Dev × List (Nat × List Byte) :=
  let res := rows.zipIdx.foldl (fun (acc : List (Nat × List Byte) × FFlags × Tab Nat) e =>
    let c := d.convertRow b a fo q.stoch acc.2.2 e.1
    (acc.1 ++ [(q.oAddr + (first + e.2) * q.oStride * 64, rowLines q.n fo.width c.1)],
      acc.2.1.or c.2.1, c.2.2)) ([], FFlags.none, (d.arrU a).draws)
  let bad := if q.cls = 0 then 0 else (rows.filter fun r => r.any fun v => !v.isFinite).length
  let d := d.putArr a { d.arrU a with draws := res.2.2 }
  ((d.orFlags b res.2.1).noteNonfinite b bad, res.1)

/-- A checked pass runs checked only while the array is checked-capable; otherwise it is counted as skipped (R92). -/
def Dev.checkMode (d : Dev) (a : Nat) (q : Desc) : Dev × Bool :=
  let n := a / 6
  let x := a % 6
  if !q.checked then (d, false)
  else if d.flag (AG_ARR_STATUS.checked_capable n x) then (d, true)
  else ((d.incSat (AG_ARR_CHECK.checked_skipped n x) 1).set (AG_ARR_EVENT.check_lost n x) 1, false)

/-! ### Issuing -/

/-- The first row may enter in a cycle: the array is free (R78, R101, R103) and no pass in flight still waits for a block of
A. -/
def Dev.mayStart (d : Dev) (a cycle : Nat) : Bool :=
  decide ((d.arrU a).freeAt ≤ cycle) && (d.arrU a).inflight.all fun r => r.more == 0

/-- A column group is ungated, so a pass may enter; otherwise the array asks the start arbiter (R84). -/
def Dev.ungated (d : Dev) (a : Nat) : Bool := d.get (AG_ARR_STATUS.groups_ungated (a / 6) (a % 6)) != 0

/-- A request among the waiting ones: in order of request, simultaneous ones by array index (R84). -/
def insertReq (e : Nat × Nat) : List (Nat × Nat) → List (Nat × Nat)
  | [] => [e]
  | x :: l => if e.1 < x.1 || (e.1 == x.1 && decide (e.2 < x.2)) then e :: x :: l else x :: insertReq e l

/-- The array asks for a start in a cycle. -/
def Dev.requestStart (d : Dev) (a cycle : Nat) : Dev :=
  let u := d.agU (a / 6)
  if u.startReq.any (fun e => e.2 == a % 6) then d else d.putAg (a / 6) { u with startReq := insertReq (cycle, a % 6) u.startReq }

/-- The cause a waiting cycle of an array is attributed to, its mesh waits apart: 0 HBM, 1 mesh, 2 fabric, 3 power, 4 other
(R252). No cycle meets row 2 of the table: a feeder stages from tile memory alone (R68, R169). -/
def Dev.waitCause (d : Dev) (b a : Nat) (c : Choice) : Nat :=
  let q := d.descAt b a c.desc
  let src (p : Nat) : Nat := Tab.get (fun _ => 0) (d.agU (a / 6)).pegSrc p
  let has (k : Nat) : Bool := (decide (q.op < 2) && src q.aPeg == k) || (q.op != 3 && src q.bPeg == k)
  if d.bitOf PWR_CAPPED.ag_capped (a / 6) then 3
  else if has 1 then 0 else if has 2 then 2 else if has 3 then 1 else 4

/-- The cycles in which the chosen pass waited are counted and attributed, and the array is no longer stalled (R69, R252): those
in which its staging waited for a mesh link to the mesh, the others to the cause that stands when it starts. -/
def Dev.countStall (d : Dev) (b a stall : Nat) (c : Choice) : Dev :=
  let k := d.waitCause b a c
  let mesh := if k = 3 then 0 else min stall (d.arrU a).meshStall
  let d := d.putArr a { d.arrU a with meshStall := 0 }
  let d := match (d.bayU b).step with
    | some r =>
      let w := (r.waits.modify 1 (· + mesh)).modify k (· + (stall - mesh))
      d.putBay b { d.bayU b with step := some { r with waits := w } }
    | none => d
  (d.incWrap (AG_FDR_STATUS.stall_cycles (a / 6) (a % 6)) stall).unstalled a

/-- The array waits for staged operands. -/
def Dev.stalled (d : Dev) (a : Nat) : Dev := d.set (AG_FDR_STATUS.stalled (a / 6) (a % 6)) 1

/-- A pass cannot start yet; where the array is free but for a block of A that the pass in flight has not got, it is that wait
that shows (R69). -/
def Dev.passWaits (d : Dev) (a cycle : Nat) : Dev := if (d.arrU a).freeAt ≤ cycle then d.stalled a else d

/-- The staged rows of one operand block of a chosen pass. -/
def ArrayU.stagedRows (u : ArrayU) (c : Choice) (isB : Bool) (blk : Nat) : Option (List (List Val)) :=
  (u.staged.find? fun s => s.desc == c.desc && s.tag == c.tag && s.isB == isB && s.block == blk).map (·.rows)

/-- The key of the tile that a descriptor uses, for a piece of B in a split pass (R77, R101). -/
def Desc.key (q : Desc) (p : Pair) (piece : Nat) : TileKey where
  addr := q.bAddr
  stride := q.bStride
  fmtB := q.fmtB
  transB := q.transB.toNat
  k := q.k
  n := q.n
  sel := q.sel
  mulFmt := (List.range 15).find? (fun c => Fmt.ofCode c == some p.mulB) |>.getD 0
  p := p.p
  split := q.split
  piece := piece

/-- The piece of B that each sub-pass uses; a pass that is not split has one sub-pass, of the whole B (R97). -/
def bPieces (split : Nat) : List Nat := if split = 0 then [0] else (subPasses split).map (·.2)

/-- The rows of a piece of B, cut as the feeder feeds them (R102). -/
def pieceRows (split piece : Nat) (rb : List (List Val)) : List (List Val) :=
  if split = 0 then rb else rb.map fun r => r.map (pieceOf split piece)

/-- The tile whose key matches, if the array holds it: the active one, otherwise the shadow. -/
def ArrayU.tileFor (u : ArrayU) (k : TileKey) : Option (Tile × Bool) :=
  match u.active with
  | some t => if t.key == k then some (t, false) else (u.shadowT.filter fun s => s.key == k).map fun s => (s, true)
  | none => (u.shadowT.filter fun s => s.key == k).map fun s => (s, true)

/-- The earliest cycle a tile load may begin (R77). -/
def ArrayU.loadFrom (u : ArrayU) : Nat := max (u.swapS + 1) (u.lastL + u.lastK)

/-- A row of existing output decoded from the output region (R79). -/
def Dev.existingRow (d : Dev) (b : Nat) (q : Desc) (fo : Fmt) (r : Nat) : List Nat :=
  d.bayElems b (q.oAddr + r * q.oStride * 64) fo.width q.n

/-- The sub-passes of a WS-GEMM that starts at cycle s: start, rows and piece of B, segment by segment (R100, R101). -/
def Desc.subStarts (q : Desc) (s rs : Nat) : List (Nat × Nat × Nat) :=
  if q.split = 0 then [(s, q.m, 0)]
  else
    let seg := segRows q.split
    let ps := bPieces q.split
    (List.range ((q.m + seg - 1) / seg)).flatMap fun g =>
      -- every segment but the last is full
      let ms := min seg (q.m - g * seg)
      let s0 := s + g * ((ps.length - 1) * max seg (130 + rs) + seg)
      ps.zipIdx.map fun e => (s0 + e.2 * max ms (130 + rs), ms, e.1)

/-- A class-3 pass after a SKIP decision: it does not enter the array and writes nothing, and the next pass may issue in the next
cycle (R221). -/
def Dev.skipPass (d : Dev) (b a : Nat) (c : Choice) (cycle : Nat) : Dev :=
  (d.putArr a { d.arrU a with freeAt := max (d.arrU a).freeAt (cycle + 1), osDone := max (d.arrU a).osDone (cycle + 1) }).enterFlight
    b a c cycle (cycle + 1) [] false

/-- The choice that a pass command acts on: the dispatcher's, when its op is the command's; an invalid head halts the
array instead. -/
def Dev.chosen (d : Dev) (a op : Nat) : Option (Nat × Choice × Desc) :=
  match d.bayOfAg (a / 6) with
  | none => none
  | some b =>
    match d.choose b a with
    | none => none
    | some c => if (d.descAt b a c.desc).op = op then some (b, c, d.descAt b a c.desc) else none

/-- An invalid head halts the array (R73). -/
def Dev.fetchHeads (d : Dev) (a : Nat) : Dev :=
  match d.bayOfAg (a / 6) with
  | some b => if d.badHead b a then d.haltArray b a else d
  | none => d

/-- A SKIP decision applies to a descriptor (R221). -/
def Dev.skips (d : Dev) (b : Nat) (q : Desc) : Bool := q.cls == 3 && d.get (SCH_BAY_TRAIN.gate b) == 3

/-! ### WS-GEMM (R76, R77, R79, R81, R89, R100, R101) -/

/-- The initial partial sums of an output row: zero, or the existing row. -/
def Dev.wsInit (d : Dev) (b : Nat) (q : Desc) (fo : Fmt) (r : Nat) : List Val :=
  if q.accumulate then (d.existingRow b q fo r).map fo.decode else List.replicate q.n Val.zero

/-- The accumulator rows of a WS-GEMM from row `first` on, with the weights of each sub-pass. -/
def Dev.wsRows (d : Dev) (b : Nat) (q : Desc) (p : Pair) (fo : Fmt) (first : Nat) (ra : List (List Val))
    (ws : List (List (List Val))) : List (List Val) :=
  let cols := (List.range q.n).map fun j => ws.map fun rb => column rb j
  ra.zipIdx.map fun e =>
    ((d.wsInit b q fo (first + e.2)).zip cols).map fun ic => cellRun p.mode q.split p.p q.k ic.1 e.1 ic.2

/-- Some row of a checked WS-GEMM mismatches (R89, R90). -/
def Dev.wsMismatch (d : Dev) (b tol : Nat) (q : Desc) (p : Pair) (fo : Fmt) (first : Nat) (ra rb ys : List (List Val)) : Bool :=
  let chk := rb.map (checkElem p.mode)
  (ra.zip ys).zipIdx.any fun e =>
    let ini := d.wsInit b q fo (first + e.2)
    let c0 := if p.mode = 1 then intSum ini else roundAcc .fp32 (exactSum ini)
    rowMismatch p.mode tol e.1.2 (cellRun p.mode q.split p.p q.k c0 e.1.1 [chk])

/-- Bytes of an operand's block in the feeder buffer, its block parameters apart. -/
def operandBytes (q : Desc) (p : Pair) (isB : Bool) (blk : Nat) : Nat :=
  let bigK := q.k * p.p
  let w (c : Nat) : Nat := match Fmt.ofCode c with | some f => f.width | none => 0
  if isB then (if q.transB then q.n * rowBytes bigK (w q.fmtB) else bigK * rowBytes q.n (w q.fmtB))
  else if q.bySegment then bigK * rowBytes (min (segRows q.split) (q.m - segRows q.split * blk)) (w q.fmtA)
  else if q.transA then min 128 (bigK - 128 * blk) * rowBytes q.m (w q.fmtA)
  else min 128 (q.m - 128 * blk) * rowBytes bigK (w q.fmtA)

/-! ### Operand A, block by block (R69, R100) -/

/-- The accumulators of an array as rows of n values. -/
def accRows (mode m n : Nat) (t : Tab (BitVec 64)) : List (List Val) :=
  (List.range m).map fun i => (List.range n).map fun j => accVal mode (Tab.get (fun _ => 0) t (128 * i + j))

/-- Accumulator rows stored. -/
def accStore (mode : Nat) (rows : List (List Val)) (t : Tab (BitVec 64)) : Tab (BitVec 64) :=
  rows.zipIdx.foldl (fun t r => r.1.zipIdx.foldl (fun t c => Tab.put (fun _ => 0) t (128 * r.2 + c.2) (accBits mode c.1)) t) t

/-- The pass in flight that still takes blocks of A: at most one, since no other starts before it has them all. -/
def ArrayU.feeding (u : ArrayU) : Option PassRec := u.inflight.find? fun r => r.more != 0

/-- The record of the pass that takes blocks of A changed. -/
def ArrayU.putFeeding (u : ArrayU) (r : PassRec) : ArrayU :=
  { u with inflight := u.inflight.map fun x => if x.more != 0 then r else x }

/-- The rows of A that are complete once `blocks` have entered, of which the last is block `blk`, and the first of them: those of
the block; those of its segment; all of them once a transposed A has entered whole (R69, R100). -/
def Desc.rowsReady (q : Desc) (blocks : List (List (List Val))) (blk : Nat) (last : Bool) : Nat × List (List Val) :=
  let newest := blocks.getLast?.getD []
  if q.bySegment then (segRows q.split * blk, transposed (min (segRows q.split) (q.m - segRows q.split * blk)) newest)
  else if !q.transA then (128 * blk, newest)
  else if last then (0, transposed q.m blocks.flatten)
  else (0, [])

/-- The weights of the sub-passes of the segment that a row lies in; the pass that is not split has one set. -/
def PassRec.weightsAt (r : PassRec) (q : Desc) (row : Nat) : List (List (List Val)) :=
  if q.split = 0 then r.wts else (r.wts.drop (row / segRows q.split * (subPasses q.split).length)).take (subPasses q.split).length

/-- Every block of an OS-GEMM has entered: its products are in the accumulators, and those of a checked one in the checksum
column's (R78, R89, R103). -/
def Dev.osFinish (d : Dev) (a : Nat) (q : Desc) (p : Pair) (r : PassRec) (blocks : List (List (List Val))) : Dev :=
  let u := d.arrU a
  let ra := if q.transA then transposed q.m blocks.flatten else blocks.flatten
  let cols := (List.range q.n).map fun j => r.wts.map fun rb => column rb j
  let chk := (r.wts.headD []).map (checkElem p.mode)
  let rows := (ra.zip (accRows p.mode q.m q.n u.acc)).map fun e =>
    (e.2.zip cols).map fun ic => cellRun p.mode q.split p.p q.k ic.1 e.1 ic.2
  let chks := (ra.zip (accRows p.mode q.m 1 u.accChk)).map fun e =>
    [cellRun p.mode q.split p.p q.k (e.2.headD Val.zero) e.1 [chk]]
  d.putArr a { u with acc := accStore p.mode rows u.acc, accChk := if q.checked then accStore p.mode chks u.accChk else u.accChk }

/-- Rows of a WS-GEMM go through the array and the drain sequencer. -/
def Dev.wsDrain (d : Dev) (b a : Nat) (q : Desc) (p : Pair) (fo : Fmt) (r : PassRec) (first : Nat) (ra : List (List Val)) :
    Dev × PassRec :=
  let ws := r.weightsAt q first
  let ys := d.wsRows b q p fo first ra ws
  let bad := r.chk && d.wsMismatch b (d.get (AG_ARR_CHECK.tol_exp (a / 6) (a % 6))) q p fo first ra (ws.headD []) ys
  let dr := d.drainRows b a q fo first ys
  let l := dr.1.landNew b a dr.2
  (l.1, { r with rowsLeft := r.rowsLeft ++ l.2, mismatch := r.mismatch || bad })

/-- The pass in flight takes its next block of A, if it is staged: the rows that this completes go through the array. A split
pass keeps the A rows of its segment in the buffer (R100). -/
def Dev.takeBlock (d : Dev) (b a : Nat) : Dev :=
  let u := d.arrU a
  match u.feeding with
  | none => d
  | some r =>
    let q := r.desc
    match q.pair with
    | none => d
    | some p =>
      let blk := q.aBlocks p - r.more
      match u.staged.find? (fun s => s.desc == r.idx && s.tag == r.tag && !s.isB && s.block == blk) with
      | none => d
      | some s =>
        let keep := if q.split = 0 then 0
          else if !q.bySegment && 128 * blk % segRows q.split != 0 then r.heldA + s.bytes else s.bytes
        let d := d.putArr a { u with staged := u.staged.filter fun t => t != s }
        let r := { r with more := r.more - 1, blocks := if q.transA && !q.bySegment then r.blocks ++ [s.rows] else [s.rows],
                          heldA := keep }
        let last := r.more == 0
        let res :=
          if q.op = 1 then (if last then d.osFinish a q p r r.blocks else d, r)
          else match Fmt.ofCode q.fmtOut with
            | none => (d, r)
            | some fo =>
              let rr := q.rowsReady r.blocks blk last
              if rr.2.isEmpty then (d, r) else d.wsDrain b a q p fo r rr.1 rr.2
        res.1.putArr a ((res.1.arrU a).putFeeding { res.2 with blocks := if last then [] else res.2.blocks,
                                                                wts := if last then [] else res.2.wts })

/-- Up to n blocks of A taken. -/
def Dev.takeBlocks (d : Dev) (b a : Nat) : Nat → Dev
  | 0 => d
  | n + 1 => (d.takeBlock b a).takeBlocks b a n

/-- Existing rows unchanged, or zeros: a WS-GEMM with k = 0 (R81). -/
def Dev.wsEmpty (d : Dev) (b a : Nat) (c : Choice) (q : Desc) (fo : Fmt) (cycle : Nat) : Dev :=
  let rows := (List.range q.m).map fun r =>
    if q.accumulate then d.existingRow b q fo r else List.replicate q.n 0
  let out := rows.zipIdx.map fun e =>
    (q.oAddr + e.2 * q.oStride * 64, rowLines q.n fo.width e.1)
  let bad := if q.cls = 0 then 0 else (rows.filter fun r => r.any fun v => !(fo.decode v).isFinite).length
  let d := (d.checkMode a q).1.noteNonfinite b bad
  let l := d.landNew b a out
  l.1.enterFlight b a c cycle (cycle + q.m + 2) l.2 false

/-- A sub-pass that starts at s takes the tile of its key: the active one, else the shadow, which becomes the active one, else one
loaded into the shadow from cycle l and swapped in (R77). -/
def ArrayU.useTile (u : ArrayU) (k : TileKey) (rows : List (List Val)) (l s m : Nat) : ArrayU :=
  match u.tileFor k with
  | some (_, false) => { u with lastS := s, lastM := m }
  | some (t, true) => { u with active := some t, shadowT := u.active, swapS := s, lastS := s, lastM := m }
  | none => { u with active := some ⟨k, rows⟩, shadowT := u.active, lastL := l, lastK := k.k, swapS := s, lastS := s, lastM := m }

/-- The registers after the sub-passes of a WS-GEMM, and the weights that each of them used. The first load begins in the
earliest cycle, or the one before the start where the pass was not chosen at once; a later one as soon as it may (R77, R101). -/
def ArrayU.tileRun (u : ArrayU) (q : Desc) (p : Pair) (rb : List (List Val)) (cycle rs : Nat) :
    ArrayU × List (List (List Val)) :=
  (q.subStarts cycle rs).foldl (fun acc e =>
    let k := q.key p e.2.2
    let l := if e.1 = cycle && cycle != u.freeAt then max acc.1.loadFrom (cycle - 1) else acc.1.loadFrom
    let v := acc.1.useTile k (pieceRows q.split e.2.2 rb) l e.1 e.2.1
    (v, acc.2 ++ [match v.active with | some t => t.rows | none => []])) (u, [])

/-- Some sub-pass of a WS-GEMM must load its tile, so its B operand must be staged whole (R69, R77). -/
def ArrayU.needsB (u : ArrayU) (q : Desc) (p : Pair) (rs : Nat) : Bool :=
  ((q.subStarts 0 rs).foldl (fun (acc : ArrayU × Bool) e =>
    let k := q.key p e.2.2
    (acc.1.useTile k [] 0 e.1 e.2.1, acc.2 || (acc.1.tileFor k).isNone)) (u, false)).2

/-- A WS-GEMM enters the array, to take its A blocks as far as they are staged; `rb` are the rows of B, where they are
staged. -/
def Dev.wsRun (d : Dev) (b a : Nat) (c : Choice) (q : Desc) (p : Pair) (rb : List (List Val)) (cycle stall : Nat) : Dev :=
  let rs := d.get (AG_ARR_STATUS.repair_skew (a / 6) (a % 6))
  let ck := d.checkMode a q
  let d := (ck.1.countStall b a stall c).set (AG_ARR_STATUS.groups_ungated (a / 6) (a % 6)) 16
  let t := (d.arrU a).tileRun q p rb cycle rs
  let u := { t.1 with freeAt := t.1.lastS + t.1.lastM, splitTo := if q.split = 0 then t.1.splitTo else t.1.lastS + t.1.lastM }
  let pegC := u.freeAt + (if ck.2 then 261 else q.n + 129) + rs
  let d := d.putArr a u
  (d.enterRec b a c { d.passRec b a c cycle pegC with
    more := q.aBlocks p, wts := t.2, chk := ck.2,
    heldB := if q.split = 0 then 0 else q.k * p.p * rowBytes q.n (if q.split = 2 then 64 else 32) }).takeBlocks b a (q.aBlocks p)

/-- WS-GEMM on an array whose row 0 would enter at a cycle. -/
def Dev.wsGemm (d : Dev) (a cycle stall : Nat) : Dev :=
  let d := d.fetchHeads a
  match d.chosen a 0 with
  | none => d
  | some (b, c, q) =>
    match q.pair, Fmt.ofCode q.fmtOut with
    | some p, some fo =>
      if !d.mayStart a cycle then d.passWaits a cycle
      else if d.skips b q then d.skipPass b a c cycle
      else if q.k = 0 then d.wsEmpty b a c q fo cycle
      else if !d.ungated a then d.requestStart a cycle
      else
        let u := d.arrU a
        if (u.stagedRows c false 0).isNone then d.stalled a
        else if !u.needsB q p (d.get (AG_ARR_STATUS.repair_skew (a / 6) (a % 6))) then d.wsRun b a c q p [] cycle stall
        else
          match u.stagedRows c true 0 with
          | none => d.stalled a
          | some rb =>
            if (u.tileFor (q.key p ((bPieces q.split).headD 0))).isSome || decide (u.loadFrom + 1 ≤ cycle) then
              d.wsRun b a c q p rb cycle stall
            else d
    | _, _ => d

/-- WS_GEMM: R76, R77, R79, R81, R100, R101. -/
def execWsGemm (arr : ArrId) (cycle stall : Nat) (s : State) : Host.Outcome State Fault Refusal :=
  onDev s fun d => d.wsGemm arr.val cycle stall

/-! ### OS-GEMM and DRAIN (R75, R78, R81, R103) -/

/-- An OS-GEMM enters the array, to take its A blocks as far as they are staged; a clear accumulate bit starts every accumulator
from zero. -/
def Dev.osRun (d : Dev) (b a : Nat) (c : Choice) (q : Desc) (p : Pair) (rb : List (List Val)) (cycle stall : Nat) : Dev :=
  let rs := d.get (AG_ARR_STATUS.repair_skew (a / 6) (a % 6))
  let ck := d.checkMode a q
  let d := (ck.1.countStall b a stall c).set (AG_ARR_STATUS.groups_ungated (a / 6) (a % 6)) 16
  let u := d.arrU a
  let u := if q.accumulate then u else { u with acc := [], accChk := [] }
  let free := cycle + (bPieces q.split).length * q.k
  let pegC := free + q.m + q.n + rs
  let d := d.putArr a { u with freeAt := free, splitTo := if q.split = 0 then u.splitTo else free, osDone := pegC }
  (d.enterRec b a c { d.passRec b a c cycle pegC with
    more := q.aBlocks p, wts := subWeights q.split rb, chk := ck.2, heldB := operandBytes q p true 0 }).takeBlocks b a (q.aBlocks p)

/-- OS-GEMM with k = 0: one cycle, accumulators zeroed or unchanged (R81). -/
def Dev.osEmpty (d : Dev) (b a : Nat) (c : Choice) (q : Desc) (cycle : Nat) : Dev :=
  let u := d.arrU a
  let u := if q.accumulate then u else { u with acc := [], accChk := [] }
  let d := (d.checkMode a q).1
  (d.putArr a { u with freeAt := cycle + 1, osDone := cycle + 1 }).enterFlight b a c cycle (cycle + 1) [] false

/-- OS-GEMM on an array from a start cycle. -/
def Dev.osGemm (d : Dev) (a cycle stall : Nat) : Dev :=
  let d := d.fetchHeads a
  match d.chosen a 1 with
  | none => d
  | some (b, c, q) =>
    match q.pair with
    | some p =>
      if !d.mayStart a cycle then d.passWaits a cycle
      else if d.skips b q then d.skipPass b a c cycle
      else if q.k = 0 then d.osEmpty b a c q cycle
      else if !d.ungated a then d.requestStart a cycle
      else
        let u := d.arrU a
        match u.stagedRows c false 0, u.stagedRows c true 0 with
        | some _, some rb => d.osRun b a c q p rb cycle stall
        | _, _ => d.stalled a
    | none => d

/-- OS_GEMM: R78, R81, R103. -/
def execOsGemm (arr : ArrId) (cycle stall : Nat) (s : State) : Host.Outcome State Fault Refusal :=
  onDev s fun d => d.osGemm arr.val cycle stall

/-- A DRAIN runs: the chain's accumulators go out as rows, and every accumulator becomes zero (R78). -/
def Dev.drainRun (d : Dev) (b a : Nat) (c : Choice) (q : Desc) (mode : Nat) (fo : Fmt) (cycle stall : Nat) : Dev :=
  let rs := d.get (AG_ARR_STATUS.repair_skew (a / 6) (a % 6))
  let u := d.arrU a
  let ys := accRows mode q.m q.n u.acc
  let ck := d.checkMode a q
  let tol := d.get (AG_ARR_CHECK.tol_exp (a / 6) (a % 6))
  let mism := ck.2 && (ys.zip (accRows mode q.m 1 u.accChk)).any fun e => rowMismatch mode tol e.1 (e.2.headD Val.zero)
  let dr := ck.1.drainRows b a q fo 0 ys
  let l := dr.1.landNew b a dr.2
  let d := (l.1.countStall b a stall c).set (AG_ARR_STATUS.groups_ungated (a / 6) (a % 6)) 16
  let d := d.putArr a { d.arrU a with acc := [], accChk := [], freeAt := cycle + 128 + rs }
  d.enterFlight b a c cycle (cycle + 129 + rs + (if ck.2 then 4 else 0)) l.2 mism

/-- DRAIN on an array: it may start in the cycle after the last OS-GEMM of its chain completes (R78). -/
def Dev.drainPass (d : Dev) (a cycle stall : Nat) : Dev :=
  let d := d.fetchHeads a
  match d.chosen a 3 with
  | none => d
  | some (b, c, q) =>
    match (d.arrU a).chain, Fmt.ofCode q.fmtOut with
    | some ch, some fo =>
      if !d.mayStart a cycle then d.passWaits a cycle
      else if d.skips b q then d.skipPass b a c cycle
      else if (d.arrU a).inflight.any (fun r => r.desc.op == 1) || decide (cycle < (d.arrU a).osDone) then d
      else if !d.ungated a then d.requestStart a cycle
      else d.drainRun b a c q ch.mode fo cycle stall
    | _, _ => d

/-- DRAIN: R78, R79, R80, R90. -/
def execDrain (arr : ArrId) (cycle stall : Nat) (s : State) : Host.Outcome State Fault Refusal :=
  onDev s fun d => d.drainPass arr.val cycle stall

/-! ### WLOAD (R77) -/

/-- The piece of B that a WLOAD loads: of a split tile the one that the first sub-pass uses (DESIGN CHOICE, log entry 160: no
rule says which). -/
def Desc.wloadPiece (q : Desc) : Nat := (bPieces q.split).headD 0

/-- WLOAD on an array: it loads the shadow, or completes in its issue cycle when its key already matches; with k = 0 there is
nothing to load, and it completes so too (DESIGN CHOICE, log entry 160). While the sub-passes of a split pass run it waits
(R99). -/
def Dev.wloadPass (d : Dev) (a cycle stall : Nat) : Dev :=
  let d := d.fetchHeads a
  match d.chosen a 2 with
  | none => d
  | some (b, c, q) =>
    match q.pair with
    | some p =>
      if decide (cycle < (d.arrU a).splitTo) || (d.arrU a).feeding.any (fun r => r.desc.split != 0) then d.passWaits a cycle
      else if d.skips b q then d.skipPass b a c cycle
      else
        let u := d.arrU a
        if (u.tileFor (q.key p q.wloadPiece)).isSome || q.k = 0 then d.enterFlight b a c cycle (cycle + 1) [] false
        else if !d.ungated a then d.requestStart a cycle
        else
          match u.stagedRows c true 0 with
          | none => d.stalled a
          | some rb =>
            if cycle < u.loadFrom then d
            else
              let d := (d.countStall b a stall c).set (AG_ARR_STATUS.groups_ungated (a / 6) (a % 6)) 16
              let t : Tile := ⟨q.key p q.wloadPiece, pieceRows q.split q.wloadPiece rb⟩
              let d := d.putArr a { u with shadowT := some t, lastL := cycle, lastK := q.k }
              d.enterFlight b a c cycle (cycle + q.k + q.n - 1) [] false
    | none => d

/-- WLOAD: R77. -/
def execWload (arr : ArrId) (cycle stall : Nat) (s : State) : Host.Outcome State Fault Refusal :=
  onDev s fun d => d.wloadPass arr.val cycle stall

/-! ### Completion (R74, R91) -/

/-- The holding level of an array: its share of the AG's level, spread evenly with lower arrays first (R83, R378). -/
def Dev.holdGroups (d : Dev) (a : Nat) : Nat := ((d.agU (a / 6)).hold + 5 - a % 6) / 6

/-- An array with no pass in flight and no ready pass gates its column groups to the holding level; a start that it asked for is
not its groups' level yet (R83, R378). -/
def Dev.gateIdle (d : Dev) (a : Nat) : Dev :=
  let ready := match d.bayOfAg (a / 6) with
    | some b => (d.choose b a).isSome
    | none => false
  if (d.arrU a).inflight.isEmpty && !ready then d.set (AG_ARR_STATUS.groups_ungated (a / 6) (a % 6)) (d.holdGroups a) else d

/-- An array with no pass in flight becomes IDLE; with no ready pass either, it gates its column groups to the holding level
(R83). -/
def Dev.settleArray (d : Dev) (a : Nat) : Dev :=
  let n := a / 6
  let x := a % 6
  if (d.arrU a).inflight.isEmpty then
    (if d.get (AG_ARR_STATUS.state n x) == 2 then d.set (AG_ARR_STATUS.state n x) 1 else d).gateIdle a
  else d

/-- A mismatched pass is counted and reported; three in ten minutes (by default) ask for a locate test (R91, R370). -/
def Dev.countMismatch (d : Dev) (b a : Nat) : Dev :=
  let n := a / 6
  let x := a % 6
  let d := (d.set (AG_ARR_EVENT.mismatch n x) 1).incSat (AG_ARR_CHECK.mismatches n x) 1
  let d := match (d.bayU b).step with
    | some r => d.putBay b { d.bayU b with step := some { r with mism := r.mism + 1 } }
    | none => d
  let r := d.suspect (.array a)
  let d := r.2.emit (.telemetry 1 [a])
  if r.1 then d.putArr a { d.arrU a with locate := max 1 (d.arrU a).locate } else d

/-- The pass that completes next: the least peg cycle among those with every block taken and every row written, the oldest
first. -/
def nextDone (l : List PassRec) : Option PassRec :=
  l.foldl (fun (o : Option PassRec) r =>
    if r.rowsLeft.isEmpty && r.more == 0 then
      match o with
      | none => some r
      | some q => if r.pegCycle < q.pegCycle then some r else some q
    else o) none

/-- A pass completes: its output peg is incremented by one, once per descriptor (R74). -/
def Dev.passComplete (d : Dev) (a : Nat) : Dev :=
  match d.bayOfAg (a / 6), nextDone (d.arrU a).inflight with
  | some b, some r =>
    let u := d.arrU a
    let u := { u with inflight := u.inflight.erase r,
                      disp := if r.current then { u.disp with outstanding := u.disp.outstanding - 1 } else u.disp }
    let d := (d.putArr a u).incWrap (AG_ARR_STATUS.passes (a / 6) (a % 6)) 1
    let d := if r.mismatch then d.countMismatch b a else d
    (d.incPeg (a / 6) r.desc.oPeg 1 0).settleArray a
  | _, _ => d

/-- PASS_COMPLETE: R74. -/
def execPassComplete (arr : ArrId) (s : State) : Host.Outcome State Fault Refusal :=
  onDev s fun d => d.passComplete arr.val

/-- Rows that waited enter the drain queue or tile memory as far as there is room; the waiting cycles are counted
(R140, R141). -/
def Dev.drainRowEnqueue (d : Dev) (a waited : Nat) : Dev :=
  match d.bayOfAg (a / 6), (d.arrU a).inflight.find? (fun r => !r.rowsLeft.isEmpty) with
  | some b, some r =>
    let l := d.landRows b a r.rowsLeft
    if l.2.length = r.rowsLeft.length then d
    else
      let d := l.1.incWrap (AG_VEC_PERF.drain_wait (a / 6) (a % 6)) waited
      let u := d.arrU a
      d.putArr a { u with freeAt := u.freeAt + waited
                          inflight := u.inflight.map fun q =>
                            if q == r then { q with rowsLeft := l.2, pegCycle := q.pegCycle + waited } else q }
  | _, _ => d

/-- DRAIN_ROW_ENQUEUE: R141. -/
def execDrainRowEnqueue (arr : ArrId) (waited : Nat) (s : State) : Host.Outcome State Fault Refusal :=
  onDev s fun d => d.drainRowEnqueue arr.val waited

/-- The start arbiter grants the oldest request, at least 16 cycles after the last start; the array's groups ungate (R83,
R84). -/
def Dev.arrayStartGrant (d : Dev) (n cycle : Nat) : Dev :=
  let u := d.agU n
  match u.startReq with
  | [] => d
  | (_, x) :: rest =>
    if (match u.lastStart with | some l => decide (cycle < l + 16) | none => false) then d
    else
      (d.putAg n { u with startReq := rest, lastStart := some cycle }).set (AG_ARR_STATUS.groups_ungated n x) 16

/-- ARRAY_START_GRANT: R83, R84. -/
def execArrayStartGrant (ag : AgId) (cycle : Nat) (s : State) : Host.Outcome State Fault Refusal :=
  onDev s fun d => d.arrayStartGrant ag.val cycle

/-! ### Staging (R69, R117) -/

/-- Descriptors that the feeder may stage ahead, nearest to issue first: every candidate, then up to prefetch − 1 passes
behind each candidate in its class or in the backlog (R69). -/
def Dev.stageList (d : Dev) (b a : Nat) : List (Nat × Nat) :=
  let u := (d.arrU a).disp
  let depth := max 1 (d.get (AG_FDR_CFG.prefetch (a / 6) (a % 6)))
  let queues := [0, 1, 3].map (fun c => (u.work.filter fun i => (d.descAt b a i).cls == c).map fun i => (i, u.index)) ++
    [u.backlog.map fun e => (e.desc, e.tag)]
  (List.range depth).flatMap fun j => queues.filterMap fun q => q[j]?

/-- Bytes of a block in the feeder buffer with the block parameters that its rows use, and with A the existing output rows of a
WS-GEMM that accumulates without being split: those of the block, or of 128 rows of a transposed one (R69, R117; DEDUCED, log
entry 163). -/
def Dev.blockBytes (d : Dev) (a : Nat) (q : Desc) (p : Pair) (isB : Bool) (blk : Nat) : Nat :=
  let s := d.scaleOf a q.sel isB
  let rows := if isB then q.n else min 128 (q.m - 128 * blk)
  let params := if s.kind = 0 then 0 else rows * ((q.k * p.p + s.elems - 1) / s.elems * s.size)
  let old := if isB || q.op != 0 || !q.accumulate || q.split != 0 then 0
    else match Fmt.ofCode q.fmtOut with
      | some fo => (if q.transA then min 128 q.m else min 128 (q.m - 128 * blk)) * rowBytes q.n fo.width
      | none => 0
  operandBytes q p isB blk + params + old

/-- What an operand's part of the feeder buffer holds: blocks staged, what passes in flight keep, and in A's part the sum area
of 512 KiB while a split WS-GEMM is staged or in flight (R100, R102). -/
def Dev.bufferUsed (d : Dev) (b a : Nat) (isB : Bool) : Nat :=
  let u := d.arrU a
  let blocks := (u.staged.filter fun s => s.isB == isB).foldl (fun t s => t + s.bytes) 0
  let kept := u.inflight.foldl (fun t r => t + if isB then r.heldB else r.heldA) 0
  let splitWs (q : Desc) : Bool := q.op == 0 && q.split != 0
  let sums := if !isB && (u.inflight.any (fun r => splitWs r.desc) || u.staged.any fun s => splitWs (d.descAt b a s.desc))
    then 0x80000 else 0
  blocks + kept + sums

/-- Room in the part of the 2 MiB buffer that a_share gives an operand (R117). -/
def Dev.bufferRoom (d : Dev) (b a : Nat) (isB : Bool) (bytes : Nat) : Bool :=
  let share := d.get (AG_FDR_CFG.a_share (a / 6) (a % 6))
  decide (d.bufferUsed b a isB + bytes ≤ (if isB then 8 - share else share) * 0x40000)

/-- The first block of an operand of a descriptor that is not staged, from block `from_` on. -/
def Dev.blockMissing (d : Dev) (b a : Nat) (q : Desc) (desc tag : Nat) (isB : Bool) (from_ : Nat) : Option Staged :=
  match q.pair with
  | none => none
  | some p =>
    let have_ (k : Nat) : Bool := (d.arrU a).staged.any fun s => s.desc == desc && s.tag == tag && s.isB == isB && s.block == k
    (((List.range (if isB then 1 else q.aBlocks p)).drop from_).find? (fun k => !have_ k)).map fun k =>
      { desc := desc, tag := tag, isB := isB, block := k, bytes := d.blockBytes a q p isB k,
        rows := if isB then d.readB b a q p else d.readABlock b a q p k }

/-- The next block of A that the pass in flight takes, if it is not staged (R69). -/
def Dev.blockDue (d : Dev) (b a : Nat) : Option Staged :=
  match (d.arrU a).feeding with
  | some r =>
    match r.desc.pair with
    | some p => d.blockMissing b a r.desc r.idx r.tag false (r.desc.aBlocks p - r.more)
    | none => none
  | none => none

/-- The next block of an operand that the feeder has requested (R69): one that the pass in flight needs; else that of the
nearest pass that needs one whose own peg has reached its threshold, which must have room unless it is the pass that the
dispatcher has chosen (DESIGN CHOICE, log entry 164: no wait for room keeps a valid descriptor from running, R82). -/
def Dev.nextStage (d : Dev) (b a : Nat) (isB : Bool) : Option Staged :=
  match (if isB then none else d.blockDue b a) with
  | some g => some g
  | none =>
    if !d.mayIssue b a then none
    else
      let thr := AG_ARR_THR.off (a / 6) (a % 6) 0
      let now := d.choose b a
      ((d.stageList b a).filterMap fun e =>
        let q := d.descAt b a e.1
        if q.k = 0 || (isB && 2 < q.op) || (!isB && 1 < q.op) then none
        else if !(if isB then d.waitOk thr q.bSel (a / 6) q.bPeg e.2 else d.waitOk thr q.aSel (a / 6) q.aPeg e.2) then none
        else
          (d.blockMissing b a q e.1 e.2 isB 0).filter fun g =>
            d.bufferRoom b a isB g.bytes || now.any fun c => c.desc == e.1 && c.tag == e.2).head?

/-- An error in a feeder buffer: a corrected one is counted; an uncorrectable one makes the block staged again, which costs
stall cycles and has no other effect (R117). -/
def Dev.feederError (d : Dev) (a : Nat) (line : Nat) (f : EccFinding) : Dev :=
  let n := a / 6
  match f with
  | .corrected =>
    let d := d.sets [(AG_TM_LAST.line n, line), (AG_TM_LAST.in_feeder n, 1), (AG_TM_LAST.feeder_arr n, a % 6)]
    ((d.incWrap (AG_TM_ERR.corrected n) 1).set (AG_TM_LAST.uncorrectable n) 0).set (AG_TM_EVENT.corrected n) 1
  | .uncorrectable => d

/-- The pass in flight waited for a block of A: what it does later comes later, and the wait is counted (R69). -/
def Dev.fedLate (d : Dev) (b a stall : Nat) : Dev :=
  let u := d.arrU a
  match u.feeding with
  | none => d
  | some r =>
    let late (t : Nat) : Nat := if r.desc.split = 0 then t else t + stall
    let d := d.countStall b a stall { desc := r.idx, tag := r.tag, backlog := !r.current, aged := false }
    let u := { u.putFeeding { r with pegCycle := r.pegCycle + stall } with freeAt := u.freeAt + stall, splitTo := late u.splitTo }
    d.putArr a (if r.desc.op = 1 then { u with osDone := u.osDone + stall } else { u with lastS := u.lastS + stall })

/-- Waits for mesh links are counted for an AG (R136). -/
def Dev.meshWaits (d : Dev) (n : Nat) (w : MeshWait) : Dev :=
  (d.incWrap (AG_MESH_STATUS.static_wait n) w.static).incWrap (AG_MESH_STATUS.be_wait n) w.bestEffort

/-- A requested block is in the feeder buffer; a pass in flight that waited for it takes it. -/
def Dev.stagingComplete (d : Dev) (a : Nat) (isB : Bool) (stall : Nat) (mesh : MeshWait) (buf : Option (Nat × EccFinding)) :
    Dev :=
  let d := d.meshWaits (a / 6) mesh
  let d := d.putArr a { d.arrU a with meshStall := (d.arrU a).meshStall + max mesh.static mesh.bestEffort }
  let d := match buf with
    | some (l, f) => d.feederError a l f
    | none => d
  match buf, d.bayOfAg (a / 6) with
  | some (_, .uncorrectable), _ => d
  | _, none => d
  | _, some b =>
    match d.nextStage b a isB with
    | none => d
    | some s =>
      let late := !isB && (d.blockDue b a).isSome
      let d := d.putArr a { d.arrU a with staged := (d.arrU a).staged ++ [s] }
      if late then (d.fedLate b a stall).takeBlocks b a ((d.arrU a).staged.length) else d

/-- STAGING_COMPLETE: R69, R117, R118, R136. -/
def execStagingComplete (arr : ArrId) (isB : Bool) (fin : StagingEnd) (s : State) : Host.Outcome State Fault Refusal :=
  onDev s fun d => d.stagingComplete arr.val isB fin.stall fin.mesh (fin.buf.map fun p => (p.1.val, p.2))

/-! ### Locate test and repair (R87, R371) -/

/-- The locate test starts in a window in which no pass is in flight, no step runs or is pre-empted, and 2,048 cycles are
left before the set closes; it clears weights and tile keys, and leaves the accumulators at zero, which no pass reads before it
has set them (R87; DESIGN CHOICE, log entry 165: the test only overwrites them). -/
def Dev.locateTest (d : Dev) (a : Nat) : Dev :=
  let u := d.arrU a
  let busy := match d.bayOfAg (a / 6) with
    | some b => d.bayBusy b
    | none => false
  if u.locate = 1 && u.inflight.isEmpty && !busy && decide (d.clk.timeNs + 1138 ≤ d.clk.nextEdgeNs - 250) then
    d.putArr a { u with locate := 2, active := none, shadowT := none, acc := [], accChk := [] }
  else d

/-- LOCATE_TEST: R87. -/
def execLocateTest (arr : ArrId) (s : State) : Host.Outcome State Fault Refusal := onDev s fun d => d.locateTest arr.val

/-- FLT writes REPAIR for a row (or column) bypass and arms the repair joint, with origin 0x0050 (R87). -/
def Dev.addBypass (d : Dev) (a : Nat) (isRow : Bool) (slot index : Nat) : Dev :=
  let n := a / 6
  let x := a % 6
  let en := if isRow then (if slot = 0 then AG_ARR_REPAIR.row_en0 n x else AG_ARR_REPAIR.row_en1 n x)
    else (if slot = 0 then AG_ARR_REPAIR.col_en0 n x else AG_ARR_REPAIR.col_en1 n x)
  let ix := if isRow then (if slot = 0 then AG_ARR_REPAIR.row0 n x else AG_ARR_REPAIR.row1 n x)
    else (if slot = 0 then AG_ARR_REPAIR.col0 n x else AG_ARR_REPAIR.col1 n x)
  ((d.setShadow en.off en.lo en.w 1 0x50).setShadow ix.off ix.lo ix.w index 0x50)

/-- The faults need more than the shims can bypass: unrepairable is set, and the AG is disabled for later bays (R87, R371). -/
def Dev.markUnrepairable (d : Dev) (a : Nat) : Dev :=
  (((d.set (AG_ARR_STATUS.unrepairable (a / 6) (a % 6)) 1).clearBit GLB_STATUS.ag_usable (a / 6)).jnlEventAfter 0x50 0x0006
    (regAddr (AG_ARR_STATUS.off (a / 6) 0)) (a % 6)).fieldUpdate fun r =>
      { r with disabledAgs := r.disabledAgs ||| 2 ^ (a / 6) }

/-- Sublists of a list of exactly n elements. -/
def sublistsOf : List Nat → Nat → List (List Nat)
  | _, 0 => [[]]
  | [], _ + 1 => []
  | x :: xs, n + 1 => (sublistsOf xs n).map (x :: ·) ++ sublistsOf xs (n + 1)

/-- Sublists of a list of at most n elements, longer ones first. -/
def shortSublists (l : List Nat) (n : Nat) : List (List Nat) := ((List.range (n + 1)).reverse).flatMap (sublistsOf l)

/-- Distinct elements in order of first appearance. -/
def distinct (l : List Nat) : List Nat := l.foldl (fun t x => if t.contains x then t else t ++ [x]) []

/-- The bypasses that repair the faulty cells (R87): one row, one column, or for a single cell its row before its column;
otherwise rows first, then columns for the cells left over. DEDUCED for faults spread over several rows and columns: R87
calls unrepairable only what more than two bypasses on an axis would need. -/
def coverFaults (faults : List (Nat × Nat)) (freeRows freeCols : Nat) : Option (List Nat × List Nat) :=
  let rows := distinct (faults.map (·.1))
  let cols := distinct (faults.map (·.2))
  if rows.length = 1 && decide (1 ≤ freeRows) then some (rows, [])
  else if cols.length = 1 && decide (1 ≤ freeCols) then some ([], cols)
  else (shortSublists rows freeRows).findSome? fun rs =>
    let left := distinct ((faults.filter fun f => !rs.contains f.1).map (·.2))
    if left.length ≤ freeCols then some (rs, left) else none

/-- Bypass slots of an axis not in use. -/
def freeSlots (en0 en1 : Bool) : List Nat := (if en0 then [] else [0]) ++ (if en1 then [] else [1])

/-- FLT's answer to the faulty cells found, as (physical row, physical column) (R87). -/
def Dev.repairFaults (d : Dev) (a : Nat) (faults : List (Nat × Nat)) : Dev :=
  let n := a / 6
  let x := a % 6
  let rs := freeSlots (d.flag (AG_ARR_REPAIR.row_en0 n x)) (d.flag (AG_ARR_REPAIR.row_en1 n x))
  let cs := freeSlots (d.flag (AG_ARR_REPAIR.col_en0 n x)) (d.flag (AG_ARR_REPAIR.col_en1 n x))
  match coverFaults faults rs.length cs.length with
  | some (rows, cols) =>
    let d := (rows.zip rs).foldl (fun d p => d.addBypass a true p.2 p.1) d
    let d := (cols.zip cs).foldl (fun d p => d.addBypass a false p.2 p.1) d
    let d := d.fieldUpdate fun r =>
      { r with arrRepair := Tab.put (fun _ => 0) r.arrRepair a (d.shadowWord (AG_ARR_REPAIR.off n x)) }
    d.armJoint 0x50 (AG_JOINT_COMMIT.off n) (0x20 + x) 0
  | none => d.markUnrepairable a

/-- A cell lies in a row or column that is bypassed. -/
def Dev.bypassed (d : Dev) (a : Nat) (f : Nat × Nat) : Bool :=
  let n := a / 6
  let x := a % 6
  (d.flag (AG_ARR_REPAIR.row_en0 n x) && d.get (AG_ARR_REPAIR.row0 n x) == f.1) ||
  (d.flag (AG_ARR_REPAIR.row_en1 n x) && d.get (AG_ARR_REPAIR.row1 n x) == f.1) ||
  (d.flag (AG_ARR_REPAIR.col_en0 n x) && d.get (AG_ARR_REPAIR.col0 n x) == f.2) ||
  (d.flag (AG_ARR_REPAIR.col_en1 n x) && d.get (AG_ARR_REPAIR.col1 n x) == f.2)

/-- The locate test ends (R87); a list with no fault outside the bypassed rows and columns is a
clean test. -/
def Dev.locateTestDone (d : Dev) (a : Nat) (faults : List (Nat × Nat)) : Dev :=
  let u := d.arrU a
  if u.locate = 2 then
    let d := (d.putArr a { u with locate := 0 }).set (AG_ARR_EVENT.locate_done (a / 6) (a % 6)) 1
    let faults := faults.filter fun f => !d.bypassed a f
    if faults.isEmpty then d.set (AG_ARR_EVENT.locate_clean (a / 6) (a % 6)) 1
    else (d.set (AG_ARR_EVENT.locate_clean (a / 6) (a % 6)) 0).repairFaults a faults
  else d

/-- LOCATE_TEST_DONE: R87. -/
def execLocateTestDone (arr : ArrId) (faults : List (Fin 130 × Fin 130)) (s : State) : Host.Outcome State Fault Refusal :=
  onDev s fun d => d.locateTestDone arr.val (faults.map fun p => (p.1.val, p.2.val))

end Sys2Proof.Machine
end

