-- ==== Sys2Proof/Machine/Ring.lean ====
section
/-! DEFINITION. Command rings: fetch, start order, completions, doorbells, interrupts, and the loss of a host
(spec/19_host_interface.md, R434 to R444, R449, R452). Rings 0 to 63 are the context rings; 64 and 65 the admin rings. -/

namespace Sys2Proof.Machine

/-! ### Ring registers -/

/-- Offset of the CFG register of ring r. -/
def ringBase (r : Nat) : Nat := if r < 64 then 0x3620000 + 0x40 * r else 0x3610000 + 0x40 * (r - 64)
def RC.en (r : Nat) : RF := ⟨ringBase r, 0, 1⟩
def RC.sqLog2 (r : Nat) : RF := ⟨ringBase r, 1, 4⟩
def RC.cqLog2 (r : Nat) : RF := ⟨ringBase r, 5, 4⟩
def RC.msix (r : Nat) : RF := ⟨ringBase r, 9, 7⟩
def RC.coalCount (r : Nat) : RF := ⟨ringBase r, 16, 8⟩
def RC.coalUs (r : Nat) : RF := ⟨ringBase r, 24, 10⟩
def RQ.sqBase (r : Nat) : RF := ⟨ringBase r + 0x08, 6, 58⟩
def RQ.cqBase (r : Nat) : RF := ⟨ringBase r + 0x10, 6, 58⟩
def RS.state (r : Nat) : RF := ⟨ringBase r + 0x18, 0, 2⟩
def RS.sqHead (r : Nat) : RF := ⟨ringBase r + 0x18, 2, 12⟩
def RS.cqTail (r : Nat) : RF := ⟨ringBase r + 0x18, 14, 12⟩
def RS.phase (r : Nat) : RF := ⟨ringBase r + 0x18, 26, 1⟩
def RS.inFlight (r : Nat) : RF := ⟨ringBase r + 0x18, 27, 7⟩
def RS.cqFull (r : Nat) : RF := ⟨ringBase r + 0x18, 34, 1⟩
def RS.fetchErr (r : Nat) : RF := ⟨ringBase r + 0x18, 35, 1⟩
def RS.cqErr (r : Nat) : RF := ⟨ringBase r + 0x18, 36, 1⟩
def RS.cfgRefused (r : Nat) : RF := ⟨ringBase r + 0x18, 37, 1⟩

/-- Ring states: 0 OFF, 1 RUN, 2 DRAINING, 3 ERROR. -/
def Dev.ringState (d : Dev) (r : Nat) : Nat := d.get (RS.state r)

/-- The port of a ring's owner (R438). -/
def Dev.ringPort (d : Dev) (r : Nat) : Nat := if r < 64 then d.get (HIF_RING_OWN.port r) else r - 64

/-- The function that owns a ring (R438): PF0 for an admin ring. -/
def Dev.ringFunc (d : Dev) (r : Nat) : Nat := if r < 64 then d.get (HIF_RING_OWN.func r) else 0

/-- n bytes of an entry from byte lo, little-endian. -/
def Cmd.num (c : Cmd) (lo n : Nat) : Nat := (c.entry.toNat >>> (8 * lo)) % 2 ^ (8 * n)

/-- Port p serves bay b (R435); a bay that is RAISING is served by the ports its RAISE names. -/
def Dev.serves (d : Dev) (b p : Nat) : Bool :=
  d.bitOf (HIF_BAY_FUNC.ports b) p ||
    (d.bayState b == bayRaising && match (d.bayU b).raise with | some r => (r.cmd.num 14 1).testBit p | none => false)

/-- Function f of port p is assigned to bay b (R435): a VF of its mask, or PF0 of a serving port. -/
def Dev.assigned (d : Dev) (b p f : Nat) : Bool :=
  d.serves b p && (f == 0 || d.bitOf (if p = 0 then HIF_BAY_FUNC.vf_a b else HIF_BAY_FUNC.vf_b b) (f - 1))

/-- Entries of a queue: 2^log2. -/
def Dev.sqSize (d : Dev) (r : Nat) : Nat := 2 ^ d.get (RC.sqLog2 r)
def Dev.cqSize (d : Dev) (r : Nat) : Nat := 2 ^ d.get (RC.cqLog2 r)

/-! ### Completions (R441, R443) -/

/-- in_flight and cq_full follow the ring's record. -/
def Dev.showRing (d : Dev) (r : Nat) : Dev :=
  let u := d.ringU r
  d.sets [(RS.inFlight r, u.fetched.length + u.started.length),
    (RS.cqFull r, (decide (d.ringState r ≠ 0) && (!u.held.isEmpty || decide (d.cqSize r ≤ u.cqUsed))).toNat)]

/-- The 16 bytes of a completion. -/
def cplBytes (c : Cpl) (phase : Nat) : List Byte :=
  toBytes 2 c.id ++ toBytes 2 c.sqHead ++ toBytes 1 c.status ++ toBytes 1 phase ++ toBytes 2 0 ++ toBytes 8 c.result

/-- The ring's vector is sent. -/
def Dev.signal (d : Dev) (r : Nat) : Dev :=
  (d.putRing r { d.ringU r with unsent := 0 }).emit (.msix (d.ringPort r) (d.ringFunc r) (d.get (RC.msix r)))

/-- A ring enters ERROR because a completion write fails (R442). -/
def Dev.cqError (d : Dev) (r : Nat) : Dev := d.sets [(RS.state r, 3), (RS.cqErr r, 1), (HIF_EVENT.cq_err, 1)]

/-- A completion written at the CQ tail, and the ring's vector when enough are pending (R441). -/
def Dev.writeCpl (d : Dev) (r : Nat) (c : Cpl) : Dev :=
  let tail := d.get (RS.cqTail r)
  let addr := d.get (RQ.cqBase r) * 64 + tail * 16
  if d.untranslated (d.ringPort r) (d.ringFunc r) addr 16 then d.cqError r
  else
    let phase := d.get (RS.phase r)
    let d := d.putHostBytes (d.ringPort r) addr (cplBytes c phase)
    let d := if tail + 1 < d.cqSize r then d.set (RS.cqTail r) (tail + 1)
      else (d.set (RS.cqTail r) 0).set (RS.phase r) (1 - phase)
    let u := d.ringU r
    let d := d.putRing r { u with cqUsed := u.cqUsed + 1, unsent := u.unsent + 1,
                                  firstNs := if u.unsent = 0 then d.clk.timeNs else u.firstNs }
    if d.get (RC.coalCount r) ≤ u.unsent + 1 then d.signal r else d

/-- Held completions are written in order while the CQ has room (R441). -/
def Dev.releaseHeld (d : Dev) (r : Nat) : Nat → Dev
  | 0 => d
  | n + 1 =>
    let u := d.ringU r
    match u.held with
    | [] => d
    | c :: rest =>
      if u.cqUsed < d.cqSize r && d.ringState r != 3 then
        ((d.putRing r { u with held := rest }).writeCpl r c).releaseHeld r n
      else d

/-- A completion is posted: written, held while the CQ is full, or not written where the ring is in ERROR, or has been taken OFF
from ERROR (R441, R442). -/
def Dev.post (d : Dev) (r : Nat) (c : Cpl) : Dev :=
  let u := d.ringU r
  if d.ringState r == 3 || d.ringState r == 0 then d
  else if u.held.isEmpty && decide (u.cqUsed < d.cqSize r) then d.writeCpl r c
  else d.putRing r { u with held := u.held ++ [c] }

/-- A DRAINING ring whose last started command has completed shows OFF (R442). -/
def Dev.drainRing (d : Dev) (r : Nat) : Dev :=
  if d.ringState r == 2 && (d.ringU r).started.isEmpty then d.set (RS.state r) 0 else d

/-- A command completes with a status and a result (R441, R443). A command of a ring that a host loss stopped posts nothing;
the dropped completion is counted (R449). -/
def Dev.complete (d : Dev) (c : Cmd) (status result : Nat) : Dev :=
  let u := d.ringU c.ring
  if u.dropped.contains c then
    (d.putRing c.ring { u with dropped := u.dropped.erase c }).incSat (HIF_PORT_STATUS.cpl_dropped (d.ringPort c.ring)) 1
  else if u.fetched.contains c || u.started.contains c then
    let d := d.putRing c.ring { u with fetched := u.fetched.erase c, started := u.started.erase c }
    ((d.post c.ring { id := c.id, sqHead := c.sqHead, status := status, result := result }).drainRing c.ring).showRing c.ring
  else d

/-! ### Entries (R443, R445, R447) -/

/-- The opcode of an entry. -/
def Cmd.op (c : Cmd) : Nat := c.num 0 1

/-- Admin ring commands: their port. -/
def Cmd.port (c : Cmd) : Nat := c.ring - 64
def Cmd.isAdmin (c : Cmd) : Bool := decide (64 ≤ c.ring)

/-- The flag bits an op uses, and the byte ranges (first, count) it uses beyond the header (R443, R445); none for a reserved
op or one that its ring does not allow. -/
def cmdForm (op : Nat) (admin : Bool) : Option (Nat × List (Nat × Nat)) :=
  match op, admin with
  | 0, _ => some (0, [])
  | 1, true => some (0, [(8, 7), (16, 32)])
  | 2, true => some (0, [(8, 1)])
  | 3, false => some (1, [(8, 4)])
  | 4, false => some (0x30, [(8, 26)])
  | 5, false => some (0, [(16, 24)])
  | 6, true => some (0, [(8, 1)])
  | 6, false => some (0, [])
  | 7, true => some (4, [(8, 6), (16, 8)])
  | 8, false => some (0, [])
  | 9, true => some (0, [(8, 3)])
  | 9, false => some (0, [(8, 2)])
  | 10, false => some (2, [(8, 1)])
  | 11, false => some (0, [(8, 1)])
  | 12, true => some (0, [(8, 1), (10, 1), (16, 8)])
  | 12, false => some (0, [(8, 1), (16, 8)])
  | _, _ => none

/-- Every byte of an entry that its op does not use is zero. -/
def Cmd.unusedZero (c : Cmd) (used : List (Nat × Nat)) : Bool :=
  (List.range 60).all fun i =>
    let k := 4 + i
    used.any (fun u => decide (u.1 ≤ k) && decide (k < u.1 + u.2)) || c.num k 1 == 0

/-- The field rules of R445 and R447 for an op, beyond its zero bytes; addresses are checked apart. -/
def Cmd.fieldsOk (c : Cmd) : Bool :=
  match c.op with
  | 1 => decide (c.num 8 1 < 8) && decide (c.num 9 1 ≤ 1) && decide (c.num 10 1 ≤ 2) && decide (c.num 11 1 ≤ 3) &&
         decide (c.num 12 2 < 4096) && within (c.num 14 1) 1 4 && c.num 16 4 % 2 == 0 && c.num 20 4 % 2 == 0 &&
         (c.num 10 1 == 2 || c.num 40 8 == 0)
  | 2 => decide (c.num 8 1 < 8)
  | 4 => c.num 8 8 % 64 == 0 && c.num 16 8 % 64 == 0 && c.num 24 8 % 64 == 0 && c.num 24 8 != 0 &&
         !((c.num 1 1).testBit 4 && (c.num 1 1).testBit 5) && decide (c.num 32 2 < 2 ^ 15) &&
         ((c.num 1 1).testBit 4 || (c.num 1 1).testBit 5 || c.num 32 2 == 0)
  | 5 => c.num 16 8 % 64 == 0 && c.num 24 8 % 64 == 0 && c.num 24 8 != 0
  | 6 => decide (c.num 8 1 < 8)
  | 7 => decide (c.num 8 1 < 8) && decide (c.num 9 1 ≤ 2) && (c.num 9 1 == 2 || c.num 16 8 == 0)
  | 9 => decide (c.num 8 1 ≤ 9) && decide (c.num 9 1 < 8) && decide (c.num 10 1 < 8)
  | 10 | 11 => decide (c.num 8 1 < 8)
  | 12 => decide (c.num 8 1 ≤ 1) && (c.isAdmin || c.num 8 1 == 0) && decide (c.num 10 1 < 8)
  | _ => true

/-- An entry is well formed (R443, R447). -/
def Cmd.formOk (c : Cmd) : Bool :=
  match cmdForm c.op c.isAdmin with
  | some (flags, used) => (c.num 1 1) &&& (255 - flags) == 0 && c.unusedZero used && c.fieldsOk
  | none => false

/-- The bay a command names: the ring's own bay on a context ring. -/
def Cmd.bay (c : Cmd) : Nat :=
  if c.isAdmin then (match c.op with | 9 | 12 => c.num 10 1 | _ => c.num 8 1) else c.ring / 8

/-- An admin command names a bay its port does not serve (R447); RAISE into an EMPTY bay, STRIKE of a FROZEN bay and commands
without a bay are exempt. A STRIKE of an EMPTY bay completes with OK (R191). -/
def Dev.notServed (d : Dev) (c : Cmd) : Bool :=
  c.isAdmin && !d.serves c.bay c.port &&
  (match c.op with
   | 1 => d.bayState c.bay != bayEmpty
   | 2 => d.bayState c.bay != bayFrozen && d.bayState c.bay != bayEmpty &&
       !(d.bayState c.bay == bayStriking && d.get (HIF_BAY_FUNC.ports c.bay) == 0)
   | 6 | 7 => true
   | 9 => decide (c.num 8 1 ≤ 7)
   | 12 => c.num 8 1 == 0
   | _ => false)

/-! ### Starting commands (R232, R440, R441) -/

/-- A ring may start its next command: it runs, its CQ has room, and a FROZEN bay's commands wait (R441, R442, R451). -/
def Dev.ringStarts (d : Dev) (r : Nat) : Bool :=
  let u := d.ringU r
  d.ringState r == 1 && u.held.isEmpty && decide (u.cqUsed < d.cqSize r) &&
    (decide (64 ≤ r) || d.bayState (r / 8) != bayFrozen)

/-- A command is not run, and its status says why: BAD_COMMAND for a malformed entry (R447), STRUCK or NO_RESOURCE for a
context-ring command other than NOP, FENCE and QUERY whose bay is STRIKING, EMPTY or RAISING (R232), ACCESS_DENIED for a bay
the port does not serve (R447). -/
def Dev.preCheck (d : Dev) (c : Cmd) : Option Nat :=
  if !c.formOk then some stBadCommand
  else if !c.isAdmin && !(c.op == 0 || c.op == 8 || c.op == 9) && d.bayState c.bay == bayStriking then some stStruck
  else if !c.isAdmin && !(c.op == 0 || c.op == 8 || c.op == 9) &&
      (d.bayState c.bay == bayEmpty || d.bayState c.bay == bayRaising) then some stNoResource
  else if d.notServed c then some stAccessDenied
  else none

/-- Malformed entries whose opcode is reserved complete with BAD_COMMAND as they reach the front. -/
def Dev.flushBad (d : Dev) (r : Nat) : Nat → Dev
  | 0 => d
  | n + 1 =>
    match (d.ringU r).fetched with
    | c :: _ =>
      if d.ringStarts r && decide (12 < c.op) then (d.complete c stBadCommand 0).flushBad r n else d
    | [] => d

/-- The command at the front of a ring leaves the fetched commands and counts as started. -/
def Dev.startCmd (d : Dev) (c : Cmd) : Dev :=
  let u := d.ringU c.ring
  d.putRing c.ring { u with fetched := u.fetched.erase c, started := u.started ++ [c] }

/-- What a host command does: nothing unless the ring may start and its front command has the opcode; a command that fails
the first checks completes with their status; otherwise `run` gives its effect. -/
def Dev.hostCmd (d : Dev) (r op : Nat) (run : Dev → Cmd → Dev) : Dev :=
  match (d.ringU r).fetched with
  | c :: _ =>
    if d.ringStarts r && c.op == op then
      match d.preCheck c with
      | some st => (d.complete c st 0).flushBad r 64
      | none => (run d c).flushBad r 64
    else d
  | [] => d

/-! ### Enabling, disabling, doorbells, fetching -/

/-- en = 1 is refused: the ring is not OFF, a context ring's owner is not assigned or its bay is neither RAISED nor FROZEN, or
an admin ring has a vector (R438, R453). -/
def Dev.ringBad (d : Dev) (r : Nat) : Bool :=
  d.ringState r != 0 ||
    (if r < 64 then
      !d.assigned (r / 8) (d.ringPort r) (d.ringFunc r) || !(d.bayState (r / 8) == bayRaised || d.bayState (r / 8) == bayFrozen)
    else d.get (RC.msix r) != 0)

/-- A ring whose en has become 1 starts empty, from index 0 and phase 1 (R438, R441). -/
def Dev.ringStart (d : Dev) (r : Nat) : Dev :=
  let d := d.sets [(RS.state r, 1), (RS.sqHead r, 0), (RS.cqTail r, 0), (RS.phase r, 1), (RS.fetchErr r, 0), (RS.cqErr r, 0)]
  (d.putRing r { RingU.reset with dropped := (d.ringU r).dropped }).showRing r

/-- A context whose waiting command is gone: READY only if it has a pre-empted step (R237). -/
def Dev.unready (d : Dev) (k : Nat) : Dev :=
  let f := SCH_CTX_STATE.state (k / 8) (k % 8)
  let u := d.ctxU k
  if u.pre.isSome then d
  else
    let d := d.putCtx k { u with waitingSince := none }
    if d.get f == 2 then d.set f 1 else d

/-- A ring whose en has become 0: fetching stops, fetched commands that have not started complete with PREEMPTED, and the ring
drains to OFF (R442). -/
def Dev.ringStop (d : Dev) (r : Nat) : Dev :=
  if d.ringState r == 3 then (d.putRing r { d.ringU r with fetched := [], held := [] }).set (RS.state r) 0 |>.showRing r
  else if d.ringState r == 0 then d
  else
    let d := (d.ringU r).fetched.foldl (fun d c => d.complete c stPreempted 0) d
    let d := if r < 64 then d.unready r else d
    ((d.set (RS.state r) 2).drainRing r).showRing r

/-- A doorbell is refused: the device is not ready, the function does not own the ring, or the index is too large (R439,
R448). -/
def Dev.doorbellBad (d : Dev) (p f r index size : Nat) : Bool :=
  !d.flag GLB_STATUS.ready || d.ringPort r != p || d.ringFunc r != f || decide (size ≤ index)

/-- The first AG of a bay's mask. -/
def Dev.firstAg (d : Dev) (b : Nat) : Nat := (d.bayAgs b).headD 0

/-- Doorbells of a context ring are held while the control core of its bay's first AG restarts (R402, R439). -/
def Dev.doorbellHeld (d : Dev) (r : Nat) : Bool :=
  decide (r < 64) && match d.bayAgs (r / 8) with | n :: _ => !d.ccRunning n | [] => false

/-- SQ tail doorbell (R439). -/
def Dev.sqDoorbell (d : Dev) (p f r index : Nat) : Dev :=
  if d.doorbellBad p f r index (d.sqSize r) then d.incSat (HIF_PORT_STATUS.db_drop p) 1
  else if d.doorbellHeld r then d.putRing r { d.ringU r with heldTail := some index }
  else d.putRing r { d.ringU r with tail := index }

/-- SQ_TAIL_DOORBELL: R439. -/
def execSqTailDoorbell (port : HostPort) (func : FuncId) (ring : RingId) (index : BitVec 16) (s : State) :
    Host.Outcome State Fault Refusal :=
  onDev s fun d => d.sqDoorbell port.val func.val ring.val index.toNat

/-- Consumed entries up to a CQ head make room, held completions are written, and the ring may start commands again (R441). A head
equal to the one before reports a full CQ as wholly consumed. -/
def Dev.takeHead (d : Dev) (r index : Nat) : Dev :=
  let u := d.ringU r
  let n := (index + d.cqSize r - u.cqHead) % d.cqSize r
  let n := if n = 0 && decide (d.cqSize r ≤ u.cqUsed) then d.cqSize r else n
  let d := d.putRing r { u with cqHead := index, cqUsed := u.cqUsed - n }
  (d.releaseHeld r (u.held.length)).showRing r

/-- CQ head doorbell (R439, R441). -/
def Dev.cqDoorbell (d : Dev) (p f r index : Nat) : Dev :=
  if d.doorbellBad p f r index (d.cqSize r) then d.incSat (HIF_PORT_STATUS.db_drop p) 1
  else if d.doorbellHeld r then d.putRing r { d.ringU r with heldHead := some index }
  else d.takeHead r index

/-- The doorbells of a ring that were held are taken up (R402). -/
def Dev.takeHeldBells (d : Dev) (r : Nat) : Dev :=
  let u := d.ringU r
  let d := d.putRing r { u with tail := u.heldTail.getD u.tail, heldTail := none, heldHead := none }
  match u.heldHead with
  | some h => d.takeHead r h
  | none => d

/-- CQ_HEAD_DOORBELL: R441. -/
def execCqHeadDoorbell (port : HostPort) (func : FuncId) (ring : RingId) (index : BitVec 16) (s : State) :
    Host.Outcome State Fault Refusal :=
  onDev s fun d => d.cqDoorbell port.val func.val ring.val index.toNat

/-- The entries from the SQ head up to the tail, at most n of them, enter the fetched commands. -/
def Dev.fetchEntries (d : Dev) (r : Nat) : Nat → Dev
  | 0 => d
  | n + 1 =>
    let u := d.ringU r
    let head := d.get (RS.sqHead r)
    if head = u.tail then d
    else
      let bytes := d.hostBytes (d.ringPort r) (d.get (RQ.sqBase r) * 64 + head * 64) 64
      let next := (head + 1) % d.sqSize r
      let e := BitVec.ofNat 512 (ofBytes bytes)
      let c : Cmd := { ring := r, id := (e.toNat >>> 16) % 65536, sqHead := next, entry := e }
      ((d.putRing r { u with fetched := u.fetched ++ [c] }).set (RS.sqHead r) next).fetchEntries r n

/-- Fetch (R439, R442): a failed read, or one whose translation is refused, puts the ring in ERROR. -/
def Dev.commandFetch (d : Dev) (r : Nat) (fails : Bool) : Dev :=
  let u := d.ringU r
  if d.ringState r != 1 || d.get (RS.sqHead r) == u.tail then d
  else if fails || d.untranslated (d.ringPort r) (d.ringFunc r) (d.get (RQ.sqBase r) * 64 + d.get (RS.sqHead r) * 64) 64 then
    d.sets [(RS.state r, 3), (RS.fetchErr r, 1), (HIF_EVENT.fetch_err, 1)]
  else ((d.fetchEntries r (64 - (u.fetched.length + u.started.length))).flushBad r 64).showRing r

/-- COMMAND_FETCH: R439. -/
def execCommandFetch (ring : RingId) (fails : Bool) (s : State) : Host.Outcome State Fault Refusal :=
  onDev s fun d => d.commandFetch ring.val fails

/-- The coalescing time of the first unsignalled completion has passed (R441). -/
def Dev.coalesceTimeout (d : Dev) (r : Nat) : Dev :=
  let u := d.ringU r
  if u.unsent != 0 && decide (u.firstNs + 1000 * d.get (RC.coalUs r) ≤ d.clk.timeNs) then d.signal r else d

/-- MSIX_COALESCE_TIMEOUT: R441. -/
def execMsixCoalesceTimeout (ring : RingId) (s : State) : Host.Outcome State Fault Refusal :=
  onDev s fun d => d.coalesceTimeout ring.val

/-! ### Losing a host or a function (R449, R452) -/

/-- A ring stops at the loss of its port or function: fetched commands are dropped, started ones run on without a completion,
and its SW and RW fields return to their reset values (R449). -/
def Dev.stopRing (d : Dev) (r : Nat) : Dev :=
  let u := d.ringU r
  let n := u.held.length
  let d := (List.range 3).foldl (fun d k => d.wrJ 0x50 (ringBase r + 8 * k) (resetWord (ringBase r + 8 * k))) d
  let d := d.incSat (HIF_PORT_STATUS.cpl_dropped (d.ringPort r)) n
  let d := d.putRing r { RingU.reset with dropped := u.dropped ++ u.started }
  let d := if r < 64 then d.unready r else d
  (d.set (RS.state r) 0).showRing r

/-- The rings that a function of a port owns; for a port loss, those of every function and the admin ring. -/
def Dev.ringsOf (d : Dev) (p : Nat) (f : Option Nat) : List Nat :=
  (List.range 66).filter fun r =>
    d.ringPort r == p && (match f with | some x => decide (r < 64) && d.ringFunc r == x | none => true)

/-- The apertures of a port, or of one function of it, are cleared to valid = 0, journaled with origin 0x0050 (R449). -/
def Dev.clearApertures (d : Dev) (p : Nat) (f : Option Nat) : Dev :=
  (List.range 8).foldl (fun d b =>
    if d.flag (HIF_BAY_APER.valid b p) && (match f with | some x => d.get (HIF_BAY_APER.func b p) == x | none => true) then
      d.setJ 0x50 (HIF_BAY_APER.valid b p) 0
    else d) d

end Sys2Proof.Machine
end

