-- ==== Sys2Proof/Machine/TileMem.lean ====
section
/-! DEFINITION. Protection and repair of tile memory: patrol, corrected and uncorrectable errors, line retirement
(spec/06_tile_memory_and_mesh.md, R113 to R116). -/

namespace Sys2Proof.Machine

/-- The slice keeps its contents readable: its domain is ACTIVE or IDLE. -/
def Dev.sliceUp (d : Dev) (n : Nat) : Bool := decide (d.get (PWR_DOM.state (1 + n)) ≤ 1)

/-- Local address of a line of a slice. -/
def lineAddr (n line : Nat) : Nat := tileBase n + 64 * line

/-- A line is to be retired. -/
def Dev.dueRetire (d : Dev) (n line cause : Nat) : Dev :=
  let u := d.agU n
  if u.retireDue.any (fun p => p.1 == line) then d else d.putAg n { u with retireDue := u.retireDue ++ [(line, cause)] }

/-- A line is found uncorrectable: counted and recorded, zero from then on, lasting at once and due for retirement (R114,
R115). -/
def Dev.tmLost (d : Dev) (n line : Nat) : Dev :=
  let d := d.sets [(AG_TM_LAST.line n, line), (AG_TM_LAST.in_feeder n, 0), (AG_TM_LAST.feeder_arr n, 0)]
  let d := ((d.incSat (AG_TM_ERR.uncorrectable n) 1).set (AG_TM_LAST.uncorrectable n) 1).set (AG_TM_EVENT.uncorrectable n) 1
  (((d.zeroLocal (lineAddr n line) 64).freeSuspect (.line n line)).incSat FLT_SUSPECT.lasting 1).dueRetire n line 1

/-- A read of a line finds an error (R113, R115): a corrected one counts, an uncorrectable one gives the reader zeros and ends
the owning bay's step. -/
def Dev.tmError (d : Dev) (n line : Nat) (f : EccFinding) : Dev :=
  match f with
  | .corrected =>
    let d := d.sets [(AG_TM_LAST.line n, line), (AG_TM_LAST.in_feeder n, 0), (AG_TM_LAST.feeder_arr n, 0)]
    let d := ((d.incWrap (AG_TM_ERR.corrected n) 1).set (AG_TM_LAST.uncorrectable n) 0).set (AG_TM_EVENT.corrected n) 1
    let r := d.suspect (.line n line)
    if r.1 then r.2.dueRetire n line 0 else r.2
  | .uncorrectable =>
    let d := d.tmLost n line
    match d.extentOwner n (line / 32768) with
    | some b => d.endStepEarly b stInternal
    | none => d

/-- The patrol, or any other read, finds an error in a line of a slice that is ACTIVE or IDLE. -/
def Dev.tmPatrol (d : Dev) (n line : Nat) (f : EccFinding) : Dev :=
  if d.sliceUp n && decide (line < 3145728) then d.tmError n line f else d

/-- TM_PATROL: R113, R115. -/
def execTmPatrol (ag : AgId) (line : BitVec 22) (finding : EccFinding) (s : State) : Host.Outcome State Fault Refusal :=
  onDev s fun d => d.tmPatrol ag.val line.toNat finding

/-- The bank of a line (R108). -/
def lineBank (line : Nat) : Nat := line / 4 % 32

/-- A line due for retirement moves to the next spare of its bank, or its extent fails (R114, R116); while the journal is
full the repair waits. -/
def Dev.tmLineRetire (d : Dev) (n line : Nat) : Dev :=
  let u := d.agU n
  match u.retireDue.find? (fun p => p.1 == line) with
  | none => d
  | some (_, cause) =>
    if d.jnlFull then d
    else
      let u := { u with retireDue := u.retireDue.filter fun p => p.1 != line }
      let used := Tab.get (fun _ => 0) u.sparesUsed (lineBank line)
      if used < 256 then
        let d := d.putAg n { u with remapped := Tab.put (fun _ => 0) u.remapped line (used + 1)
                                    sparesUsed := Tab.put (fun _ => 0) u.sparesUsed (lineBank line) (used + 1) }
        let d := (d.incSat (AG_TM_ERR.retired n) 1).set (AG_TM_EVENT.retired n) 1
        let d := d.set (AG_TM_STATUS.spares_min n) (min (d.get (AG_TM_STATUS.spares_min n)) (255 - used))
        (d.jnlEvent 0x50 0x0002 (lineAddr n line) (used % 256 + 256 * cause)).fieldUpdate fun r =>
          { r with lines := r.lines ++ [(n, line, used)] }
      else
        let e := line / 32768
        if u.failed.contains e then d.putAg n u
        else
          let d := (d.putAg n { u with failed := u.failed ++ [e] }).set (AG_TM_EVENT.extent_failed n) 1
          ((d.set (AG_TM_STATUS.failed_extents n) (u.failed.length + 1)).jnlEvent 0x50 0x0003 (extentBase n e) 0).fieldUpdate
            fun r => { r with extents := r.extents ++ [(n, e)] }

/-- TM_LINE_RETIRE: R114, R116. -/
def execTmLineRetire (ag : AgId) (line : BitVec 22) (s : State) : Host.Outcome State Fault Refusal :=
  onDev s fun d => d.tmLineRetire ag.val line.toNat

end Sys2Proof.Machine
end

