-- ==== Sys2Proof/Machine/Vector.lean ====
section
/-! DEFINITION. The vector slices: registers, masked elements, loads and stores, and the meaning of every instruction
(spec/07_vector_engine.md). Each command runs the instruction at the slice's program counter when its op is the command's. -/

namespace Sys2Proof.Machine

/-! ### Registers (R137, R138) -/

/-- Vector register i. -/
def VecU.vreg (u : VecU) (i : Nat) : Nat := (Tab.get (fun _ => 0) u.v i : BitVec 4096).toNat

/-- Predicate register i as a bit string; p0 reads as all ones. -/
def VecU.preg (u : VecU) (i : Nat) : Nat :=
  if i = 0 then 2 ^ 128 - 1 else (Tab.get (fun _ => 0) u.p i : BitVec 128).toNat

/-- Scalar register i; s0 reads as zero. -/
def VecU.sreg (u : VecU) (i : Nat) : Nat := if i = 0 then 0 else (Tab.get (fun _ => 0) u.s i : Reg64).toNat

/-- A vector register written. -/
def VecU.setV (u : VecU) (i x : Nat) : VecU := { u with v := Tab.put (fun _ => 0) u.v i (BitVec.ofNat 4096 x) }

/-- A predicate register written; a write to p0 is discarded. -/
def VecU.setP (u : VecU) (i x : Nat) : VecU :=
  if i = 0 then u else { u with p := Tab.put (fun _ => 0) u.p i (BitVec.ofNat 128 x) }

/-- A scalar register written modulo 2^64; a write to s0 is discarded. -/
def VecU.setS (u : VecU) (i x : Nat) : VecU :=
  if i = 0 then u else { u with s := Tab.put (fun _ => 0) u.s i (BitVec.ofNat 64 x) }

/-- Elements of a register: 64 of 64 bits for FP64, otherwise 128 of 32 bits (R138). -/
def regCount (f : Fmt) : Nat := if f == .fp64 then 64 else 128
def regWidth (f : Fmt) : Nat := if f == .fp64 then 64 else 32

/-- Element i of register r under a format. -/
def VecU.elem (u : VecU) (f : Fmt) (r i : Nat) : Nat := elemAt (regWidth f) i (u.vreg r)

/-- The value of element i. -/
def VecU.val (u : VecU) (f : Fmt) (r i : Nat) : Val := f.decode (u.elem f r i)

/-- Element i is on in the governing predicate (R152). -/
def VecU.on (u : VecU) (w : VWord) (i : Nat) : Bool := (u.preg w.p).testBit i

/-- Masked write of n elements of a width: on elements take the new value; off elements stay, or become zero when z = 1;
elements from n on stay (R152). -/
def VecU.writeElems (u : VecU) (w : VWord) (width n : Nat) (g : Nat → Nat) : VecU :=
  let old := u.vreg w.d
  u.setV w.d (packElems width ((List.range (4096 / width)).map fun i =>
    if i < n then (if u.on w i then g i else if w.z = 1 then 0 else elemAt width i old) else elemAt width i old))

/-- The format a code names; the instruction's checks admit no other code. -/
def fmtOf (code : Nat) : Fmt := (Fmt.ofCode code).getD .fp32

/-! ### Running one instruction (R145, R146) -/

/-- AGn_VECx_STATUS follows the slice's record. -/
def Dev.showVec (d : Dev) (x state waitOn : Nat) : Dev :=
  let u := d.vecU x
  d.sets [(AG_VEC_STATUS.state (x / 6) (x % 6), state), (AG_VEC_STATUS.wait_on (x / 6) (x % 6), waitOn),
    (AG_VEC_STATUS.pc (x / 6) (x % 6), u.pc), (AG_VEC_STATUS.rep (x / 6) (x % 6), u.rep),
    (AG_VEC_STATUS.dq_entries (x / 6) (x % 6), u.dq.length)]

/-- The next instruction follows in program order. -/
def Dev.nextPc (d : Dev) (x : Nat) : Dev :=
  (d.putVec x { d.vecU x with pc := ((d.vecU x).pc + 1) % 2048 }).showVec x 2 0

/-- The instruction that slice x would issue next, with its bay: its program is loaded and its step runs. -/
def Dev.vecNext (d : Dev) (x : Nat) : Option (Nat × VWord) :=
  match d.bayOfAg (x / 6) with
  | none => none
  | some b =>
    let u := d.vecU x
    if (d.liveStep b).isSome && u.running && u.copying.isNone then
      (u.prog[u.pc]?).map fun w => (b, VWord.of w.toNat)
    else none

/-- Run the instruction at the pc when its op is `op`; otherwise nothing happens. The stall cycles before it are counted. -/
def Dev.vecRun (d : Dev) (x op stall : Nat) (sem : Dev → Nat → VWord → Dev) : Dev :=
  match d.vecNext x with
  | some (b, w) => if w.op = op then sem (d.incWrap (AG_VEC_PERF.stall_cycles (x / 6) (x % 6)) stall) b w else d
  | none => d

/-- An instruction that writes registers only and raises flags. -/
def Dev.vecCalc (d : Dev) (x b : Nat) (r : VecU × FFlags) : Dev := ((d.putVec x r.1).orFlags b r.2).nextPc x

/-- A register-to-register instruction over the elements of a format: on elements get the computed bits. -/
def Dev.vecMap (d : Dev) (x b : Nat) (w : VWord) (f : Fmt) (g : VecU → Nat → Nat × FFlags) : Dev :=
  let u := d.vecU x
  let n := regCount f
  let res := (List.range n).map fun i => if u.on w i then g u i else (0, FFlags.none)
  d.vecCalc x b (u.writeElems w (regWidth f) n (fun i => (res.getD i (0, FFlags.none)).1), FFlags.orAll (res.map (·.2)))

/-- A rounded result: the operation's flags and the encoding's. -/
def rounded (f : Fmt) (rm : RMode) (r : Val × FFlags) : Nat × FFlags :=
  let e := f.encode rm false r.1
  (e.1, r.2.or e.2)

/-- A binary instruction: IEEE on FP32 and FP64, an integer function modulo 2^32 on INT32. -/
def Dev.vecBin (d : Dev) (x b : Nat) (w : VWord) (ff : RMode → Val → Val → Val × FFlags) (fi : Int → Int → Int) : Dev :=
  let f := fmtOf w.fmt
  d.vecMap x b w f fun u i =>
    if f == .int32 then (wrapInt 32 (fi (signedOf 32 (u.elem f w.a i)) (signedOf 32 (u.elem f w.b i))), FFlags.none)
    else rounded f (RMode.ofCode w.rm) (ff (RMode.ofCode w.rm) (u.val f w.a i) (u.val f w.b i))

/-! ### NOP, arithmetic, logic (R139, R151) -/

def vNop (d : Dev) (x _b : Nat) (_w : VWord) : Dev := d.nextPc x
def vAdd (d : Dev) (x b : Nat) (w : VWord) : Dev := d.vecBin x b w vadd (· + ·)
def vSub (d : Dev) (x b : Nat) (w : VWord) : Dev := d.vecBin x b w (fun rm p q => vadd rm p q.negate) (· - ·)
def vMul (d : Dev) (x b : Nat) (w : VWord) : Dev := d.vecBin x b w (fun _ p q => vmul p q) (· * ·)
def vDiv (d : Dev) (x b : Nat) (w : VWord) : Dev := d.vecBin x b w (fun _ p q => vdiv p q) (fun p _ => p)

/-- FMA and FNMA: one rounding of a × b + c, or c − a × b. -/
def Dev.vecFma (d : Dev) (x b : Nat) (w : VWord) (neg : Bool) : Dev :=
  let f := fmtOf w.fmt
  d.vecMap x b w f fun u i =>
    rounded f (RMode.ofCode w.rm) (vfma (RMode.ofCode w.rm) neg (u.val f w.a i) (u.val f w.b i) (u.val f w.c i))

/-- SQRT. -/
def vSqrtOp (d : Dev) (x b : Nat) (w : VWord) : Dev :=
  let f := fmtOf w.fmt
  d.vecMap x b w f fun u i => rounded f (RMode.ofCode w.rm) (vsqrt (u.val f w.a i))

/-- MIN and MAX (R151); the chosen operand's bits pass unchanged. -/
def vMinMax (mx : Bool) (d : Dev) (x b : Nat) (w : VWord) : Dev :=
  d.vecBin x b w (fun _ p q => vminmax mx p q) (fun p q => if mx then max p q else min p q)

/-- MINN and MAXN. -/
def vMinMaxNum (mx : Bool) (d : Dev) (x b : Nat) (w : VWord) : Dev :=
  d.vecBin x b w (fun _ p q => vminmaxNum mx p q) (fun p q => if mx then max p q else min p q)

/-- ABS and NEG: the sign bit cleared or flipped, no flag; INT32 wraps. -/
def vSign (flip : Bool) (d : Dev) (x b : Nat) (w : VWord) : Dev :=
  let f := fmtOf w.fmt
  d.vecMap x b w f fun u i =>
    let v := u.elem f w.a i
    let top := 2 ^ (regWidth f - 1)
    if f == .int32 then
      let k := signedOf 32 v
      (wrapInt 32 (if flip then -k else k.natAbs), FFlags.none)
    else (if flip then (if v < top then v + top else v - top) else v % top, FFlags.none)

/-- RINT. -/
def vRintOp (d : Dev) (x b : Nat) (w : VWord) : Dev :=
  let f := fmtOf w.fmt
  d.vecMap x b w f fun u i => rounded f .rne (vrint (RMode.ofCode w.rm) (u.val f w.a i))

/-- Bitwise logic on INT32 elements. -/
def vLogic (g : Nat → Nat → Nat) (d : Dev) (x b : Nat) (w : VWord) : Dev :=
  d.vecMap x b w .int32 fun u i => (g (u.elem .int32 w.a i) (u.elem .int32 w.b i), FFlags.none)

/-- Shifts by b mod 32. -/
def vShift (g : Nat → Nat → Nat) (d : Dev) (x b : Nat) (w : VWord) : Dev :=
  d.vecMap x b w .int32 fun u i => (g (u.elem .int32 w.a i) (u.elem .int32 w.b i % 32), FFlags.none)

/-! ### Predicates (R155) -/

/-- CMP: the predicate bits of the format's elements; FP64 leaves bits 64 to 127 as they are. -/
def vCmpOp (d : Dev) (x b : Nat) (w : VWord) : Dev :=
  let f := fmtOf w.fmt
  let u := d.vecU x
  let res := (List.range (regCount f)).map fun i =>
    if f == .int32 then vcmp (w.imm % 8) (Val.ofInt (signedOf 32 (u.elem f w.a i))) (Val.ofInt (signedOf 32 (u.elem f w.b i)))
    else vcmp (w.imm % 8) (u.val f w.a i) (u.val f w.b i)
  let bits := packElems 1 (res.map fun r => r.1.toNat)
  let old := u.preg (w.d % 8)
  d.vecCalc x b (u.setP (w.d % 8) (bits + old / 2 ^ regCount f * 2 ^ regCount f), FFlags.orAll (res.map (·.2)))

/-- SEL: a where the predicate is on, b elsewhere. -/
def vSelOp (d : Dev) (x b : Nat) (w : VWord) : Dev :=
  let f := fmtOf w.fmt
  let u := d.vecU x
  d.vecCalc x b (u.setV w.d (packElems (regWidth f) ((List.range (regCount f)).map fun i =>
    if u.on w i then u.elem f w.a i else u.elem f w.b i)), FFlags.none)

/-- PSET patterns. -/
def psetBit (imm lim i : Nat) : Bool :=
  match imm % 16 with
  | 1 => true
  | 2 => !i.testBit (imm / 16 % 8)
  | 3 => i.testBit (imm / 16 % 8)
  | 4 => decide (i < lim)
  | _ => false

def vPsetOp (d : Dev) (x b : Nat) (w : VWord) : Dev :=
  let u := d.vecU x
  let lim := u.sreg (w.a % 16) % 256
  d.vecCalc x b (u.setP (w.d % 8) (packElems 1 ((List.range 128).map fun i => (psetBit w.imm lim i).toNat)), FFlags.none)

def vPlogOp (d : Dev) (x b : Nat) (w : VWord) : Dev :=
  let u := d.vecU x
  let p := u.preg (w.a % 8)
  let q := u.preg (w.b % 8)
  let r := match w.imm % 4 with
    | 0 => p &&& q
    | 1 => p ||| q
    | 2 => p &&& (2 ^ 128 - 1 - q)
    | _ => p ^^^ q
  d.vecCalc x b (u.setP (w.d % 8) r, FFlags.none)

/-! ### Functions (R158) -/

/-- Function `op` of R158 on FP32 elements. -/
def vFunc (op : Nat) (d : Dev) (x b : Nat) (w : VWord) : Dev :=
  d.vecMap x b w .fp32 fun u i => funcApply op (u.elem .fp32 w.a i)

/-! ### Conversion (R53, R156, R157) -/

/-- The value of an element of any format; a short format's NaN is canonical with its sign (R44). -/
def srcVal (f : Fmt) (bits : Nat) (table : List Nat := []) : Val := f.decode bits table

/-- The rounding mode of a conversion, with the next stochastic number of the lane when rm = 4 (R157, R502). -/
def Dev.convMode (d : Dev) (b x : Nat) (u : VecU) (w : VWord) (lane : Nat) : RMode :=
  if w.rm = 4 then
    .stoch (stochNumber (d.stepSeed b) (d.stepNo b) (0x100 + x) lane (Tab.get (fun _ => 0) u.draws lane))
  else RMode.ofCode w.rm

/-- The lane of element i of a format: an FP64 element uses lane 2 i (R502). -/
def laneOf (f : Fmt) (i : Nat) : Nat := if f == .fp64 then 2 * i else i

/-- One draw more on every lane of the listed elements, for a stochastic conversion. -/
def VecU.drawn (u : VecU) (w : VWord) (f : Fmt) (l : List Nat) : VecU :=
  if w.rm = 4 then
    { u with draws := l.foldl (fun t i =>
        Tab.put (fun _ => 0) t (laneOf f i) (Tab.get (fun _ => 0) t (laneOf f i) + 1)) u.draws }
  else u

/-- Element bits as a conversion source: INT16 is the low 16 bits of its lane. -/
def regSource (f : Fmt) (bits : Nat) : Val := if f == .int16 then f.decode (bits % 2 ^ 16) else f.decode bits

/-- Bits of a converted element in a register: INT16 sign-extended, a short float as its FP32 value (R138, R157). -/
def regDest (f : Fmt) (enc : Nat) : Nat :=
  if f == .int16 then wrapInt 32 (signedOf 16 enc)
  else if f.isShort then (Fmt.encode .fp32 .rne false (f.decode enc)).1
  else enc

def vCvtOp (d : Dev) (x b : Nat) (w : VWord) : Dev :=
  let f := fmtOf w.fmt
  let g := fmtOf w.fmt2
  let u := d.vecU x
  let n := min (regCount f) (regCount g)
  let on := (List.range n).filter (u.on w)
  let res := (List.range n).map fun i =>
    if u.on w i then g.encode (d.convMode b x u w (laneOf f i)) (w.sat == 1) (regSource f (u.elem f w.a i)) else (0, FFlags.none)
  let u' := u.writeElems w (regWidth g) n fun i => regDest g (res.getD i (0, FFlags.none)).1
  d.vecCalc x b (u'.drawn w f on, FFlags.orAll (res.map (·.2)))

/-! ### Reductions (R161) -/

/-- The reduction tree: element i combined with element i + half while the length halves. -/
def treeReduce (g : (Nat × FFlags) → (Nat × FFlags) → Nat × FFlags) : Nat → List (Nat × FFlags) → Nat × FFlags
  | 0, l => l.headD (0, FFlags.none)
  | fuel + 1, l =>
    if l.length ≤ 1 then l.headD (0, FFlags.none)
    else treeReduce g fuel (((l.take (l.length / 2)).zip (l.drop (l.length / 2))).map fun p => g p.1 p.2)

/-- One combination of two elements: RSUM (0), RMAX (1), RMIN (2). -/
def reduceStep (kind : Nat) (f : Fmt) (p q : Nat × FFlags) : Nat × FFlags :=
  let fl := p.2.or q.2
  if f == .int32 then
    let a := signedOf 32 p.1
    let c := signedOf 32 q.1
    (wrapInt 32 (match kind with | 0 => a + c | 1 => max a c | _ => min a c), fl)
  else
    let r := match kind with
      | 0 => vadd .rne (f.decode p.1) (f.decode q.1)
      | 1 => vminmax true (f.decode p.1) (f.decode q.1)
      | _ => vminmax false (f.decode p.1) (f.decode q.1)
    let e := rounded f .rne r
    (e.1, fl.or e.2)

/-- The identity an off element contributes (R152). -/
def reduceIdent (kind : Nat) (f : Fmt) : Nat :=
  match kind, f with
  | 0, _ => 0
  | 1, .int32 => 2 ^ 31
  | _, .int32 => 2 ^ 31 - 1
  | 1, g => (g.encode .rne false (.inf true)).1
  | _, g => (g.encode .rne false (.inf false)).1

def vReduce (kind : Nat) (d : Dev) (x b : Nat) (w : VWord) : Dev :=
  let f := fmtOf w.fmt
  let u := d.vecU x
  let n := regCount f
  let l := (List.range n).map fun i => (if u.on w i then u.elem f w.a i else reduceIdent kind f, FFlags.none)
  let r := treeReduce (reduceStep kind f) 7 l
  d.vecCalc x b (u.writeElems w (regWidth f) n (fun _ => r.1), r.2)

/-! ### Permutation (R151, R159, R160) -/

def vPermOp (d : Dev) (x b : Nat) (w : VWord) : Dev :=
  let f := fmtOf w.fmt
  d.vecMap x b w f fun u i => (u.elem f w.a (u.elem f w.b i % regCount f), FFlags.none)

/-- The reversal of the low n bits of i. -/
def bitRev : Nat → Nat → Nat
  | 0, _ => 0
  | n + 1, i => i % 2 * 2 ^ n + bitRev n (i / 2)

/-- Source of element i under a SHUF pattern: from b (true) or a, and the index (R159). -/
def shufSource (imm cnt i : Nat) : Bool × Nat :=
  let half := cnt / 2
  match imm % 16 with
  | 0 => (false, (i ^^^ 2 ^ (imm / 256 % 8)) % cnt)
  | 1 => (false, (i + imm / 256 % 128) % cnt)
  | 2 => (false, cnt - 1 - i)
  | 3 => (i % 2 == 1, i / 2)
  | 4 => (i % 2 == 1, half + i / 2)
  | 5 => if i < half then (false, 2 * i) else (true, 2 * (i - half))
  | 6 => if i < half then (false, 2 * i + 1) else (true, 2 * (i - half) + 1)
  | _ => (false, bitRev (if cnt = 64 then 6 else 7) i)

def vShufOp (d : Dev) (x b : Nat) (w : VWord) : Dev :=
  let f := fmtOf w.fmt
  d.vecMap x b w f fun u i =>
    let s := shufSource w.imm (regCount f) i
    (u.elem f (if s.1 then w.b else w.a) s.2, FFlags.none)

/-- PACK: the low w bits of on elements into the slots of the selected group; every other slot stays (R160). -/
def vPackOp (d : Dev) (x b : Nat) (w : VWord) : Dev :=
  let u := d.vecU x
  let sw := 16 >>> (w.imm % 4)
  let base := 128 * (w.imm / 256 % 8)
  let old := u.vreg w.d
  d.vecCalc x b (u.setV w.d (packElems sw ((List.range (4096 / sw)).map fun s =>
    if base ≤ s && s < base + 128 && u.on w (s - base) then u.elem .int32 w.a (s - base) % 2 ^ sw else elemAt sw s old)),
    FFlags.none)

def vUnpkOp (d : Dev) (x b : Nat) (w : VWord) : Dev :=
  let sw := 16 >>> (w.imm % 4)
  let base := 128 * (w.imm / 256 % 8)
  d.vecMap x b w .int32 fun u i =>
    let s := elemAt sw (base + i) (u.vreg w.a)
    (if (w.imm / 4) % 2 = 1 then wrapInt 32 (signedOf sw s) else s, FFlags.none)

def vBcastOp (d : Dev) (x b : Nat) (w : VWord) : Dev :=
  let f := fmtOf w.fmt
  d.vecMap x b w f fun u _ => (u.elem f w.a (w.imm % 128 % regCount f), FFlags.none)

def vMovsOp (d : Dev) (x b : Nat) (w : VWord) : Dev :=
  let f := fmtOf w.fmt
  d.vecMap x b w f fun u _ => (u.sreg (w.a % 16) % 2 ^ regWidth f, FFlags.none)

def vMovvOp (d : Dev) (x b : Nat) (w : VWord) : Dev :=
  let f := fmtOf w.fmt
  let u := d.vecU x
  d.vecCalc x b (u.setS (w.d % 16) (u.elem f w.a (w.imm % 128 % regCount f)), FFlags.none)

/-! ### Memory access (R153, R169, R170) -/

/-- Where a slice's address leads in the bay's space; none outside the bay, and none for a host page without a translation
(R169, R170, R437). -/
def Dev.vecLoc (d : Dev) (b a : Nat) : Option Loc :=
  match d.xlate b a with
  | some (.host p h) => if d.untranslated p (d.get (HIF_BAY_APER.func b p)) h 1 then none else some (.host p h)
  | l => l

/-- A byte loaded, zero outside the bay. -/
def Dev.vecByte (d : Dev) (b a : Nat) : Byte :=
  match d.vecLoc b a with
  | some l => d.rdLoc l
  | none => 0

/-- n bytes loaded as a number. -/
def Dev.vecNat (d : Dev) (b a n : Nat) : Nat := ofBytes ((List.range n).map fun i => d.vecByte b (a + i))

/-- Some byte of the bits [lo, hi) of a region at address a lies outside the bay. -/
def Dev.vecOut (d : Dev) (b a lo hi : Nat) : Bool :=
  (List.range ((hi + 7) / 8 - lo / 8)).any fun i => (d.vecLoc b (a + lo / 8 + i)).isNone

/-- Every byte of the bits [lo, hi) lies outside the bay: an element stored there is dropped whole (R153). -/
def Dev.vecGone (d : Dev) (b a lo hi : Nat) : Bool :=
  (List.range ((hi + 7) / 8 - lo / 8)).all fun i => (d.vecLoc b (a + lo / 8 + i)).isNone

/-- Bytes stored, those outside the bay dropped. -/
def Dev.vecStoreBytes (d : Dev) (b : Nat) : Nat → List Byte → Dev
  | _, [] => d
  | a, v :: vs =>
    (match d.vecLoc b a with
     | some l => d.wrLoc l v
     | none => d).vecStoreBytes b (a + 1) vs

/-- The address of VLD, VST, VLDC, VSTC and VSTB: scalar a + imm × 64, bits [5:0] ignored (R151, R153). -/
def VecU.lineAddr (u : VecU) (w : VWord) : Nat := (u.sreg (w.a % 16) + w.imm * 64) % 2 ^ 64 / 64 * 64

/-- Counted events of R153: out_of_bay, gather_oor, scatter_dropped. -/
def Dev.countOut (d : Dev) (x n : Nat) : Dev :=
  if n = 0 then d
  else (d.incSat (AG_VEC_COUNT.out_of_bay (x / 6) (x % 6)) n).set (AG_VEC_EVENT.out_of_bay (x / 6) (x % 6)) 1
def Dev.countGather (d : Dev) (x n : Nat) : Dev :=
  if n = 0 then d
  else (d.incSat (AG_VEC_COUNT.gather_oor (x / 6) (x % 6)) n).set (AG_VEC_EVENT.gather_oor (x / 6) (x % 6)) 1
def Dev.countScatter (d : Dev) (x n : Nat) : Dev :=
  if n = 0 then d
  else (d.incSat (AG_VEC_COUNT.scatter_dropped (x / 6) (x % 6)) n).set (AG_VEC_EVENT.scatter_dropped (x / 6) (x % 6)) 1

/-- VLD: 512 raw bytes; elements have the register's granularity under fmt. -/
def vVldOp (d : Dev) (x b : Nat) (w : VWord) : Dev :=
  let f := fmtOf w.fmt
  let u := d.vecU x
  let a := u.lineAddr w
  let n := regCount f
  let data := d.vecNat b a 512
  let out := ((List.range n).filter fun i => u.on w i && d.vecOut b a (regWidth f * i) (regWidth f * (i + 1))).length
  (d.countOut x out).vecCalc x b (u.writeElems w (regWidth f) n (fun i => elemAt (regWidth f) i data), FFlags.none)

/-- VLDC: elements of fmt decoded exactly into fmt2 (R156). -/
def vVldcOp (d : Dev) (x b : Nat) (w : VWord) : Dev :=
  let f := fmtOf w.fmt
  let g := fmtOf w.fmt2
  let u := d.vecU x
  let a := u.lineAddr w
  let n := regCount g
  let data := d.vecNat b a (n * f.width / 8)
  let table := t4Table (d.vecNat b (u.sreg (w.c % 16)) 32)
  let res := (List.range n).map fun i =>
    if !u.on w i then (0, FFlags.none)
    else if f == g then (elemAt f.width i data, FFlags.none)
    else g.encode .rne false (srcVal f (elemAt f.width i data) table)
  let out := ((List.range n).filter fun i => u.on w i && d.vecOut b a (f.width * i) (f.width * (i + 1))).length
  (d.countOut x out).vecCalc x b
    (u.writeElems w (regWidth g) n (fun i => (res.getD i (0, FFlags.none)).1), FFlags.orAll (res.map (·.2)))

/-! ### Stores (R152, R153, R154, R163, R220, R221) -/

/-- A class-3 store before the gate's decision waits at issue; after SKIP it writes and examines nothing (R220, R221). -/
inductive StoreGate where
  | run | skip | wait
  deriving DecidableEq, Repr

def Dev.storeGate (d : Dev) (b : Nat) (w : VWord) : StoreGate :=
  if w.cls != 3 then .run
  else match d.get (SCH_BAY_TRAIN.gate b) with
    | 2 => .run
    | 3 => .skip
    | _ => .wait

/-- A store runs under the gate. -/
def Dev.gated (d : Dev) (x b : Nat) (w : VWord) (k : Dev → Dev) : Dev :=
  match d.storeGate b w with
  | .run => (k d).nextPc x
  | .skip => d.nextPc x
  | .wait => (d.set (SCH_BAY_TRAIN.gate b) 1).showVec x 3 1

/-- A store that found a non-finite value counts once, for classes 1 to 3 (R163). -/
def Dev.examine (d : Dev) (b : Nat) (w : VWord) (vals : List Val) : Dev :=
  if w.cls != 0 && vals.any fun v => !v.isFinite then d.noteNonfinite b 1 else d

/-- The elements of a width that a store at address a writes: on, and not dropped whole (R152, R153). Only these are converted,
draw a number and are examined (R163, R502). -/
def Dev.written (d : Dev) (b a width : Nat) (on : Nat → Bool) (i : Nat) : Bool :=
  on i && !d.vecGone b a (width * i) (width * (i + 1))

/-- Masked store of n elements of a width from address a: bits of off elements keep their memory values, bytes outside the
bay are dropped, and affected elements are counted. -/
def Dev.storeElems (d : Dev) (x b a width n : Nat) (on : Nat → Bool) (g : Nat → Nat) : Dev :=
  let len := (n * width + 7) / 8
  let old := d.vecNat b a len
  let bits := packElems width ((List.range n).map fun i => if on i then g i else elemAt width i old)
  let out := ((List.range n).filter fun i => on i && d.vecOut b a (width * i) (width * (i + 1))).length
  (d.vecStoreBytes b a (toBytes len bits)).countOut x out

/-- The packed values of format f that the written elements of a raw store hold: VST examines its elements as values of fmt. -/
def rawVals (u : VecU) (w : VWord) (f : Fmt) (on : Nat → Bool) : List Val :=
  if f.isInt || f == .t4 then []
  else
    let gran := regWidth f
    ((List.range (4096 / f.width)).filter fun k => on (k * f.width / gran)).map fun k =>
      f.decode (elemAt f.width k (u.vreg w.d))

def vVstOp (d : Dev) (x b : Nat) (w : VWord) : Dev :=
  d.gated x b w fun d =>
    let f := fmtOf w.fmt
    let u := d.vecU x
    let a := u.lineAddr w
    (d.examine b w (rawVals u w f (d.written b a (regWidth f) (u.on w)))).storeElems x b (u.lineAddr w) (regWidth f) (regCount f) (u.on w) (u.elem f w.d)

/-- VSTC: each element converted from fmt to fmt2 and stored (R156). -/
def vVstcOp (d : Dev) (x b : Nat) (w : VWord) : Dev :=
  d.gated x b w fun d =>
    let f := fmtOf w.fmt
    let g := fmtOf w.fmt2
    let u := d.vecU x
    let n := regCount f
    let table := t4Table (d.vecNat b (u.sreg (w.c % 16)) 32)
    let hit := d.written b (u.lineAddr w) g.width (u.on w)
    let on := (List.range n).filter hit
    let res := (List.range n).map fun i =>
      if hit i then g.encode (d.convMode b x u w (laneOf f i)) (w.sat == 1) (regSource f (u.elem f w.d i)) table
      else (0, FFlags.none)
    let d := (d.putVec x (u.drawn w f on)).orFlags b (FFlags.orAll (res.map (·.2)))
    (d.examine b w (on.map fun i => regSource f (u.elem f w.d i))).storeElems x b (u.lineAddr w) g.width n (u.on w)
      fun i => (res.getD i (0, FFlags.none)).1

/-- VSTB: four blocks of 32 FP32 elements stored block-scaled, their E8M0 scales at scalar c (R56, R156). -/
def vVstbOp (d : Dev) (x b : Nat) (w : VWord) : Dev :=
  d.gated x b w fun d =>
    let g := fmtOf w.fmt2
    let u := d.vecU x
    let vals := (List.range 128).map fun i => u.val .fp32 w.d i
    let scales := (List.range 4).map fun k => blockScale g ((vals.drop (32 * k)).take 32)
    let hit := d.written b (u.lineAddr w) g.width fun _ => true
    let on := (List.range 128).filter hit
    let res := vals.zipIdx.map fun e =>
      if hit e.2 then g.encode (d.convMode b x u w e.2) (w.sat == 1) (scaleDown (scales.getD (e.2 / 32) 0) e.1)
      else (0, FFlags.none)
    let d := (d.putVec x (u.drawn w .fp32 on)).orFlags b (FFlags.orAll (res.map (·.2)))
    let d := (d.examine b w (on.map fun i => vals.getD i (.fin false 0 0))).storeElems x b (u.lineAddr w) g.width 128 (fun _ => true)
      fun i => (res.getD i (0, FFlags.none)).1
    d.vecStoreBytes b (u.sreg (w.c % 16)) (scales.map (BitVec.ofNat 8))

/-- The address of indexed element i of GATH, SCAT and SCTA, or none past the limit or outside the bay (R153). -/
def Dev.indexAddr (d : Dev) (b : Nat) (u : VecU) (w : VWord) (f : Fmt) (i : Nat) : Option Nat :=
  let size := f.width / 8
  let idx := u.elem f w.b i
  let a := (u.sreg (w.a % 16) / size * size + idx * size) % 2 ^ 64
  if u.sreg (w.c % 16) ≤ idx || d.vecOut b a 0 f.width then none else some a

/-- A gathered element in its register form: signed integers sign-extended, others zero-extended (R138). -/
def gathered (f : Fmt) (bits : Nat) : Nat :=
  if f.isInt && decide (f.width < 32) then wrapInt 32 (signedOf f.width bits) else bits

def vGathOp (d : Dev) (x b : Nat) (w : VWord) : Dev :=
  let f := fmtOf w.fmt
  let u := d.vecU x
  let n := regCount f
  let on := (List.range n).filter (u.on w)
  let miss := (on.filter fun i => (d.indexAddr b u w f i).isNone).length
  (d.countGather x miss).vecCalc x b (u.writeElems w (regWidth f) n (fun i =>
    match d.indexAddr b u w f i with
    | some a => gathered f (d.vecNat b a (f.width / 8))
    | none => 0), FFlags.none)

/-- SCAT: elements stored in ascending order, so that the highest index wins (R154). -/
def vScatOp (d : Dev) (x b : Nat) (w : VWord) : Dev :=
  d.gated x b w fun d =>
    let f := fmtOf w.fmt
    let u := d.vecU x
    let on := (List.range (regCount f)).filter (u.on w)
    let hit := on.filterMap fun i => (d.indexAddr b u w f i).map fun a => (i, a)
    let vals := if f.isInt || f == .t4 then [] else hit.map fun p => f.decode (u.elem f w.d p.1 % 2 ^ f.width)
    hit.foldl (fun d p => d.vecStoreBytes b p.2 (toBytes (f.width / 8) (u.elem f w.d p.1)))
      ((d.countScatter x (on.length - hit.length)).examine b w vals)

/-- SCTA: FP32 additions to memory, one rounding each, in ascending element order (R154); the sums are examined. -/
def vSctaOp (d : Dev) (x b : Nat) (w : VWord) : Dev :=
  d.gated x b w fun d =>
    let u := d.vecU x
    let on := (List.range 128).filter (u.on w)
    let hit := on.filterMap fun i => (d.indexAddr b u w .fp32 i).map fun a => (i, a)
    let r := hit.foldl (fun (acc : Dev × FFlags × List Val) p =>
      let s := rounded .fp32 .rne (vadd .rne (Fmt.decode .fp32 (acc.1.vecNat b p.2 4)) (u.val .fp32 w.d p.1))
      (acc.1.vecStoreBytes b p.2 (toBytes 4 s.1), acc.2.1.or s.2, acc.2.2 ++ [Fmt.decode .fp32 s.1]))
      (d.countScatter x (on.length - hit.length), FFlags.none, [])
    (r.1.orFlags b r.2.1).examine b w r.2.2

/-- VRECV: the next drain-queue entry, or a wait while the queue is empty (R140, R151). -/
def vVrecvOp (d : Dev) (x b : Nat) (w : VWord) : Dev :=
  let u := d.vecU x
  match u.dq with
  | [] => d.showVec x 3 2
  | e :: rest =>
    let u := { u with dq := rest }
    d.vecCalc x b (u.writeElems w 32 128 (fun i => elemAt 32 i e.toNat), FFlags.none)

/-! ### Control (R121, R122, R145, R151) -/

/-- A scalar result. -/
def Dev.vecScalar (d : Dev) (x : Nat) (w : VWord) (v : Nat) : Dev :=
  (d.putVec x ((d.vecU x).setS (w.d % 16) v)).nextPc x

def vSli (d : Dev) (x _b : Nat) (w : VWord) : Dev := d.vecScalar x w (wrapInt 64 w.simm)
def vSlih (d : Dev) (x _b : Nat) (w : VWord) : Dev :=
  d.vecScalar x w (((d.vecU x).sreg (w.d % 16) * 2 ^ 16) ||| w.imm)
def vSadd (d : Dev) (x _b : Nat) (w : VWord) : Dev :=
  let u := d.vecU x
  d.vecScalar x w (wrapInt 64 ((u.sreg (w.a % 16) : Int) + u.sreg (w.b % 16) + w.simm))
/-- SMUL, SAND, SSHL and SSHR. -/
def vScalarOp (g : Nat → Nat → Nat) (d : Dev) (x _b : Nat) (w : VWord) : Dev :=
  let u := d.vecU x
  d.vecScalar x w (g (u.sreg (w.a % 16)) (u.sreg (w.b % 16)))

/-- SRD: the value its immediate selects. -/
def vSrdOp (d : Dev) (x b : Nat) (w : VWord) : Dev :=
  d.vecScalar x w (match w.imm with
    | 0 => (d.vecU x).rep
    | 1 => d.tick
    | 2 => d.get (SCH_BAY_STEPNO.step b)
    | 3 => x % 6
    | 4 => x / 6
    | _ => d.gtime)

/-- A branch: taken, it goes to its own index plus the immediate. -/
def Dev.vecBranch (d : Dev) (x : Nat) (w : VWord) (taken : Bool) : Dev :=
  if taken then
    (d.putVec x { d.vecU x with pc := (((d.vecU x).pc : Int) + w.simm).toNat % 2048 }).showVec x 2 0
  else d.nextPc x

def vBneOp (d : Dev) (x _b : Nat) (w : VWord) : Dev :=
  let u := d.vecU x
  d.vecBranch x w (u.sreg (w.a % 16) != u.sreg (w.b % 16))
def vBltOp (d : Dev) (x _b : Nat) (w : VWord) : Dev :=
  let u := d.vecU x
  d.vecBranch x w (decide (signedOf 64 (u.sreg (w.a % 16)) < signedOf 64 (u.sreg (w.b % 16))))

/-- WAIT: goes on once its peg has reached the threshold at the repetition index modulo 2^16 (R121, R145). -/
def vWaitOp (d : Dev) (x _b : Nat) (w : VWord) : Dev :=
  if d.waitOk (AG_VEC_THR.off (x / 6) (x % 6) 0) (w.imm / 4096) (x / 6) (w.imm % 4096) ((d.vecU x).rep % 65536) then d.nextPc x
  else d.showVec x 3 1

/-- INC: the stores before it are visible, so the peg rises by one at once (R122). -/
def vIncOp (d : Dev) (x _b : Nat) (w : VWord) : Dev := (d.incPeg (x / 6) (w.imm % 4096) 1 0).nextPc x

/-- END: one more repetition, from instruction 0; registers keep their values (R145). -/
def vEndOp (d : Dev) (x _b : Nat) (_w : VWord) : Dev :=
  (d.putVec x { d.vecU x with rep := (d.vecU x).rep + 1, pc := 0 }).showVec x 2 0

/-! ### The commands -/

/-- The copy of a committed program into the program store ends (R143). -/
def Dev.programCopyDone (d : Dev) (x : Nat) : Dev :=
  match (d.vecU x).copying with
  | some p => d.putVec x { d.vecU x with prog := p, copying := none }
  | none => d

/-- PROGRAM_COPY_DONE: R143. -/
def execProgramCopyDone (slice : SliceId) (s : State) : Host.Outcome State Fault Refusal :=
  onDev s fun d => d.programCopyDone slice.val

/-- VECTOR_NOP: R151. -/
def execVNop (slice : SliceId) (stall : Nat) (s : State) : Host.Outcome State Fault Refusal :=
  onDev s fun d => d.vecRun slice.val 0 stall fun d b w => vNop d slice.val b w

/-- ADD: R151. -/
def execVAdd (slice : SliceId) (stall : Nat) (s : State) : Host.Outcome State Fault Refusal :=
  onDev s fun d => d.vecRun slice.val 1 stall fun d b w => vAdd d slice.val b w

/-- SUB: R151. -/
def execVSub (slice : SliceId) (stall : Nat) (s : State) : Host.Outcome State Fault Refusal :=
  onDev s fun d => d.vecRun slice.val 2 stall fun d b w => vSub d slice.val b w

/-- MUL: R151. -/
def execVMul (slice : SliceId) (stall : Nat) (s : State) : Host.Outcome State Fault Refusal :=
  onDev s fun d => d.vecRun slice.val 3 stall fun d b w => vMul d slice.val b w

/-- FMA: R151. -/
def execVFma (slice : SliceId) (stall : Nat) (s : State) : Host.Outcome State Fault Refusal :=
  onDev s fun d => d.vecRun slice.val 4 stall fun d b w => d.vecFma slice.val b w false

/-- FNMA: R151. -/
def execVFnma (slice : SliceId) (stall : Nat) (s : State) : Host.Outcome State Fault Refusal :=
  onDev s fun d => d.vecRun slice.val 5 stall fun d b w => d.vecFma slice.val b w true

/-- DIV: R151. -/
def execVDiv (slice : SliceId) (stall : Nat) (s : State) : Host.Outcome State Fault Refusal :=
  onDev s fun d => d.vecRun slice.val 6 stall fun d b w => vDiv d slice.val b w

/-- SQRT: R151. -/
def execVSqrt (slice : SliceId) (stall : Nat) (s : State) : Host.Outcome State Fault Refusal :=
  onDev s fun d => d.vecRun slice.val 7 stall fun d b w => vSqrtOp d slice.val b w

/-- MIN: R151. -/
def execVMin (slice : SliceId) (stall : Nat) (s : State) : Host.Outcome State Fault Refusal :=
  onDev s fun d => d.vecRun slice.val 8 stall fun d b w => vMinMax false d slice.val b w

/-- MAX: R151. -/
def execVMax (slice : SliceId) (stall : Nat) (s : State) : Host.Outcome State Fault Refusal :=
  onDev s fun d => d.vecRun slice.val 9 stall fun d b w => vMinMax true d slice.val b w

/-- MINN: R151. -/
def execVMinn (slice : SliceId) (stall : Nat) (s : State) : Host.Outcome State Fault Refusal :=
  onDev s fun d => d.vecRun slice.val 0xa stall fun d b w => vMinMaxNum false d slice.val b w

/-- MAXN: R151. -/
def execVMaxn (slice : SliceId) (stall : Nat) (s : State) : Host.Outcome State Fault Refusal :=
  onDev s fun d => d.vecRun slice.val 0xb stall fun d b w => vMinMaxNum true d slice.val b w

/-- ABS: R151. -/
def execVAbs (slice : SliceId) (stall : Nat) (s : State) : Host.Outcome State Fault Refusal :=
  onDev s fun d => d.vecRun slice.val 0xc stall fun d b w => vSign false d slice.val b w

/-- NEG: R151. -/
def execVNeg (slice : SliceId) (stall : Nat) (s : State) : Host.Outcome State Fault Refusal :=
  onDev s fun d => d.vecRun slice.val 0xd stall fun d b w => vSign true d slice.val b w

/-- RINT: R151. -/
def execVRint (slice : SliceId) (stall : Nat) (s : State) : Host.Outcome State Fault Refusal :=
  onDev s fun d => d.vecRun slice.val 0xe stall fun d b w => vRintOp d slice.val b w

/-- AND: R151. -/
def execVAnd (slice : SliceId) (stall : Nat) (s : State) : Host.Outcome State Fault Refusal :=
  onDev s fun d => d.vecRun slice.val 0x10 stall fun d b w => vLogic (· &&& ·) d slice.val b w

/-- OR: R151. -/
def execVOr (slice : SliceId) (stall : Nat) (s : State) : Host.Outcome State Fault Refusal :=
  onDev s fun d => d.vecRun slice.val 0x11 stall fun d b w => vLogic (· ||| ·) d slice.val b w

/-- XOR: R151. -/
def execVXor (slice : SliceId) (stall : Nat) (s : State) : Host.Outcome State Fault Refusal :=
  onDev s fun d => d.vecRun slice.val 0x12 stall fun d b w => vLogic (· ^^^ ·) d slice.val b w

/-- SHL: R151. -/
def execVShl (slice : SliceId) (stall : Nat) (s : State) : Host.Outcome State Fault Refusal :=
  onDev s fun d => d.vecRun slice.val 0x13 stall fun d b w => vShift (fun p n => p <<< n % 2 ^ 32) d slice.val b w

/-- SHR: R151. -/
def execVShr (slice : SliceId) (stall : Nat) (s : State) : Host.Outcome State Fault Refusal :=
  onDev s fun d => d.vecRun slice.val 0x14 stall fun d b w => vShift (fun p n => wrapInt 32 (signedOf 32 p / 2 ^ n)) d slice.val b w

/-- SHRL: R151. -/
def execVShrl (slice : SliceId) (stall : Nat) (s : State) : Host.Outcome State Fault Refusal :=
  onDev s fun d => d.vecRun slice.val 0x15 stall fun d b w => vShift (fun p n => p >>> n) d slice.val b w

/-- CMP: R155. -/
def execVCmp (slice : SliceId) (stall : Nat) (s : State) : Host.Outcome State Fault Refusal :=
  onDev s fun d => d.vecRun slice.val 0x18 stall fun d b w => vCmpOp d slice.val b w

/-- SEL: R151. -/
def execVSel (slice : SliceId) (stall : Nat) (s : State) : Host.Outcome State Fault Refusal :=
  onDev s fun d => d.vecRun slice.val 0x19 stall fun d b w => vSelOp d slice.val b w

/-- PSET: R155. -/
def execVPset (slice : SliceId) (stall : Nat) (s : State) : Host.Outcome State Fault Refusal :=
  onDev s fun d => d.vecRun slice.val 0x1a stall fun d b w => vPsetOp d slice.val b w

/-- PLOG: R151. -/
def execVPlog (slice : SliceId) (stall : Nat) (s : State) : Host.Outcome State Fault Refusal :=
  onDev s fun d => d.vecRun slice.val 0x1b stall fun d b w => vPlogOp d slice.val b w

/-- EXP: R158. -/
def execVExp (slice : SliceId) (stall : Nat) (s : State) : Host.Outcome State Fault Refusal :=
  onDev s fun d => d.vecRun slice.val 0x20 stall fun d b w => vFunc 0 d slice.val b w

/-- LOG: R158. -/
def execVLog (slice : SliceId) (stall : Nat) (s : State) : Host.Outcome State Fault Refusal :=
  onDev s fun d => d.vecRun slice.val 0x21 stall fun d b w => vFunc 1 d slice.val b w

/-- RSQRT: R158. -/
def execVRsqrt (slice : SliceId) (stall : Nat) (s : State) : Host.Outcome State Fault Refusal :=
  onDev s fun d => d.vecRun slice.val 0x22 stall fun d b w => vFunc 2 d slice.val b w

/-- SIGM: R158. -/
def execVSigm (slice : SliceId) (stall : Nat) (s : State) : Host.Outcome State Fault Refusal :=
  onDev s fun d => d.vecRun slice.val 0x23 stall fun d b w => vFunc 3 d slice.val b w

/-- TANH: R158. -/
def execVTanh (slice : SliceId) (stall : Nat) (s : State) : Host.Outcome State Fault Refusal :=
  onDev s fun d => d.vecRun slice.val 0x24 stall fun d b w => vFunc 4 d slice.val b w

/-- SILU: R158. -/
def execVSilu (slice : SliceId) (stall : Nat) (s : State) : Host.Outcome State Fault Refusal :=
  onDev s fun d => d.vecRun slice.val 0x25 stall fun d b w => vFunc 5 d slice.val b w

/-- GELU: R158. -/
def execVGelu (slice : SliceId) (stall : Nat) (s : State) : Host.Outcome State Fault Refusal :=
  onDev s fun d => d.vecRun slice.val 0x26 stall fun d b w => vFunc 6 d slice.val b w

/-- CVT: R157. -/
def execVCvt (slice : SliceId) (stall : Nat) (s : State) : Host.Outcome State Fault Refusal :=
  onDev s fun d => d.vecRun slice.val 0x28 stall fun d b w => vCvtOp d slice.val b w

/-- RSUM: R161. -/
def execVRsum (slice : SliceId) (stall : Nat) (s : State) : Host.Outcome State Fault Refusal :=
  onDev s fun d => d.vecRun slice.val 0x30 stall fun d b w => vReduce 0 d slice.val b w

/-- RMAX: R161. -/
def execVRmax (slice : SliceId) (stall : Nat) (s : State) : Host.Outcome State Fault Refusal :=
  onDev s fun d => d.vecRun slice.val 0x31 stall fun d b w => vReduce 1 d slice.val b w

/-- RMIN: R161. -/
def execVRmin (slice : SliceId) (stall : Nat) (s : State) : Host.Outcome State Fault Refusal :=
  onDev s fun d => d.vecRun slice.val 0x32 stall fun d b w => vReduce 2 d slice.val b w

/-- PERM: R151. -/
def execVPerm (slice : SliceId) (stall : Nat) (s : State) : Host.Outcome State Fault Refusal :=
  onDev s fun d => d.vecRun slice.val 0x38 stall fun d b w => vPermOp d slice.val b w

/-- SHUF: R159. -/
def execVShuf (slice : SliceId) (stall : Nat) (s : State) : Host.Outcome State Fault Refusal :=
  onDev s fun d => d.vecRun slice.val 0x39 stall fun d b w => vShufOp d slice.val b w

/-- PACK: R160. -/
def execVPack (slice : SliceId) (stall : Nat) (s : State) : Host.Outcome State Fault Refusal :=
  onDev s fun d => d.vecRun slice.val 0x3a stall fun d b w => vPackOp d slice.val b w

/-- UNPK: R160. -/
def execVUnpk (slice : SliceId) (stall : Nat) (s : State) : Host.Outcome State Fault Refusal :=
  onDev s fun d => d.vecRun slice.val 0x3b stall fun d b w => vUnpkOp d slice.val b w

/-- BCAST: R151. -/
def execVBcast (slice : SliceId) (stall : Nat) (s : State) : Host.Outcome State Fault Refusal :=
  onDev s fun d => d.vecRun slice.val 0x3c stall fun d b w => vBcastOp d slice.val b w

/-- MOVS: R151. -/
def execVMovs (slice : SliceId) (stall : Nat) (s : State) : Host.Outcome State Fault Refusal :=
  onDev s fun d => d.vecRun slice.val 0x3d stall fun d b w => vMovsOp d slice.val b w

/-- MOVV: R151. -/
def execVMovv (slice : SliceId) (stall : Nat) (s : State) : Host.Outcome State Fault Refusal :=
  onDev s fun d => d.vecRun slice.val 0x3e stall fun d b w => vMovvOp d slice.val b w

/-- VLD: R151. -/
def execVVld (slice : SliceId) (stall : Nat) (s : State) : Host.Outcome State Fault Refusal :=
  onDev s fun d => d.vecRun slice.val 0x40 stall fun d b w => vVldOp d slice.val b w

/-- VST: R163. -/
def execVVst (slice : SliceId) (stall : Nat) (s : State) : Host.Outcome State Fault Refusal :=
  onDev s fun d => d.vecRun slice.val 0x41 stall fun d b w => vVstOp d slice.val b w

/-- VLDC: R156. -/
def execVVldc (slice : SliceId) (stall : Nat) (s : State) : Host.Outcome State Fault Refusal :=
  onDev s fun d => d.vecRun slice.val 0x42 stall fun d b w => vVldcOp d slice.val b w

/-- VSTC: R156. -/
def execVVstc (slice : SliceId) (stall : Nat) (s : State) : Host.Outcome State Fault Refusal :=
  onDev s fun d => d.vecRun slice.val 0x43 stall fun d b w => vVstcOp d slice.val b w

/-- VSTB: R156. -/
def execVVstb (slice : SliceId) (stall : Nat) (s : State) : Host.Outcome State Fault Refusal :=
  onDev s fun d => d.vecRun slice.val 0x44 stall fun d b w => vVstbOp d slice.val b w

/-- GATH: R153. -/
def execVGath (slice : SliceId) (stall : Nat) (s : State) : Host.Outcome State Fault Refusal :=
  onDev s fun d => d.vecRun slice.val 0x45 stall fun d b w => vGathOp d slice.val b w

/-- SCAT: R154. -/
def execVScat (slice : SliceId) (stall : Nat) (s : State) : Host.Outcome State Fault Refusal :=
  onDev s fun d => d.vecRun slice.val 0x46 stall fun d b w => vScatOp d slice.val b w

/-- SCTA: R154. -/
def execVScta (slice : SliceId) (stall : Nat) (s : State) : Host.Outcome State Fault Refusal :=
  onDev s fun d => d.vecRun slice.val 0x47 stall fun d b w => vSctaOp d slice.val b w

/-- VRECV: R140. -/
def execVVrecv (slice : SliceId) (stall : Nat) (s : State) : Host.Outcome State Fault Refusal :=
  onDev s fun d => d.vecRun slice.val 0x48 stall fun d b w => vVrecvOp d slice.val b w

/-- SLI: R151. -/
def execVSli (slice : SliceId) (stall : Nat) (s : State) : Host.Outcome State Fault Refusal :=
  onDev s fun d => d.vecRun slice.val 0x50 stall fun d b w => vSli d slice.val b w

/-- SLIH: R151. -/
def execVSlih (slice : SliceId) (stall : Nat) (s : State) : Host.Outcome State Fault Refusal :=
  onDev s fun d => d.vecRun slice.val 0x51 stall fun d b w => vSlih d slice.val b w

/-- SADD: R151. -/
def execVSadd (slice : SliceId) (stall : Nat) (s : State) : Host.Outcome State Fault Refusal :=
  onDev s fun d => d.vecRun slice.val 0x52 stall fun d b w => vSadd d slice.val b w

/-- SMUL: R151. -/
def execVSmul (slice : SliceId) (stall : Nat) (s : State) : Host.Outcome State Fault Refusal :=
  onDev s fun d => d.vecRun slice.val 0x53 stall fun d b w => vScalarOp (· * ·) d slice.val b w

/-- SAND: R151. -/
def execVSand (slice : SliceId) (stall : Nat) (s : State) : Host.Outcome State Fault Refusal :=
  onDev s fun d => d.vecRun slice.val 0x54 stall fun d b w => vScalarOp (· &&& ·) d slice.val b w

/-- SSHL: R151. -/
def execVSshl (slice : SliceId) (stall : Nat) (s : State) : Host.Outcome State Fault Refusal :=
  onDev s fun d => d.vecRun slice.val 0x55 stall fun d b w => vScalarOp (fun p q => p <<< (q % 64)) d slice.val b w

/-- SSHR: R151. -/
def execVSshr (slice : SliceId) (stall : Nat) (s : State) : Host.Outcome State Fault Refusal :=
  onDev s fun d => d.vecRun slice.val 0x56 stall fun d b w => vScalarOp (fun p q => p >>> (q % 64)) d slice.val b w

/-- SRD: R151. -/
def execVSrd (slice : SliceId) (stall : Nat) (s : State) : Host.Outcome State Fault Refusal :=
  onDev s fun d => d.vecRun slice.val 0x57 stall fun d b w => vSrdOp d slice.val b w

/-- BNE: R151. -/
def execVBne (slice : SliceId) (stall : Nat) (s : State) : Host.Outcome State Fault Refusal :=
  onDev s fun d => d.vecRun slice.val 0x58 stall fun d b w => vBneOp d slice.val b w

/-- BLT: R151. -/
def execVBlt (slice : SliceId) (stall : Nat) (s : State) : Host.Outcome State Fault Refusal :=
  onDev s fun d => d.vecRun slice.val 0x59 stall fun d b w => vBltOp d slice.val b w

/-- WAIT: R121. -/
def execVWait (slice : SliceId) (stall : Nat) (s : State) : Host.Outcome State Fault Refusal :=
  onDev s fun d => d.vecRun slice.val 0x5c stall fun d b w => vWaitOp d slice.val b w

/-- INC: R122. -/
def execVInc (slice : SliceId) (stall : Nat) (s : State) : Host.Outcome State Fault Refusal :=
  onDev s fun d => d.vecRun slice.val 0x5d stall fun d b w => vIncOp d slice.val b w

/-- VECTOR_FENCE: R151. -/
def execVFence (slice : SliceId) (stall : Nat) (s : State) : Host.Outcome State Fault Refusal :=
  onDev s fun d => d.vecRun slice.val 0x5e stall fun d _ _ => d.nextPc slice.val

/-- END: R145. -/
def execVEnd (slice : SliceId) (stall : Nat) (s : State) : Host.Outcome State Fault Refusal :=
  onDev s fun d => d.vecRun slice.val 0x5f stall fun d b w => vEndOp d slice.val b w

end Sys2Proof.Machine
end

