-- ==== Sys2Proof/Machine/Bay.lean ====
section
/-! DEFINITION. What a bay does at tick edges: stages and slips, the start and close of a step, contexts, pre-emption and
switching (spec/02_the_tick.md, spec/09_training_execution.md, spec/10_bays_contexts_and_scheduling.md). -/

namespace Sys2Proof.Machine

/-! ### The schedule directory (R202 to R206) -/

/-- Array a has a stage: its table or the program of its facing slice is not empty (R179). -/
def Dev.hasStage (d : Dev) (a : Nat) : Bool :=
  d.get (AG_ARR_TABLE.tbl_len (a / 6) (a % 6)) != 0 || d.get (AG_VEC_PROG.code_len (a / 6) (a % 6)) != 0

/-- Offset of the directory entry of array a. -/
def Dev.dirEntry (d : Dev) (b a : Nat) : Nat := d.get (SCH_BAY_SCHED.dir_offset b) + 16 * a

/-- The phase list of array a (R203). -/
def Dev.readPhases (d : Dev) (b a : Nat) : List Phase :=
  let e := d.dirEntry b a
  (List.range (d.bayNat b (e + 4) 2)).map fun i =>
    let p := d.bayNat b e 4 + 8 * i
    { first := d.bayNat b p 2, count := d.bayNat b (p + 2) 2, reps := d.bayNat b (p + 4) 3, vstage := d.bayNat b (p + 7) 1 }

/-- The deadline list of array a (R204). -/
def Dev.readDeadlines (d : Dev) (b a : Nat) : List Deadline :=
  let e := d.dirEntry b a
  (List.range (d.bayNat b (e + 12) 2)).map fun i =>
    let p := d.bayNat b (e + 8) 4 + 8 * i
    { peg := d.bayNat b p 2 % 4096, offset := d.bayNat b (p + 4) 4, due := false }

/-- Every OS chain of a range opens and closes within it (R75, R205). -/
def Dev.rangeChains (d : Dev) (b a : Nat) (ph : Phase) : Bool :=
  [0, 1, 2, 3].all fun c =>
    let r := (((List.range ph.count).map fun i => ph.first + i).filter fun i => (d.descAt b a i).cls == c).foldl
      (fun (st : Bool × Option Chain) i =>
        let q := d.descAt b a i
        (st.1 && chainOk st.2 q, nextChain { ArrayU.reset with chain := st.2 } q)) (true, none)
    r.1 && r.2.isNone

/-- A list of n bytes at an offset is 8-byte aligned and lies wholly inside a TILE_DATA section of the bay's bent; an empty list
needs neither (R203 to R205). -/
def Dev.listOk (d : Dev) (b off n : Nat) : Bool :=
  n == 0 || (off % 8 == 0 && d.tileRangeOk b off n &&
    (d.bayU b).tileData.any fun s => decide (s.1 ≤ off) && decide (off + n ≤ s.1 + s.2))

/-- The checks of R205 on the directory entry of array a. -/
def Dev.scheduleOk (d : Dev) (b a : Nat) : Bool :=
  let e := d.dirEntry b a
  if !(d.flag (SCH_BAY_SCHED.dir_valid b) && d.tileRangeOk b e 16) then !d.hasStage a
  else
    let phases := d.readPhases b a
    let dl := d.readDeadlines b a
    d.listOk b (d.bayNat b e 4) (8 * phases.length) && d.listOk b (d.bayNat b (e + 8) 4) (8 * dl.length) &&
    d.bayNat b (e + 6) 2 == 0 && d.bayNat b (e + 14) 2 == 0 && (d.hasStage a == !phases.isEmpty) &&
    phases.all (fun p => decide (p.first + p.count ≤ d.get (AG_ARR_TABLE.tbl_len (a / 6) (a % 6))) && decide (1 ≤ p.reps) &&
      decide (p.vstage ≤ 7) && decide ((d.rangeDescs b a p true).length ≤ 4096) && d.rangeChains b a p) &&
    decide (dl.length ≤ 256) &&
    dl.zipIdx.all (fun g => g.1.peg != 0xFFF && decide (1 ≤ g.1.offset) &&
      (let p := d.bayNat b (e + 8) 4 + 8 * g.2
       d.bayNat b p 2 / 4096 == 0 && d.bayNat b (p + 2) 2 == 0))

/-! ### Stages at action 1 (R29 to R34, R207 to R214) -/

/-- An index begins: its class-2 descriptors go towards the backlog, the others become the current work (R208). -/
def Dev.beginIndex (d : Dev) (b a : Nat) (u : Dispatcher) : Dispatcher :=
  match u.phases[u.phase]? with
  | some p => enqueueBacklog { u with work := d.rangeDescs b a p false, enq := u.enq ++ d.rangeDescs b a p true,
                                      outstanding := 0 }
  | none => { u with done := true, work := [], outstanding := 0 }

/-- The index of a stage is complete (R208, R145). -/
def Dev.indexComplete (d : Dev) (a : Nat) : Bool :=
  let u := (d.arrU a).disp
  u.work.isEmpty && u.enq.isEmpty && u.outstanding == 0 &&
    (d.get (AG_VEC_PROG.code_len (a / 6) (a % 6)) == 0 || decide (u.index < (d.vecU a).rep))

/-- The telemetry report of the virtual stage that an array's phase serves, made as the phase begins (R201; DEDUCED, log
entry 168). -/
def Dev.reportStage (d : Dev) (a : Nat) : Dev :=
  let u := (d.arrU a).disp
  match u.phases[u.phase]? with
  | some p => d.emit (.telemetry 11 [a, p.vstage])
  | none => d

/-- The stage moves to its next index, or is done after its last (R207, R209). -/
def Dev.nextIndex (d : Dev) (b a : Nat) : Dev :=
  let u := (d.arrU a).disp
  let put (v : Dispatcher) : Dev := (d.putArr a { d.arrU a with disp := v }).showDisp b a
  match u.phases[u.phase]? with
  | none => put { u with done := true }
  | some p =>
    if u.rep < p.reps then put (d.beginIndex b a { u with index := u.index + 1, rep := u.rep + 1 })
    else if u.phase + 1 < u.phases.length then
      (put (d.beginIndex b a { u with index := u.index + 1, phase := u.phase + 1, rep := 1 })).reportStage a
    else put { u with done := true }

/-- The pegs that the current index of a stage takes its inputs from, each with its selector and the base of the thresholds that
it counts by: those that its current work waits on and those that the facing program waits on, but for pegs that its own
passes or the program increment (R30; class-2 descriptors belong to no index, R208). -/
def Dev.inputPegs (d : Dev) (b a : Nat) : List (Nat × Nat × Nat) :=
  let u := (d.arrU a).disp
  match u.phases[u.phase]? with
  | none => []
  | some p =>
    let l := (d.rangeDescs b a p false).map (d.descAt b a)
    let prog := (d.vecU a).prog.map fun w => VWord.of w.toNat
    let outs := l.map (·.oPeg) ++ (prog.filter (·.op == 0x5d)).map fun w => w.imm % 4096
    let thr := AG_ARR_THR.off (a / 6) (a % 6) 0
    let ins := (l.flatMap fun q =>
        (if q.op < 2 then [(thr, q.aSel, q.aPeg)] else []) ++ (if q.op != 3 then [(thr, q.bSel, q.bPeg)] else [])) ++
      (prog.filter (·.op == 0x5c)).map fun w => (AG_VEC_THR.off (a / 6) (a % 6) 0, w.imm / 4096, w.imm % 4096)
    ins.filter fun e => !outs.contains e.2.2

/-- Every input peg of the current index stands at its threshold (R30). -/
def Dev.inputsNow (d : Dev) (b a : Nat) : Bool :=
  (d.inputPegs b a).all fun e => d.waitOk e.1 e.2.1 (a / 6) e.2.2 ((d.arrU a).disp.index % 65536)

/-- The input pegs are noted at the start of a tick, for the class of a slip at its end (R30). -/
def Dev.noteInputs (d : Dev) (b : Nat) : Dev :=
  (d.bayArrays b).foldl (fun d a =>
    d.putArr a { d.arrU a with disp := { (d.arrU a).disp with inputsReady := d.inputsNow b a } }) d

/-- A slip of the bay: own or upstream (R30, R32). -/
def Dev.slip (d : Dev) (b : Nat) (own : Bool) : Dev :=
  let d := d.incSat (if own then TCK_BAY_SLIP.own_count b else TCK_BAY_SLIP.upstream_count b) 1
  match (d.bayU b).step with
  | some r =>
    d.putBay b { d.bayU b with step := some (if own then { r with own := r.own + 1 } else { r with upstream := r.upstream + 1 }) }
  | none => d

/-- SCH runs (R397: core 2). -/
def Dev.schRunning (d : Dev) : Bool := d.get (GLB_FW_CORE.state 2) == 0

/-- The deadline groups of a dispatcher t ticks after the step start: those that are due, and the number found late, each judged
once (R214). -/
def Dev.judgeGroups (d : Dev) (b a t : Nat) (u : Dispatcher) : Dispatcher × Nat :=
  let held (g : Deadline) : Bool := u.backlog.any fun e => (d.descAt b a e.desc).oPeg == g.peg
  ({ u with deadlines := u.deadlines.map fun g =>
      { g with due := g.due || decide (g.offset ≤ t), late := g.late || decide (g.offset + 1 ≤ t) } },
   (u.deadlines.filter fun g => !g.late && decide (g.offset + 1 ≤ t) && held g).length)

/-- Late groups are counted (R214). -/
def Dev.countLate (d : Dev) (b n : Nat) : Dev :=
  if n = 0 then d else (d.incSat (SCH_BAY_TCOUNT.deadline_late b) n).set (SCH_BAY_TEVENT.deadline_late b) 1

/-- Ages of the backlog, deadlines that fall due, holds and late groups of an array at an edge, and the ticks in which a
descriptor found the backlog full (R213, R214, R208). `t` is the edge's distance from the step start in ticks. No age advances
while SCH restarts (R402). -/
def Dev.ageArray (d : Dev) (b t a : Nat) : Dev :=
  let n := a / 6
  let x := a % 6
  let u := d.arrU a
  let j := d.judgeGroups b a t u.disp
  let more := d.schRunning.toNat
  let full := u.disp.enqFull || !u.disp.enq.isEmpty
  let d := d.putArr a { u with disp := { j.1 with backlog := u.disp.backlog.map fun e => { e with age := e.age + more }
                                                  enqFull := !u.disp.enq.isEmpty } }
  let d := if d.deadlineHold b a then d.incSat (AG_ARR_DCOUNT.hold_edges n x) 1 else d
  let d := if full then d.incSat (AG_ARR_DCOUNT.enq_wait n x) 1 else d
  (d.countLate b j.2).showDisp b a

/-- The deadline groups of a step that is pre-empted fall due and late too; they lie in the arrays, or in the context's saved
state (R212, R214). -/
def Dev.agePre (d : Dev) (b : Nat) (r : StepRec) : Dev :=
  let k := 8 * b + r.ctx
  let t := d.tick - r.startTick
  match (d.ctxU k).saved with
  | some sv =>
    let js := sv.arrays.map fun e => (e.1, e.2, d.judgeGroups b e.1 t e.2.disp)
    (d.putCtx k { d.ctxU k with saved := some { sv with arrays := js.map fun e => (e.1, { e.2.1 with disp := e.2.2.1 }) } }).countLate b
      (js.foldl (fun n e => n + e.2.2.2) 0)
  | none =>
    (d.bayArrays b).foldl (fun d a =>
      let j := d.judgeGroups b a t (d.arrU a).disp
      ((d.putArr a { d.arrU a with disp := j.1 }).countLate b j.2).showDisp b a) d

/-- The pre-empted steps of a bay at an edge: the one that drains, and those of its contexts. -/
def Dev.agePres (d : Dev) (b : Nat) : Dev :=
  let d := match (d.bayU b).step with
    | some r => if r.preempted then d.agePre b r else d
    | none => d
  (List.range 8).foldl (fun d c => match (d.ctxU (8 * b + c)).pre with
    | some r => d.agePre b r
    | none => d) d

/-- The completion check of a stage: it advances, or slips, except at the first edge after a resumption (R29, R30, R239). -/
def Dev.checkStage (d : Dev) (b : Nat) (noSlip : Bool) (a : Nat) : Dev :=
  let u := (d.arrU a).disp
  if u.done then d
  else if d.indexComplete a then d.nextIndex b a
  else if noSlip then d
  else d.slip b u.inputsReady

/-- The slip threshold of a bay: over is set at the first edge at which the count exceeds it (R33). -/
def Dev.checkOver (d : Dev) (b : Nat) : Dev :=
  if d.get (TCK_BAY_SLIP.threshold b) < d.get (TCK_BAY_SLIP.own_count b) && !d.flag (TCK_BAY_SLIP.over b) then
    ((d.set (TCK_BAY_SLIP.over b) 1).setBit TCK_EVENT.over_bay b).emit (.telemetry 2 [b, d.tick])
  else d

/-- The roll-over of the slip windows: at the first edge of a window every bay's counts return to zero (R32). -/
def Dev.rollWindows (d : Dev) : Dev :=
  let w := d.get TCK_SLIP_CFG.window_ticks
  if w != 0 && d.tick % w == 0 then
    (List.range 8).foldl (fun d b =>
      d.sets [(TCK_BAY_SLIP.own_count b, 0), (TCK_BAY_SLIP.upstream_count b, 0), (TCK_BAY_SLIP.over b, 0)]) d
  else d

/-- Action 1 for the running step of a bay: ages, completion check, measured ticks (R29, R213, R251). -/
def Dev.closeTick (d : Dev) (b : Nat) : Dev :=
  match d.liveStep b with
  | none => d
  | some r =>
    let arrs := d.bayArrays b
    let d := arrs.foldl (fun d a => d.ageArray b (d.tick - r.startTick) a) d
    let d := if r.early.isSome then d else arrs.foldl (fun d a => d.checkStage b r.justResumed a) d
    match (d.bayU b).step with
    | some r => d.putBay b { d.bayU b with step := some { r with measured := r.measured + 1, justResumed := false } }
    | none => d

/-- A step that runs at an edge at which over is 1 after action 1 is to complete with TICK_OVERRUN; what over is counts for the
step that starts at the edge too (R34). -/
def Dev.noteOver (d : Dev) (b : Nat) : Dev :=
  let d := d.putBay b { d.bayU b with overNow := d.flag (TCK_BAY_SLIP.over b) }
  match d.liveStep b with
  | some r =>
    if d.flag (TCK_BAY_SLIP.over b) then d.putBay b { d.bayU b with step := some { r with overSeen := true } } else d
  | none => d

/-! ### Contexts -/

/-- The resident context of a bay (R233). -/
def Dev.resident (d : Dev) (b : Nat) : Option Nat :=
  if d.flag (SCH_BAY_RUN.resident_valid b) then some (d.get (SCH_BAY_RUN.resident b)) else none

/-- A context that has a waiting command or step becomes READY (R237); the wait counts from the open edge set. -/
def Dev.makeReady (d : Dev) (k : Nat) : Dev :=
  let f := SCH_CTX_STATE.state (k / 8) (k % 8)
  let u := d.ctxU k
  let d := if u.waitingSince.isSome then d else d.putCtx k { u with waitingSince := some d.openEdge }
  if d.get f == 1 then d.set f 2 else d

/-- The state of a context whose step has closed or whose suspension has ended: READY with something waiting, a STEP at the
front of its ring included, else IDLE (R237). -/
def Dev.settleCtx (d : Dev) (k : Nat) : Dev :=
  let f := SCH_CTX_STATE.state (k / 8) (k % 8)
  let front := match (d.ringU k).fetched with | c :: _ => c.op == 3 && c.formOk | [] => false
  if (d.ctxU k).waitingSince.isSome || (d.ctxU k).pre.isSome || front then (d.set f 1).makeReady k else d.set f 1

/-- Action 1 for a context: a READY context that waits since before the set closed ages (R240). -/
def Dev.ageCtx (d : Dev) (b c : Nat) : Dev :=
  let ages := d.get (SCH_CTX_STATE.state b c) == 2 &&
    (match (d.ctxU (8 * b + c)).waitingSince with | some e => decide (e ≤ d.tick) | none => false)
  let d := if ages then d.incSat (SCH_CTX_STATE.wait b c) 1 else d
  let w := d.get (SCH_CTX_STATE.wait b c)
  let d := if d.get (SCH_CTX_WAIT.max_wait b c) < w then d.set (SCH_CTX_WAIT.max_wait b c) w else d
  d.set (SCH_CTX_STATE.eff_prio b c) (d.effPrio b c)

/-- A context's wait ends: its step starts or resumes (R240). -/
def Dev.endWait (d : Dev) (b c : Nat) : Dev :=
  ((d.putCtx (8 * b + c) { d.ctxU (8 * b + c) with waitingSince := none }).set (SCH_CTX_STATE.wait b c) 0).set
    (SCH_CTX_STATE.eff_prio b c) (d.get (SCH_CTX_CFG.base_prio b c))

/-! ### Step close (R228, R251 to R253) -/

/-- The bay's units have completed all issued work: no pass and no DMA descriptor in flight (R124, R244). -/
def Dev.unitsIdle (d : Dev) (b : Nat) : Bool :=
  (d.bayArrays b).all (fun a => (d.arrU a).inflight.isEmpty) && (d.bayDmas b).all fun e => (d.dmaU e).inflight.isEmpty

/-- Every stage is done, every backlog empty and no started DMA descriptor in flight (R209). -/
def Dev.workDone (d : Dev) (b : Nat) : Bool :=
  (d.bayArrays b).all (fun a => (d.arrU a).disp.done && (d.arrU a).disp.backlog.isEmpty && (d.arrU a).disp.enq.isEmpty) &&
    d.unitsIdle b

/-- The interference ratio (R251). -/
def interferenceRatio (measured est : Nat) : Nat := if est = 0 then 0 else min 0xFFFF (1024 * measured / est)

/-- The dominant cause of waiting cycles: 0 none, 1 HBM, 2 mesh, 3 fabric, 4 power, 5 other (R252). -/
def dominantCause (w : List Nat) : Nat :=
  let g (i : Nat) : Nat := w.getD i 0
  let best := [1, 2, 3].foldl (fun m i => if g m < g i then i else m) 0
  if w.all (· == 0) then 0 else if g best < g 4 then 5 else best + 1

/-- The estimate of a step: that of its STEP entry, or est_ticks (R251). -/
def Dev.estimateOf (d : Dev) (b : Nat) (r : StepRec) : Nat :=
  let e := r.cmd.num 8 4
  if e = 0 then d.get (SCH_BAY_EST.est_ticks b) else e

/-- The 64-byte step record (R253). -/
def Dev.stepRecord (d : Dev) (b : Nat) (r : StepRec) (status : Nat) : List Byte :=
  let est := d.estimateOf b r
  let flags := (decide (0 < r.preempts)).toNat + 2 * (decide (0 < r.urgent)).toNat + 4 * r.overSeen.toNat +
    8 * (d.stepField b r.ctx (SCH_BAY_TRAIN.gate b) == 3).toNat + 16 * r.restored.toNat + 32 * (decide (0 < r.mism)).toNat +
    64 * r.damaged.toNat
  let sat (w x : Nat) : List Byte := toBytes w (min x (256 ^ w - 1))
  toBytes 6 r.startTick ++ toBytes 6 (r.workEdge.getD d.tick) ++ toBytes 1 r.ctx ++ toBytes 1 status ++ toBytes 2 flags ++ toBytes 4 r.measured ++
    toBytes 4 est ++ toBytes 2 (interferenceRatio r.measured est) ++ toBytes 1 (dominantCause r.waits) ++ sat 1 r.preempts ++
    sat 2 r.own ++ sat 2 r.upstream ++ r.waits.flatMap (fun w => sat 4 (w / 1024)) ++ sat 2 r.mism ++
    toBytes 2 (d.stepField b r.ctx (SCH_BAY_VFLAG.nf_writes b)) ++ sat 2 r.saveUs ++ sat 2 r.restoreUs ++
    toBytes 4 r.no

/-- The record goes to the telemetry ring, and the interference report is updated (R253). -/
def Dev.reportStep (d : Dev) (b : Nat) (r : StepRec) (status : Nat) : Dev :=
  let est := d.estimateOf b r
  let bytes := d.stepRecord b r status
  let d :=
    if d.flag (SCH_BAY_TRING.ring_en b) then
      let n := 2 ^ d.get (SCH_BAY_TRING.ring_log2 b)
      let head := d.get (SCH_BAY_THEAD.head b)
      let d := d.putBayBytes b (d.get (SCH_BAY_TRING.ring_base b) + 64 * (head % n)) bytes
      let d := if n ≤ head then d.incSat (SCH_BAY_THEAD.overrun b) 1 else d
      d.incWrap (SCH_BAY_THEAD.head b) 1
    else d
  d.sets [(SCH_BAY_IRATIO.ratio b, interferenceRatio r.measured est), (SCH_BAY_IRATIO.cause b, dominantCause r.waits),
    (SCH_BAY_IRATIO.measured b, r.measured)]

/-- The completion status of a closing step (R34, R224, R226, R228, R349, R366). -/
def Dev.stepStatus (d : Dev) (b : Nat) (r : StepRec) : Nat :=
  match r.early with
  | some s => s
  | none =>
    if d.get (SCH_BAY_TRAIN.gate b) == 3 then stSkipped
    else if r.withheld then stShardVersion
    else if r.overSeen then stTickOverrun
    else if r.absorbed then stFaultAbsorbed else stOk

/-- The loss-scale state after a decision (R228). -/
def Dev.updateScale (d : Dev) (b : Nat) : Dev :=
  let clean := d.get (SCH_BAY_TRAIN.clean_count b)
  let exp := d.getS (SCH_BAY_TRAIN.ls_exp b)
  let setExp (d : Dev) (e : Int) : Dev := d.set (SCH_BAY_TRAIN.ls_exp b) (wrapInt 8 e)
  if !d.flag (SCH_BAY_LSCFG.ls_enable b) then d
  else if d.get (SCH_BAY_TRAIN.gate b) == 3 then
    let d := if exp = d.getS (SCH_BAY_LSCFG.ls_min b) then d.set (SCH_BAY_TEVENT.ls_floor b) 1 else setExp d (exp - 1)
    let d := (d.set (SCH_BAY_TRAIN.clean_count b) 0).incSat (SCH_BAY_TRAIN.skip_run b) 1
    let a := d.get (SCH_BAY_LSCFG.skip_alarm b)
    if a != 0 && d.get (SCH_BAY_TRAIN.skip_run b) == a then
      (d.set (SCH_BAY_TEVENT.skip_alarm b) 1).emit (.telemetry 3 [b])
    else d
  else if d.get (SCH_BAY_TRAIN.gate b) == 2 then
    let d := d.set (SCH_BAY_TRAIN.skip_run b) 0
    if clean + 1 < d.get (SCH_BAY_LSCFG.clean_steps b) then d.set (SCH_BAY_TRAIN.clean_count b) (clean + 1)
    else
      let d := d.set (SCH_BAY_TRAIN.clean_count b) 0
      if exp < d.getS (SCH_BAY_LSCFG.ls_max b) then setExp d (exp + 1) else d
  else d

/-- What the training state becomes at a close (R228 items 2 and 3): a step that ended early changes neither. -/
def Dev.closeTraining (d : Dev) (b : Nat) (r : StepRec) : Dev :=
  if r.early.isSome then d
  else
    let d := if d.get (SCH_BAY_TRAIN.gate b) == 2 then d.incWrap (SCH_BAY_UPDATES.updates b) 1 else d
    let d := if d.get (SCH_BAY_TRAIN.gate b) == 3 then
      (d.set (SCH_BAY_TEVENT.skipped b) 1).incSat (SCH_BAY_TCOUNT.skipped_steps b) 1 else d
    d.updateScale b

/-- A register's change journaled after the fact, when its value differs (R228 item 4). -/
def Dev.jnlDiff (d old : Dev) (origin off : Nat) : Dev :=
  if old.rd off = d.rd off then d else d.jnlChange origin off 0 (old.rd off) (d.rd off)

/-- The slice's work of a step ends: drain-queue entries still present are discarded and counted (R142). -/
def Dev.closeSlice (d : Dev) (x : Nat) : Dev :=
  let u := d.vecU x
  let d := if u.dq.isEmpty then d else
    ((d.putVec x { u with dq := [] }).incSat (AG_VEC_COUNT.dq_discard (x / 6) (x % 6)) u.dq.length).set
      (AG_VEC_EVENT.dq_discard (x / 6) (x % 6)) 1
  d.showVec x 1 0

/-- The step of a bay closes at action 1: status, updates, loss scale, journal, completion, record (R228, R253). -/
def Dev.closeStep (d : Dev) (b : Nat) : Dev :=
  match (d.bayU b).step with
  | none => d
  | some r =>
    let k := 8 * b + r.ctx
    let old := d
    let status := d.stepStatus b r
    let d := d.closeTraining b r
    let d := (d.jnlDiff old 0x12 (SCH_BAY_TRAIN.off b)).jnlDiff old 0x12 (SCH_BAY_UPDATES.off b)
    let result := r.no + interferenceRatio r.measured (d.estimateOf b r) * 2 ^ 48
    let d := d.complete r.cmd status result
    let d := d.reportStep b r status
    let d := (d.bayArrays b).foldl (fun d x => (d.closeSlice x).unstalled x) d
    let d := (d.bayDmas b).foldl (fun d e =>
      if d.get (AG_DMA_STATUS.state (e / 4) (e % 4)) == 2 then d.set (AG_DMA_STATUS.state (e / 4) (e % 4)) 1 else d) d
    let d := d.putBay b { d.bayU b with step := none }
    let d := (d.set (SCH_BAY_RUN.step_running b) 0).incSat (SCH_CTX_COUNT.steps b r.ctx) 1
    d.settleCtx k

/-! ### Step start and resumption (R124, R145, R164, R206, R219, R230, R239) -/

/-- FP32 encoding of 2^e for e from −64 to 64. -/
def pow2F32 (e : Int) : Nat := (127 + e).toNat * 2 ^ 23

/-- The 64-byte step line (R230). -/
def Dev.stepLine (d : Dev) (b : Nat) : List Byte :=
  let e := d.getS (SCH_BAY_TRAIN.ls_exp b)
  toBytes 4 (pow2F32 e) ++ toBytes 4 (pow2F32 (-e)) ++ toBytes 8 (d.get (SCH_BAY_STEPNO.step b)) ++
    toBytes 8 (d.get (SCH_BAY_UPDATES.updates b)) ++ toBytes 1 (d.get (SCH_BAY_TRAIN.last_decision b)) ++ List.replicate 39 0

/-- An array at a step start: IDLE again if it was halted, with its lists read; lists that fail halt it (R73, R206). -/
def Dev.startArray (d : Dev) (b a : Nat) : Dev :=
  let n := a / 6
  let x := a % 6
  let u := d.arrU a
  let u := { u with chain := none, staged := [], draws := [], meshStall := 0 }
  if d.scheduleOk b a then
    let phases := if d.hasStage a then d.readPhases b a else []
    let disp : Dispatcher := { ArrayU.reset.disp with phases := phases, rep := 1,
                                                      deadlines := if d.hasStage a then d.readDeadlines b a else [] }
    let d := (d.putArr a { u with disp := d.beginIndex b a disp }).set (AG_ARR_STATUS.state n x) 1
    (d.showDisp b a).reportStage a
  else
    let d := (d.putArr a { u with disp := ArrayU.reset.disp }).set (SCH_BAY_TEVENT.sched_error b) 1
    d.haltArray b a

/-- A slice at a step start: registers zero, repetition index 0, instruction 0, an empty drain queue (R142, R145). -/
def Dev.startSlice (d : Dev) (x : Nat) : Dev :=
  let u := d.vecU x
  let run := d.get (AG_VEC_PROG.code_len (x / 6) (x % 6)) != 0
  (d.putVec x { u with v := [], p := [], s := [], pc := 0, rep := 0, dq := [], draws := [], running := run }).showVec x
    (if run then 2 else 1) 0

/-- A DMA engine at a step start: entry 0, repetition index 0 (R130). -/
def Dev.startDma (d : Dev) (e : Nat) : Dev :=
  let n := e / 4
  let x := e % 4
  let run := d.get (AG_DMA_TABLE.tbl_len n x) != 0
  (d.putDma e { DmaU.reset with running := run }).sets
    [(AG_DMA_STATUS.state n x, if run then 2 else 1), (AG_DMA_STATUS.entry n x, 0), (AG_DMA_STATUS.error n x, 0)]

/-- The bay's pegs at a step start: the initialisation table again, and every tick peg 0 (R120, R124). -/
def Dev.startPegs (d : Dev) (b : Nat) : Dev :=
  let d := (d.bayU b).pegInit.foldl (fun d e => d.set (AG_PEG.value e.1 e.2.1) e.2.2) d
  (d.bayAgs b).foldl (fun d n => (d.set (AG_PEG.value n 0xFFF) 0).putAg n { d.agU n with pegDue := false }) d

/-- The flags and the gate at a step start (R164, R219): copied to their _last fields and cleared. -/
def Dev.startFlags (d : Dev) (b : Nat) : Dev :=
  let g := d.get (SCH_BAY_TRAIN.gate b)
  d.sets [(SCH_BAY_VFLAG.flags_last b, d.get (SCH_BAY_VFLAG.flags b)),
    (SCH_BAY_VFLAG.nonfinite_last b, d.get (SCH_BAY_VFLAG.nonfinite b)), (SCH_BAY_VFLAG.flags b, 0),
    (SCH_BAY_VFLAG.nonfinite b, 0), (SCH_BAY_VFLAG.nf_writes b, 0),
    (SCH_BAY_TRAIN.last_decision b, if g = 2 then 1 else if g = 3 then 2 else 0), (SCH_BAY_TRAIN.gate b, 0),
    (SCH_BAY_TRAIN.running_flag b, 0), (SCH_BAY_TRAIN.gate_done b, 0)]

/-- A step of context c starts at action 7 with its STEP command (R145, R206, R219, R230, R240). -/
def Dev.startStep (d : Dev) (b c : Nat) (cmd : Cmd) : Dev :=
  let d := (d.startCmd cmd).startFlags b
  let d := d.incWrap (SCH_BAY_STEPNO.step b) 1
  let r : StepRec := { ctx := c, cmd := cmd, startTick := d.tick, no := d.get (SCH_BAY_STEPNO.step b), measured := 0, seed := d.get (SCH_BAY_SEED.seed b),
                       preempted := false, draining := false, preempts := 0, urgent := 0, restored := false,
                       overSeen := (d.bayU b).overNow, early := none, own := 0, upstream := 0, mism := 0,
                       waits := [0, 0, 0, 0, 0], saveUs := 0, restoreUs := 0, damaged := false, returned := false,
                       justResumed := false, absorbed := false, withheld := false, workEdge := none }
  let d := d.putBay b { d.bayU b with step := some r }
  let d := d.startPegs b
  let d := if d.flag (SCH_BAY_GATECFG.line_en b) then d.putBayBytes b (d.get (SCH_BAY_GATECFG.line_offset b)) (d.stepLine b)
    else d
  let d := (d.bayArrays b).foldl (fun d a => (d.startSlice a).startArray b a) d
  let d := (d.bayDmas b).foldl (fun d e => d.startDma e) d
  ((d.endWait b c).set (SCH_CTX_STATE.state b c) 4).set (SCH_BAY_RUN.step_running b) 1

/-- A pre-empted step resumes at action 7: it goes on from where it stopped (R239). -/
def Dev.resumeStep (d : Dev) (b c : Nat) (r : StepRec) : Dev :=
  let d := d.putCtx (8 * b + c) { d.ctxU (8 * b + c) with pre := none }
  let d := d.putBay b { d.bayU b with step := some { r with preempted := false, draining := false, justResumed := true } }
  let d := (d.bayArrays b).foldl (fun d a => (d.showDisp b a).showVec a (if (d.vecU a).running then 2 else 1) 0) d
  ((d.endWait b c).sets [(SCH_CTX_STATE.state b c, 4), (SCH_CTX_STATE.saved b c, 0)]).set (SCH_BAY_RUN.step_running b) 1

/-! ### Pre-emption (R244, R245) -/

/-- An urgent pre-emption begins at action 5: the running step drains (R244). -/
def Dev.beginDrain (d : Dev) (b : Nat) : Dev :=
  match d.liveStep b with
  | none => d
  | some r =>
    let d := d.putBay b { d.bayU b with step := some { r with preempted := true, draining := true, preempts := r.preempts + 1,
                                                              urgent := r.urgent + 1 } }
    let d := (d.incSat (SCH_CTX_COUNT.preempts b r.ctx) 1).incSat (SCH_CTX_COUNT.urgent b r.ctx) 1
    let d := (d.bayArrays b).foldl (fun d a => if (d.arrU a).feeding.isSome then d else d.unstalled a) d
    (d.set (SCH_CTX_STATE.state b r.ctx) 5).set (SCH_BAY_RUN.draining b) 1

/-- A context becomes SUSPENDED and its PREEMPTs complete (R245). -/
def Dev.suspend (d : Dev) (k : Nat) (l : List (Cmd × Nat)) : Dev :=
  let d := d.set (SCH_CTX_STATE.state (k / 8) (k % 8)) 6
  let d := d.putCtx k { d.ctxU k with susReq := (d.ctxU k).susReq.filter fun e => !l.contains e }
  l.foldl (fun d e => d.complete e.1 stOk 0) d

/-- The drain of an urgent pre-emption ends once the work in flight has completed: the context becomes READY with saved = 3,
or SUSPENDED when a PREEMPT asked for it (R244, R245). A step that is to end early ends at the next edge instead (R73). -/
def Dev.drainEnd (d : Dev) (b : Nat) : Dev :=
  match (d.bayU b).step with
  | some r =>
    if r.draining && r.early.isNone && d.unitsIdle b then
      let k := 8 * b + r.ctx
      let d := d.putBay b { d.bayU b with step := none }
      let d := d.putCtx k { d.ctxU k with pre := some { r with draining := false }, waitingSince := none }
      let d := d.sets [(SCH_BAY_RUN.draining b, 0), (SCH_BAY_RUN.step_running b, 0), (SCH_CTX_STATE.saved b r.ctx, 3)]
      let req := (d.ctxU k).susReq.filter fun e => decide (e.2 ≤ d.tick)
      let d := (d.set (SCH_CTX_STATE.state b r.ctx) 1).makeReady k
      if req.isEmpty then d else d.suspend k req
    else d
  | none => d

/-- The SUSPENDs of context c that are due are done, or the drain of its running step begins. -/
def Dev.suspendDue (d : Dev) (b c : Nat) : Dev :=
  let k := 8 * b + c
  let due := (d.ctxU k).susReq.filter fun e => decide (e.2 ≤ d.tick)
  if due.isEmpty then d
  else
    match (d.bayU b).step with
    | some r =>
      if r.ctx = c then
        if due.any (fun e => (e.1.num 1 1).testBit 1) && !r.preempted && !d.flag (SCH_BAY_PEND.joint_hold b) then d.beginDrain b else d
      else d.suspend k due
    | none => d.suspend k due

/-- Context c is READY and has waited urg_ticks longer than its ageing to the highest priority takes (R241). -/
def Dev.urgentWait (d : Dev) (b c : Nat) : Bool :=
  d.get (SCH_CTX_STATE.state b c) == 2 &&
    decide ((15 - d.get (SCH_CTX_CFG.base_prio b c)) * d.get (SCH_BAY_SCHCFG.ctx_age_ticks b) +
      d.get (SCH_BAY_SCHCFG.urg_ticks b) ≤ d.get (SCH_CTX_STATE.wait b c))

/-- The drain of the running step begins if a context has become urgent (R241). -/
def Dev.urgentDrain (d : Dev) (b : Nat) : Dev :=
  match d.liveStep b with
  | none => d
  | some r =>
    if d.get (SCH_BAY_SCHCFG.urg_ticks b) != 0 && (List.range 8).any (fun c => c != r.ctx && d.urgentWait b c) &&
      decide (d.get (SCH_CTX_CFG.base_prio b r.ctx) < 15) && !d.flag (SCH_BAY_PEND.joint_hold b) then d.beginDrain b else d

/-- The pre-emption points of a bay at action 5: PREEMPTs of the edge set, then R241 (R244, R245). -/
def Dev.preemptPoints (d : Dev) (b : Nat) : Dev :=
  ((List.range 8).foldl (fun d c => d.suspendDue b c) d).urgentDrain b

/-! ### The choice of R238 and switching (R247 to R249) -/

/-- Whether context c of bay b comes before context e: effective priority, residency, wait, number (R238). -/
def Dev.ctxBefore (d : Dev) (b c e : Nat) : Bool :=
  let p := d.effPrio b c
  let q := d.effPrio b e
  let rc := d.resident b == some c
  let re := d.resident b == some e
  let wc := d.get (SCH_CTX_STATE.wait b c)
  let we := d.get (SCH_CTX_STATE.wait b e)
  if p ≠ q then decide (q < p) else if rc != re then rc else if wc ≠ we then decide (we < wc) else decide (c < e)

/-- The READY context that SCH chooses, among those a test admits. -/
def Dev.chooseCtx (d : Dev) (b : Nat) (ok : Nat → Bool) : Option Nat :=
  ((List.range 8).filter fun c => d.get (SCH_CTX_STATE.state b c) == 2 && ok c).foldl
    (fun o c => match o with
      | none => some c
      | some e => if d.ctxBefore b c e then some c else some e) none

/-- A switch starts: the resident context is saved if it is enabled, then the chosen one restored (R243, R247). -/
def Dev.startSwitch (d : Dev) (b c : Nat) : Dev :=
  let out := (d.resident b).filter fun k => d.flag (SCH_CTX_CFG.en b k)
  let d := match out with
    | some o => if (d.ctxU (8 * b + o)).pre.isSome then d else d.incSat (SCH_CTX_COUNT.preempts b o) 1
    | none => d
  (d.putBay b { d.bayU b with switch := some { inn := c, out := out, doneEdge := none } }).sets
    [(SCH_CTX_STATE.state b c, 3), (SCH_BAY_RUN.switching b, 1)]

/-- The tile-memory offsets of the context area. -/
def Dev.areaRange (d : Dev) (b : Nat) : Nat × Nat :=
  (d.get (SCH_BAY_CTXAREA.area_offset b), 0x200000 * d.get (SCH_BAY_CTXAREA.area_ext b))

/-- The bytes of the context area that are listed in memory, by offset. -/
def Dev.readArea (d : Dev) (b : Nat) : Tab Byte :=
  let r := d.areaRange b
  (List.range r.2).filterMap fun i =>
    let v := d.bayByte b (r.1 + i)
    if v = 0 then none else some (r.1 + i, v)

/-- The context area overwritten by a saved one. -/
def Dev.writeArea (d : Dev) (b : Nat) (t : Tab Byte) : Dev :=
  let r := d.areaRange b
  (List.range r.2).foldl (fun d i => d.putBayByte b (r.1 + i) (Tab.get memDefault t (r.1 + i))) d

/-- The register fields of a step that travel with its context: the gate and the flags, the DMA engines' places, the arrays'
states (R212, R219, R247). -/
def Dev.stepFields (d : Dev) (b : Nat) : List RF :=
  [SCH_BAY_TRAIN.gate b, SCH_BAY_TRAIN.running_flag b, SCH_BAY_TRAIN.gate_done b, SCH_BAY_VFLAG.flags b,
    SCH_BAY_VFLAG.nonfinite b, SCH_BAY_VFLAG.nf_writes b] ++
  ((d.bayDmas b).flatMap fun e =>
    [AG_DMA_STATUS.state (e / 4) (e % 4), AG_DMA_STATUS.entry (e / 4) (e % 4), AG_DMA_STATUS.error (e / 4) (e % 4)]) ++
  (d.bayArrays b).map fun a => AG_ARR_STATUS.state (a / 6) (a % 6)

/-- The pegs of the bay's AGs that are not zero. -/
def Dev.savedPegs (d : Dev) (b : Nat) : Tab Reg64 :=
  d.regs.filter fun e => (d.bayAgs b).any fun n => decide (AG_PEG.off n 0 ≤ e.1) && decide (e.1 < AG_PEG.off n 0 + 0x8000)

/-- What a save keeps (R247); `stamp` numbers the bytes that it leaves in the save region. -/
def Dev.saveState (d : Dev) (b : Nat) (mid full : Bool) (stamp : Nat) : SavedState where
  mid := mid
  pegs := d.savedPegs b
  dmaReps := (d.bayDmas b).map fun e => (e, (d.dmaU e).rep)
  arrays := if mid then (d.bayArrays b).map fun a => (a, d.arrU a) else []
  slices := if mid then (d.bayArrays b).map fun a => (a, d.vecU a) else []
  dma := if mid then (d.bayDmas b).map fun e => (e, d.dmaU e) else []
  fields := if mid then (d.stepFields b).map fun f => (f.off, f.lo, f.w, d.get f) else []
  area := if mid || full then d.readArea b else []
  stamp := stamp

/-- The size of a save (R247). -/
def Dev.saveSize (d : Dev) (b : Nat) (mid full : Bool) : Nat :=
  if mid then d.midStepSize b
  else (if full then 0x200000 * d.get (SCH_BAY_CTXAREA.area_ext b) else 0) + 0x4000 * (d.bayAgs b).length

/-- The bytes of a save region of n bytes, whose layout is not defined (R247). -/
def saveBytes (stamp n : Nat) : List Byte := (List.range n).map fun i => Config.freeByte stamp i

/-- A save region holds what the device left there (R247). -/
def Dev.saveIntact (d : Dev) (b va : Nat) (sv : SavedState) (full : Bool) : Bool :=
  let n := d.saveSize b sv.mid full
  d.bayBytes b va n == saveBytes sv.stamp n

/-- The save of a switch ends (R247, R249): a line found uncorrectable is saved as zeros and marks the context damaged. In a bay
that is being struck the switch ends with it, and nothing saved stays (R246). -/
def Dev.saveDone (d : Dev) (b us : Nat) (lost : Option Nat) : Dev :=
  match (d.bayU b).switch with
  | none => d
  | some sw =>
    match sw.out with
    | none => d
    | some o =>
      let k := 8 * b + o
      let d := match lost.bind (d.tileLoc b ·) with
        | some a =>
          let l := a - 0x8000000000
          (d.tmLost (l / 0xC000000) (l % 0xC000000 / 64)).set (SCH_CTX_STATE.damaged b o) 1
        | none => d
      let d := d.set (SCH_CTX_WAIT.last_save_us b o) (min us 0xFFFF)
      if d.bayState b == bayStriking then
        (d.putBay b { d.bayU b with switch := none }).sets [(SCH_CTX_STATE.damaged b o, 0), (SCH_BAY_RUN.switching b, 0)]
      else
        let mid := (d.ctxU k).pre.isSome
        let full := !d.flag (SCH_CTX_CFG.mode b o)
        let f := d.fresh
        let sv := d.saveState b mid full f.1
        let d := f.2.putBayBytes b (d.get (SCH_CTX_SAVE.save_base b o)) (saveBytes f.1 (d.saveSize b mid full))
        let u := d.ctxU k
        let d := d.putCtx k { u with saved := some sv, pre := u.pre.map fun r => { r with saveUs := r.saveUs + us } }
        let d := d.set (SCH_CTX_STATE.saved b o) (if mid then 2 else 1)
        d.putBay b { d.bayU b with switch := some { sw with out := none } }

/-- CONTEXT_SAVE_DONE: R247, R249. -/
def execContextSaveDone (bay : BayId) (us : Nat) (lost : Option (BitVec 32)) (s : State) : Host.Outcome State Fault Refusal :=
  onDev s fun d => d.saveDone bay.val us (lost.map (·.toNat))

/-- The pegs of a saved state put back into the bay's AGs. -/
def Dev.loadPegs (d : Dev) (b : Nat) (t : Tab Reg64) : Dev :=
  let d := (d.savedPegs b).foldl (fun d e => d.wr e.1 0) d
  (d.bayAgs b).foldl (fun d n =>
    (t.filter fun e => decide (AG_PEG.off n 0 ≤ e.1) && decide (e.1 < AG_PEG.off n 0 + 0x8000)).foldl
      (fun d e => d.set (AG_PEG.value n ((e.1 - AG_PEG.off n 0) / 8)) e.2.toNat) d) d

/-- What a restore puts back, in the bay's own units alone; both tile keys of every array are cleared (R247). What the units
keep apart from a context stays: the loaded programs, the repair state, the cycles that belong to the array itself. -/
def Dev.loadState (d : Dev) (b : Nat) (sv : SavedState) (full : Bool) : Dev :=
  let d := d.loadPegs b sv.pegs
  let d := (d.bayDmas b).foldl (fun d e =>
    let d := match sv.dmaReps.lookup e with
      | some r => d.putDma e { d.dmaU e with rep := r }
      | none => d
    match sv.dma.lookup e with
    | some u => d.putDma e { u with inflight := [] }
    | none => d) d
  let d := (d.bayArrays b).foldl (fun d a =>
    let d := match sv.arrays.lookup a with
      | some u => d.putArr a { d.arrU a with disp := u.disp, acc := u.acc, accChk := u.accChk, chain := u.chain,
                                             staged := u.staged, draws := u.draws }
      | none => d
    let d := match sv.slices.lookup a with
      | some u => d.putVec a { u with prog := (d.vecU a).prog, copying := (d.vecU a).copying }
      | none => d
    d.putArr a { d.arrU a with active := none, shadowT := none }) d
  let d := (d.stepFields b).foldl (fun d f =>
    match sv.fields.find? (fun e => e.1 == f.off && e.2.1 == f.lo) with
    | some e => d.set f e.2.2.2
    | none => d) d
  if sv.mid || full then d.writeArea b sv.area else d

/-- The state that a restore reads from a save region: what was saved, or undefined state where anything else has altered the
region (R247). -/
def Dev.savedOf (d : Dev) (b c : Nat) (sv : SavedState) : SavedState × Dev :=
  if d.saveIntact b (d.get (SCH_CTX_SAVE.save_base b c)) sv (!d.flag (SCH_CTX_CFG.mode b c)) then (sv, d)
  else
    let f := d.fresh
    ({ Config.freeContext f.1 with mid := sv.mid }, f.2)

/-- The restore of a switch ends: the chosen context is resident, and its step starts or resumes at action 7 of the first
edge whose set closes after this (R238, R247). A context that a PREEMPT has suspended meanwhile stays so (R245). In a bay that is
being struck the switch ends with the copy (R246). -/
def Dev.restoreDone (d : Dev) (b us : Nat) : Dev :=
  match (d.bayU b).switch with
  | none => d
  | some sw =>
    if sw.out.isSome || sw.doneEdge.isSome then d
    else
      let k := 8 * b + sw.inn
      let d := d.set (SCH_BAY_RUN.switching b) 0
      if d.bayState b == bayStriking then
        (d.putBay b { d.bayU b with switch := none }).set (SCH_CTX_WAIT.last_restore_us b sw.inn) (min us 0xFFFF)
      else
        let u := d.ctxU k
        let d := match u.saved with
          | some sv =>
            let r := d.savedOf b sw.inn sv
            (r.2.loadState b r.1 (!d.flag (SCH_CTX_CFG.mode b sw.inn))).set (SCH_CTX_WAIT.last_restore_us b sw.inn) (min us 0xFFFF)
          | none => d
        let d := d.putCtx k { u with saved := none
                                     pre := u.pre.map fun r => { r with restoreUs := r.restoreUs + us, restored := true } }
        let d := d.sets [(SCH_BAY_RUN.resident b, sw.inn), (SCH_BAY_RUN.resident_valid b, 1),
          (SCH_CTX_STATE.saved b sw.inn, if u.pre.isSome then 3 else 0)]
        let d := if d.get (SCH_CTX_STATE.state b sw.inn) == 3 then d.set (SCH_CTX_STATE.state b sw.inn) 2 else d
        d.putBay b { d.bayU b with switch := some { sw with doneEdge := some d.openEdge } }

/-- CONTEXT_RESTORE_DONE: R247. -/
def execContextRestoreDone (bay : BayId) (us : Nat) (s : State) : Host.Outcome State Fault Refusal :=
  onDev s fun d => d.restoreDone bay.val us

/-! ### The update gate (R219 to R222) -/

/-- An update-class item has reached the gate: a class-3 head whose pegs are satisfied, or a cls-3 store next to issue. -/
def Dev.gateReached (d : Dev) (b : Nat) : Bool :=
  (d.bayArrays b).any (fun a =>
    (d.heads b a).any fun h =>
      let q := d.descAt b a h.2.1
      h.1 == 3 && d.descReady b a { q with cls := 0 } h.2.2.1) ||
  (d.bayArrays b).any fun x =>
    match d.vecNext x with
    | some (_, w) => w.cls == 3 && [0x41, 0x43, 0x44, 0x46, 0x47].contains w.op && d.storeGate b w == .wait
    | none => false

/-- The gate decides (R220), but not while a snapshot is still being read (R356): on the local flag with gate_colls = 0, else on the returned flags once enough gating collectives
have completed; until then it shows WAITING. -/
def Dev.gateDecision (d : Dev) (b : Nat) : Dev :=
  match d.liveStep b with
  | none => d
  | some r =>
    if 2 ≤ d.get (SCH_BAY_TRAIN.gate b) || !d.gateReached b then d
    else
      let n := d.get (SCH_BAY_GATECFG.gate_colls b)
      let skip := if n = 0 then d.flag (SCH_BAY_VFLAG.nonfinite b) else r.returned
      let read := match (d.fltBay b).snap with | some u => u.reading | none => false
      if n ≤ d.get (SCH_BAY_TRAIN.gate_done b) && !read then d.set (SCH_BAY_TRAIN.gate b) (if skip then 3 else 2)
      else d.set (SCH_BAY_TRAIN.gate b) 1

/-- GATE_DECISION: R220. -/
def execGateDecision (bay : BayId) (s : State) : Host.Outcome State Fault Refusal :=
  onDev s fun d => d.gateDecision bay.val

end Sys2Proof.Machine
end

