-- ==== Sys2Proof/Machine/Fab.lean ====
section
/-! DEFINITION. Fabric packets: layout, credits and the retry buffer of a port, arbitration, route lookup, streams and their
acknowledgement (spec/12_fabric_links.md, R284 to R299; spec/13_fabric_addressing_and_routing.md, R312 to R317). -/

namespace Sys2Proof.Machine

/-! ### Ports and packets -/

/-- States of a port (R302). -/
def psDisabled : Nat := 0
def psDetect : Nat := 1
def psTrain : Nat := 2
def psAlign : Nat := 3
def psLinkInit : Nat := 4
def psHandshake : Nat := 5
def psActive : Nat := 6
def psRetrain : Nat := 7
def psWithdrawn : Nat := 8
def psQuarantine : Nat := 9
def psFailed : Nat := 10

def Dev.portState (d : Dev) (p : Nat) : Nat := d.get (FABP_STATUS.state p)

/-- The port runs in DIRECT mode; in ETHERNET mode (R276). -/
def Dev.isDirect (d : Dev) (p : Nat) : Bool := d.get (FABP_CFG.mode p) == 1
def Dev.isEthernet (d : Dev) (p : Nat) : Bool := d.get (FABP_CFG.mode p) == 2

/-- The device's own ID, provisional or assigned (R306). -/
def Dev.myId (d : Dev) : Nat := d.get FAB_ID.device_id

/-- Ops of a packet (R285). -/
def opWrite : Nat := 0
def opReadReq : Nat := 1
def opReadResp : Nat := 2
def opAck : Nat := 3
def opNack : Nat := 4
def opColl : Nat := 5
def opControl : Nat := 6

/-- n bytes of the header from byte lo (24 to 59), little-endian. -/
def pktNum (p : Packet) (lo n : Nat) : Nat := (p.spec.toNat >>> (8 * (lo - 24))) % 2 ^ (8 * n)

/-- The bytes 24 to 59 that hold the given (first byte, length, value) fields, all else zero. -/
def packSpec (l : List (Nat × Nat × Nat)) : BitVec 288 :=
  BitVec.ofNat 288 (l.foldl (fun a f => a + (f.2.2 % 2 ^ (8 * f.2.1)) * 2 ^ (8 * (f.1 - 24))) 0)

/-- The type of a control packet (R309). -/
def ctlType (p : Packet) : Nat := pktNum p 24 1

/-- A packet of this device: its own ID as the source, no hop taken. -/
def Dev.mkPacket (d : Dev) (dst tc op tag addr : Nat) (spec : BitVec 288) (payload : List Byte) (det : Bool := false) :
    Packet where
  dst := BitVec.ofNat 15 dst
  src := BitVec.ofNat 15 d.myId
  multicast := false
  broadcast := false
  det := det
  flagsRsv := 0
  tc := BitVec.ofNat 3 tc
  op := BitVec.ofNat 8 op
  status := 0
  tag := BitVec.ofNat 12 tag
  len := BitVec.ofNat 16 payload.length
  seq := 0
  addr := BitVec.ofNat 48 addr
  hops := 0
  spec := spec
  payload := payload

/-- A control packet of the given type and fields on TC7. -/
def Dev.mkControl (d : Dev) (dst type : Nat) (fields : List (Nat × Nat × Nat)) (payload : List Byte := []) : Packet :=
  d.mkPacket dst 7 opControl 0 0 (packSpec ((24, 1, type) :: fields)) payload

/-- Flits of a packet (R285). -/
def flitsOf (p : Packet) : Nat := if p.payload.isEmpty then 1 else 1 + (p.payload.length + 59) / 60

/-- A source in the manager list (R305). -/
def Dev.isManager (d : Dev) (src : Nat) : Bool :=
  (d.flag FAB_MGR.mgr0_valid && d.get FAB_MGR.mgr0 == src) || (d.flag FAB_MGR.mgr1_valid && d.get FAB_MGR.mgr1 == src)

/-- A fenced device sends nothing but heartbeats, handshakes, discovery and management traffic, its own to a manager (R363). -/
def Dev.maySend (d : Dev) (p : Packet) : Bool :=
  !d.flag FLT_STATUS.fenced || (p.op.toNat == opControl && [4, 5, 6, 7].contains (ctlType p)) ||
    (p.tag.toNat == 0 && p.src.toNat == d.myId && d.isManager p.dst.toNat)

/-! ### Credits and the retry buffer (R286, R287) -/

/-- Reserved credits that this end gives per class, and the shared pool (R286). -/
def Dev.ownCredits (d : Dev) (p : Nat) : List Nat :=
  let r := (List.range 8).map fun t => d.get (FABP_CRED.rsv_tc p) / 2 ^ (8 * t) % 256
  r ++ [2048 - r.foldl (· + ·) 0]

/-- One sequenced flit of a class takes a credit, reserved first, and a place in the retry buffer; none where it must wait. -/
def PortU.sendFlit (u : PortU) (tc : Nat) : Option PortU :=
  let i := if u.used.getD tc 0 < u.peerRsv.getD tc 0 then tc else 8
  if u.used.getD i 0 < u.peerRsv.getD i 0 && decide (u.retry.length < 2048) then
    some { u with used := u.used.modify i (· + 1), txSeq := (u.txSeq + 1) % 4096,
                  retry := u.retry ++ [{ seq := u.txSeq, tc := tc, shared := i == 8, resent := 0 }] }
  else none

/-- n sequenced flits of a class. -/
def PortU.sendFlits (tc : Nat) : Nat → PortU → Option PortU
  | 0, u => some u
  | n + 1, u => match u.sendFlit tc with
    | some v => PortU.sendFlits tc n v
    | none => none

/-- The priority that carries a class on an ETHERNET port (R296). -/
def Dev.pcpOf (d : Dev) (p tc : Nat) : Nat := d.get (FABP_ETH0.pcp_map p) / 2 ^ (3 * tc) % 8

/-- Flits counted in the windows of 64 (R290): those TC6 sends with priority count against its limit, and what they pass it by
counts in the windows that follow. -/
def PortU.countFlits (u : PortU) (tc cap n : Nat) : PortU :=
  let win := u.winFlits + n
  let six := if tc = 6 ∧ u.winTc6 < cap then u.winTc6 + n else u.winTc6
  { u with winFlits := win % 64, winTc6 := six - cap * (win / 64) }

/-- The bay whose share a packet counts against, 8 for device traffic (R291). -/
def Dev.bayOfPacket (d : Dev) (p : Packet) : Nat :=
  if p.tag.toNat = 0 then 8
  else ((List.range 8).find? fun b => d.bayState b != bayEmpty && d.get (SCH_BAY_STATE.fab_tag b) == p.tag.toNat).getD 8

/-- Largest payload per frame of an ETHERNET port (R296). -/
def Dev.maxPayload (d : Dev) (p : Nat) : Nat := 1024 * 2 ^ d.get (FABP_ETH0.max_payload p)

/-- The packet of a SYNC_REQ carries the global time of its departure, which the measurement keeps (R300, R321). -/
def Dev.departs (d : Dev) (p : Nat) (pkt : Packet) : Dev × Packet :=
  if pkt.op.toNat == opControl && ctlType pkt == 2 then
    ({ d with fab := { d.fab with sync := { d.fab.sync with req := some (p, d.gtime) } } },
      { pkt with spec := packSpec [(24, 1, 2), (28, 8, d.gtime)] })
  else (d, pkt)

/-- The MACsec part of the next frame of a port: none of a port with sec_en = 0. No frame goes out without a key in the
association in use, nor under GCM-AES-256 once its 32-bit packet numbers are used up (R298). -/
def Dev.protect (d : Dev) (p : Nat) : Option (Option SecTag × Dev) :=
  if !d.flag (FABP_SEC.sec_en p) then some (none, d)
  else
    let a := d.get (FABP_SEC.tx_an p)
    let pn := (d.port p).txPn.getD a 1
    if (Tab.get (fun _ => none) d.sec.macsec (6 * p + a)).isNone || (!d.flag (FABP_SEC.cipher p) && decide (2 ^ 32 ≤ pn)) then none
    else some (some { an := BitVec.ofNat 2 a, pn := BitVec.ofNat 64 pn, authentic := true },
      (d.updPort p fun u => { u with txPn := u.txPn.modify a (· + 1) }).incWrap (FABP_SECCNT.protected p) 1)

/-- The frame of a packet (R296). -/
def Dev.frameHdr (d : Dev) (p mac tc : Nat) (sec : Option SecTag) : FrameHdr where
  dst := BitVec.ofNat 48 mac
  src := BitVec.ofNat 48 (d.get (FABP_ETH1.src_mac p))
  vid := BitVec.ofNat 12 (d.get (FABP_ETH0.vid p))
  pcp := BitVec.ofNat 3 (d.pcpOf p tc)
  etype := BitVec.ofNat 16 (d.get (FABP_ETH0.ethertype p))
  sec := sec

/-- A priority of an ETHERNET port that PFC pauses (R297). -/
def Dev.pausedPrio (d : Dev) (p tc : Nat) : Bool :=
  (d.port p).paused.testBit (d.pcpOf p tc) && (d.get (FABP_ETH0.pfc_en p)).testBit (d.pcpOf p tc)

/-- The port takes a packet now: its priority is not paused; its flits have credits and room in the retry buffer (R286, R297). -/
def Dev.canSend (d : Dev) (p : Nat) (q : QPkt) : Bool :=
  if d.isEthernet p then !d.pausedPrio p q.pkt.tc.toNat
  else (PortU.sendFlits q.pkt.tc.toNat (flitsOf q.pkt) (d.port p)).isSome

/-- A packet goes out on a port: on a DIRECT port its flits take credits and enter the retry buffer; on an ETHERNET port it is
one frame, which waits while its priority is paused (R286, R296, R297, R298). None where it must wait. A payload that no frame
of the port can hold, and a packet that cannot be protected, are lost. -/
def Dev.transmit (d : Dev) (p : Nat) (q : QPkt) : Option Dev :=
  let tc := q.pkt.tc.toNat
  let n := flitsOf q.pkt
  let cap := d.get (FABP_TCW.tc6_cap p)
  if d.isEthernet p then
    if d.pausedPrio p tc then none
    else if d.maxPayload p < q.pkt.payload.length then some d
    else match d.protect p with
      | none => some d
      | some (sec, d) =>
        some ((d.updPort p fun u => u.countFlits tc cap n).emit
          (.ethFrame p (d.frameHdr p q.mac tc sec) (65536 * d.get (FABP_ETH1.src_mac p) + 1) q.pkt))
  else
    match PortU.sendFlits tc n (d.port p) with
    | some v =>
      let v := if (d.port p).retry.isEmpty then { v with progressNs := d.clk.timeNs } else v
      let (d, pkt) := (d.putPort p (v.countFlits tc cap n)).departs p q.pkt
      some (d.emit (.packet p pkt))
    | none => none

/-! ### Arbitration (R290, R291) -/

/-- Deficit-weighted round robin over m turns (R290, R291): from the one whose turn it is, the first whose deficit covers its
packet; each gains its weight when its turn comes. -/
def drr (m : Nat) (w : List Nat) (need : Nat → Option Nat) : Nat → Nat → List Nat → Option (Nat × Nat × List Nat)
  | 0, _, _ => none
  | fuel + 1, c, df =>
    match need c with
    | some n =>
      if n ≤ df.getD c 0 then some (c, c, df.modify c (· - n))
      else
        let e := (c + 1) % m
        drr m w need fuel e (df.modify e (· + w.getD e 0))
    | none =>
      let e := (c + 1) % m
      drr m w need fuel e ((df.set c 0).modify e (· + w.getD e 0))

/-- The packet of a class that is next, with the arbiter's record (R291): device traffic and passing packets, which are outside
the bays' weights, and then the bays in weighted round robin by their fab_share. -/
def Dev.nextOfClass (d : Dev) (u : PortU) (tc : Nat) : Option (QPkt × PortU) :=
  let l := u.queue.filter fun q => q.pkt.tc.toNat == tc
  match if tc = 7 then l.head? else l.find? fun q => q.buf.isSome || d.bayOfPacket q.pkt == 8 with
  | some q => some (q, u)
  | none =>
    if l.isEmpty then none
    else
      let head (b : Nat) : Option QPkt := l.find? fun q => d.bayOfPacket q.pkt == b
      let w := (List.range 8).map fun b => d.get (SCH_BAY_RES.fab_share b)
      match drr 8 w (fun b => (head b).map fun q => flitsOf q.pkt) 1024 u.bayTurn u.bayDeficit with
      | some (b, t, df) => (head b).map fun q => (q, { u with bayTurn := t, bayDeficit := df })
      | none => l.head?.map fun q => (q, u)

/-- The same where the port takes that packet now; a class waits behind its next packet, and no class behind another's. -/
def Dev.readyOfClass (d : Dev) (p tc : Nat) : Option (QPkt × PortU) := (d.nextOfClass (d.port p) tc).filter fun e => d.canSend p e.1

/-- The weights of TC0 to TC5, and of TC6 beyond its limit, which has that of TC5 (R290). -/
def Dev.weights (d : Dev) (p : Nat) : List Nat :=
  let w := (List.range 6).map fun t => d.get (FABP_TCW.w p) / 2 ^ (8 * t) % 256
  w ++ [w.getD 5 0]

/-- The packet a port serves next, with the arbiter's record (R290). -/
def Dev.arbitrate (d : Dev) (p : Nat) : Option (QPkt × PortU) :=
  let six := d.readyOfClass p 6
  match d.readyOfClass p 7 with
  | some e => some e
  | none =>
    if six.isSome && decide ((d.port p).winTc6 < d.get (FABP_TCW.tc6_cap p)) then six
    else
      let ready := (List.range 7).map fun c => if c = 6 then six else d.readyOfClass p c
      let head (c : Nat) : Option (QPkt × PortU) := (ready[c]?).join
      if ready.all Option.isNone then none
      else match drr 7 (d.weights p) (fun c => (head c).map fun e => flitsOf e.1.pkt) 1024 (d.port p).turn (d.port p).deficit with
        | some (c, t, df) => (head c).map fun e => (e.1, { e.2 with turn := t, deficit := df })
        | none => (List.range 7).findSome? head

/-- Queued packets go out in order of arbitration while the port takes them. -/
def Dev.sendQueued (d : Dev) (p : Nat) : Nat → Dev
  | 0 => d
  | n + 1 =>
    match d.arbitrate p with
    | none => d
    | some (q, u) =>
      match (d.putPort p { u with queue := u.queue.erase q }).transmit p q with
      | some e => e.sendQueued p n
      | none => d

/-! ### Receive buffers (R286, R297) -/

/-- Flits of one priority that a port's receive buffer holds. -/
def PortU.heldFlits (u : PortU) (q : Nat) : Nat :=
  u.buffer.foldl (fun n e => if e.prio == q then n + e.flits.foldl (· + ·) 0 else n) 0

/-- An ETHERNET port pauses a priority of pfc_en at 75 % of its receive buffer and releases it at 50 % (R297). -/
def Dev.pfcCheck (d : Dev) (p : Nat) : Dev :=
  if !d.isEthernet p then d
  else (List.range 8).foldl (fun d q =>
    let n := (d.port p).heldFlits q
    let on := (d.port p).pausing.testBit q
    if !on && (d.get (FABP_ETH0.pfc_en p)).testBit q && decide (2048 * 3 ≤ 4 * n) then
      (d.updPort p fun u => { u with pausing := u.pausing + 2 ^ q }).emit (.pfc p q true)
    else if on && decide (2 * n ≤ 2048) then (d.updPort p fun u => { u with pausing := u.pausing - 2 ^ q }).emit (.pfc p q false)
    else d) d

/-- A received packet still stands in its buffer: it waits to be performed, or to go out on a port. -/
def Dev.stillHeld (d : Dev) (id : Nat) : Bool :=
  d.fab.inbox.any (fun e => e.buf == some id) || (List.range 50).any fun p => (d.port p).queue.any fun q => q.buf == some id

/-- Packets that have left a port's receive buffer give their credits back, each of the kind it came from (R286). -/
def Dev.leaveBuffer (d : Dev) (p : Nat) : Dev :=
  let u := d.port p
  let gone := u.buffer.filter fun e => !d.stillHeld e.id
  if gone.isEmpty then d
  else
    let freed := gone.foldl (fun l e => (l.zip e.flits).map fun x => (x.1 + x.2) % 65536) u.freed
    (d.putPort p { u with buffer := u.buffer.filter fun e => d.stillHeld e.id
                          freed := freed
                          owed := true
                          unrepNs := if u.unrep = 0 ∧ !u.owed then d.clk.timeNs else u.unrepNs }).pfcCheck p

/-- The receive buffers of all ports after packets have been performed, sent or dropped. -/
def Dev.leaveBuffers (d : Dev) : Dev := (List.range 50).foldl (fun d p => d.leaveBuffer p) d

/-- What is queued for an ACTIVE port goes out while the port takes it. -/
def Dev.drainQueue (d : Dev) (p n : Nat) : Dev := if d.portState p != psActive then d else (d.sendQueued p n).leaveBuffers

/-- A packet for a port that is up: it goes out at once when nothing is queued before it and the port takes it, else it is
queued. A received packet that it passes on is named. -/
def Dev.toPort (d : Dev) (p mac : Nat) (pkt : Packet) (buf : Option Nat := none) : Dev :=
  if !d.maySend pkt then d
  else
    let q : QPkt := { pkt := pkt, mac := mac, buf := buf }
    let wait := d.updPort p fun u => { u with queue := u.queue ++ [q] }
    let up := d.portState p == psActive || d.portState p == psQuarantine
    if up && (d.port p).queue.isEmpty then (d.transmit p q).getD wait
    else if d.portState p == psActive then wait.sendQueued p (wait.port p).queue.length
    else wait

/-! ### Route lookup (R312 to R317) -/

/-- A port that routing may choose: ACTIVE, and on a DIRECT port its peer not declared dead (R313). -/
def Dev.portLive (d : Dev) (p : Nat) : Bool := d.portState p == psActive && (d.isEthernet p || !d.flag (FABP_STATUS.dead p))

/-- A port with face 7 carries no routed traffic (R277). -/
def Dev.routes (d : Dev) (p : Nat) : Bool := d.get (FABP_CFG.face p) != 7

/-- The live DIRECT ports of a face, ascending. -/
def Dev.faceLive (d : Dev) (f : Nat) : List Nat :=
  (List.range 50).filter fun p => d.get (FABP_CFG.face p) == f && d.isDirect p && d.portLive p

/-- A next hop is live (R313). -/
def Dev.hopLive (d : Dev) (i : Nat) : Bool :=
  let t := d.get (FAB_NHA.target i)
  if d.flag (FAB_NHA.kind i) then
    d.portLive t && d.routes t && !(d.isEthernet t && (d.port t).deadPeers.contains (d.get (FAB_NHA.peer_id i)))
  else !(d.faceLive t).isEmpty

/-- Flits queued for a port. -/
def Dev.queuedFlits (d : Dev) (p : Nat) : Nat := (d.port p).queue.foldl (fun n q => n + flitsOf q.pkt) 0

/-- The ports behind a next hop. -/
def Dev.hopPorts (d : Dev) (i : Nat) : List Nat :=
  if d.flag (FAB_NHA.kind i) then [d.get (FAB_NHA.target i)] else d.faceLive (d.get (FAB_NHA.target i))

/-- The element of a list with the least measure; the first of equals. -/
def argMin (f : Nat → Nat) : List Nat → Option Nat
  | [] => none
  | x :: xs => some (xs.foldl (fun m y => if f y < f m then y else m) x)

/-- h of R314. -/
def routeHash (p : Packet) : Nat :=
  (p.src.toNat * 31 + p.dst.toNat * 7 + p.tc.toNat + (if p.op.toNat = opColl then p.seq.toNat % 8 else 0)) % 65536

/-- The port within a next hop (R314). -/
def Dev.portOfHop (d : Dev) (pkt : Packet) (det : Bool) (i : Nat) : Option (Nat × Nat) :=
  let ps := d.hopPorts i
  (if det then ps[routeHash pkt % ps.length]? else argMin d.queuedFlits ps).map fun p => (p, d.get (FAB_NHB.dst_mac i))

/-- The route of an entry given as its valid bit, primaries, det and alternates (R314); of equals the next hop of lower index is
taken. -/
def Dev.chooseHop (d : Dev) (pkt : Packet) (prims alts : List Nat) (det : Nat) : Option (Nat × Nat) :=
  let lp := prims.filter d.hopLive
  let la := alts.filter d.hopLive
  let usable := if lp.isEmpty then la else lp
  if pkt.det then
    let first := match prims[det]? with
      | some i => if d.hopLive i then some i else usable.head?
      | none => usable.head?
    first.bind (d.portOfHop pkt true)
  else
    (argMin (fun i => 256 * (d.hopPorts i).foldl (fun n p => n + d.queuedFlits p) 0 + i) usable).bind (d.portOfHop pkt false)

/-- The port and MAC a unicast packet takes; none drops it as no_route (R312). -/
def Dev.routeOf (d : Dev) (pkt : Packet) : Option (Nat × Nat) :=
  let dst := pkt.dst.toNat
  let pick (v np det prim na alt : Nat) : Option (Nat × Nat) :=
    if v = 0 then none
    else d.chooseHop pkt ((List.range (np + 1)).map fun j => prim / 2 ^ (8 * j) % 256)
      ((List.range na).map fun j => alt / 2 ^ (8 * j) % 256) det
  if dst / 128 != d.myId / 128 then
    let g := dst / 128
    pick (d.get (FAB_GRT.valid g)) (d.get (FAB_GRT.n_prim g)) (d.get (FAB_GRT.det g)) (d.get (FAB_GRT.prim g))
      (d.get (FAB_GRT.n_alt g)) (d.get (FAB_GRT.alt g))
  else
    let m := dst % 128
    pick (d.get (FAB_MRT.valid m)) (d.get (FAB_MRT.n_prim m)) (d.get (FAB_MRT.det m)) (d.get (FAB_MRT.prim m))
      (d.get (FAB_MRT.n_alt m)) (d.get (FAB_MRT.alt m))

/-- A packet delivered to this device, to be performed. -/
def Dev.deliver (d : Dev) (p : Nat) (pkt : Packet) (buf : Option Nat := none) : Dev :=
  { d with fab := { d.fab with inbox := d.fab.inbox ++ [{ port := p, pkt := pkt, buf := buf }] } }

/-- Sent by route lookup, or delivered here where it names this device (R312). -/
def Dev.sendRouted (d : Dev) (pkt : Packet) (buf : Option Nat := none) : Dev :=
  if pkt.dst.toNat == d.myId && d.flag FAB_ID.id_valid then d.deliver 63 pkt buf
  else match d.routeOf pkt with
    | some (p, mac) => d.toPort p mac pkt buf
    | none => d.incSat FAB_ROUTE_STAT.no_route 1

/-- The hop count raised; none when it passes the limit (R312). -/
def Dev.hop (d : Dev) (pkt : Packet) : Option Packet :=
  if d.get FAB_ROUTE_CFG.max_hops < pkt.hops.toNat + 1 then none else some { pkt with hops := pkt.hops + 1 }

/-- A received packet goes on its way, or is dropped at the hop limit. -/
def Dev.forward (d : Dev) (send : Dev → Packet → Dev) (pkt : Packet) : Dev :=
  match d.hop pkt with
  | some q => send d q
  | none => d.incSat FAB_ROUTE_STAT.hop_drop 1

/-- One copy on a face, on the port of deterministic traffic. -/
def Dev.toFace (d : Dev) (f : Nat) (pkt : Packet) (buf : Option Nat := none) : Dev :=
  let ps := d.faceLive f
  match ps[routeHash pkt % ps.length]? with
  | some p => d.toPort p 0 pkt buf
  | none => d

/-- The MAC of a named peer behind an ETHERNET port: that of a next hop to it. -/
def Dev.macOf (d : Dev) (p peer : Nat) : Nat :=
  match (List.range 256).find? fun i => d.flag (FAB_NHA.valid i) && d.flag (FAB_NHA.kind i) &&
      d.get (FAB_NHA.target i) == p && d.get (FAB_NHA.peer_id i) == peer with
  | some i => d.get (FAB_NHB.dst_mac i)
  | none => 0

/-- A broadcast goes out once on every live face but that of its arrival, and to the named peers of ETHERNET ports (R317). -/
def Dev.flood (d : Dev) (arrival : Option Nat) (pkt : Packet) (buf : Option Nat := none) : Dev :=
  let skip := arrival.map fun p => d.get (FABP_CFG.face p)
  let d := (List.range 7).foldl (fun d f => if skip == some f then d else d.toFace f pkt buf) d
  (List.range 50).foldl (fun d p =>
    if d.isEthernet p && d.portState p == psActive && d.routes p && arrival != some p then
      (d.hbPeersOf p).foldl (fun d q => if (d.port p).deadPeers.contains q then d else d.toPort p (d.macOf p q) pkt buf) d
    else d) d

/-- A broadcast of this device: numbered, remembered so that its echo is dropped, and flooded (R317). -/
def Dev.broadcast (d : Dev) (scope : Nat) (pkt : Packet) : Dev :=
  let n := d.fab.bcastSeq
  let pkt := { pkt with dst := BitVec.ofNat 15 scope, broadcast := true, seq := BitVec.ofNat 32 n }
  let d := { d with fab := { d.fab with bcastSeq := (n + 1) % 2 ^ 32, seen := d.fab.seen ++ [(d.myId, n, d.clk.timeNs)] } }
  d.flood none pkt

/-- Copies of a multicast packet (R316): to faces and port next hops; the answer tells whether it is delivered here. -/
def Dev.multicastOut (d : Dev) (pkt : Packet) (buf : Option Nat := none) : Dev × Bool :=
  let m := pkt.dst.toNat % 256
  if !d.flag (FAB_MCT.valid m) || 256 ≤ pkt.dst.toNat then (d.incSat FAB_ROUTE_STAT.no_route 1, false)
  else
    let d := (List.range 7).foldl (fun d f => if d.bitOf (FAB_MCT.faces m) f then d.toFace f pkt buf else d) d
    let hop (d : Dev) (j i : Nat) : Dev :=
      if d.bitOf (FAB_MCT.nh_valid m) j && d.hopLive i then
        d.toPort (d.get (FAB_NHA.target i)) (d.get (FAB_NHB.dst_mac i)) pkt buf
      else d
    let d := hop (hop d 0 (d.get (FAB_MCT.nh0 m))) 1 (d.get (FAB_MCT.nh1 m))
    (d, d.flag (FAB_MCT.deliver m))

/-- Packets queued for a port that is no longer live, or for a peer behind it, are routed again (R315): a copy on a face takes
another port of it. Source-routed and link-local ones are lost. -/
def Dev.reroute (d : Dev) (p : Nat) (which : QPkt → Bool := fun _ => true) : Dev :=
  let q := (d.port p).queue.filter which
  let d := d.updPort p fun u => { u with queue := u.queue.filter fun e => !which e }
  (q.foldl (fun d e =>
    if e.pkt.op.toNat == opControl && decide (ctlType e.pkt < 0x10) then d
    else if e.pkt.broadcast || e.pkt.multicast then
      if d.isEthernet p then d else d.toFace (d.get (FABP_CFG.face p)) e.pkt e.buf
    else d.sendRouted e.pkt e.buf) d).leaveBuffers

/-! ### Streams and end-to-end acknowledgement (R293 to R295) -/

/-- The resend area in use, in 8 KiB units: one packet each (R294). -/
def Dev.showResend (d : Dev) : Dev := d.set FAB_E2E_STATUS.resend_used (min d.fab.sent.length 32768)

/-- A packet takes its place in the resend area and its number in its stream, and is sent. -/
def Dev.sendNow (d : Dev) (pkt : Packet) (o : Owner) : Dev :=
  let k := 8 * pkt.dst.toNat + pkt.tc.toNat
  let n := Tab.get (fun _ => 0) d.fab.nextSeq k
  let pkt := { pkt with seq := BitVec.ofNat 32 n }
  let e : SentPkt := { pkt := pkt, sentNs := d.clk.timeNs, tries := 0, owner := o, got := [] }
  let d := { d with fab := { d.fab with nextSeq := Tab.put (fun _ => 0) d.fab.nextSeq k ((n + 1) % 2 ^ 32)
                                        sent := d.fab.sent ++ [e] } }
  (d.showResend).sendRouted pkt

/-- A packet that is acknowledged end to end is sent, or waits while the resend area is full (R294). -/
def Dev.sendHeld (d : Dev) (pkt : Packet) (o : Owner) : Dev :=
  if d.fab.waiting.isEmpty && decide (d.fab.sent.length < 32768) then d.sendNow pkt o
  else { d with fab := { d.fab with waiting := d.fab.waiting ++ [(pkt, o)] } }

/-- Waiting packets are sent while the resend area has room. -/
def Dev.sendWaiting (d : Dev) : Nat → Dev
  | 0 => d
  | n + 1 =>
    match d.fab.waiting with
    | (pkt, o) :: rest =>
      if d.fab.sent.length < 32768 then (({ d with fab := { d.fab with waiting := rest } } : Dev).sendNow pkt o).sendWaiting n
      else d
    | [] => d

/-- Packets leave the resend area, and waiting ones take their room. -/
def Dev.releaseSent (d : Dev) (gone : SentPkt → Bool) : Dev :=
  let d := { d with fab := { d.fab with sent := d.fab.sent.filter fun e => !gone e } }
  (d.showResend.sendWaiting d.fab.waiting.length).showResend

/-- Packets of an owner that are sent or wait. -/
def Dev.owing (d : Dev) (p : Owner → Bool) : Bool := d.fab.sent.any (fun e => p e.owner) || d.fab.waiting.any fun e => p e.2

/-- The packets of an owner are forgotten: neither resent nor sent. -/
def Dev.forget (d : Dev) (p : Owner → Bool) : Dev :=
  ({ d with fab := { d.fab with waiting := d.fab.waiting.filter fun e => !p e.2 } } : Dev).releaseSent fun e => p e.owner

/-- The stream a received packet belongs to, as its destination sees it. -/
def Dev.rxStream (d : Dev) (pkt : Packet) : RxStream :=
  Tab.get (fun _ => RxStream.reset) d.fab.rx (8 * pkt.src.toNat + pkt.tc.toNat)

def Dev.putStream (d : Dev) (k : Nat) (s : RxStream) : Dev :=
  { d with fab := { d.fab with rx := Tab.put (fun _ => RxStream.reset) d.fab.rx k s } }

/-- Distance of a sequence from the next one expected, modulo 2^32. -/
def seqOff (s : RxStream) (q : Nat) : Nat := aheadOf (2 ^ 32) q s.next

/-- How a packet stands in the 256-packet window (R293). -/
inductive RxClass where
  | fresh | dup | outside
  deriving DecidableEq, Repr

def Dev.rxClass (d : Dev) (pkt : Packet) : RxClass :=
  let s := d.rxStream pkt
  let o := seqOff s pkt.seq.toNat
  if o < 256 then if s.beyond.contains pkt.seq.toNat then .dup else .fresh
  else if 2 ^ 31 ≤ o then .dup
  else .outside

/-- The in-order point moved over the packets received beyond it. -/
def advanceSeq : Nat → RxStream → RxStream
  | 0, s => s
  | n + 1, s =>
    if s.beyond.contains s.next then
      advanceSeq n { s with next := (s.next + 1) % 2 ^ 32, beyond := s.beyond.erase s.next }
    else s

/-- The 64-bit bitmap of the packets received beyond the in-order point: bit i is the packet after the next i expected ones. -/
def ackBitmap (s : RxStream) : Nat :=
  (List.range 64).foldl (fun m i => if s.beyond.contains ((s.next + i) % 2 ^ 32) then m + 2 ^ i else m) 0

/-- An E2E_ACK for a stream (R293): the highest sequence received in order and the bitmap. -/
def Dev.sendAck (d : Dev) (src tc : Nat) : Dev :=
  let k := 8 * src + tc
  let s := Tab.get (fun _ => RxStream.reset) d.fab.rx k
  let d := d.putStream k { s with due := 0 }
  d.sendRouted (d.mkPacket src tc opAck 0 0 (packSpec [(24, 4, aheadOf (2 ^ 32) s.next 1), (28, 8, ackBitmap s)]) [])

/-- A packet has been received: its stream moves on. -/
def Dev.rxMark (d : Dev) (pkt : Packet) : Dev :=
  let s := d.rxStream pkt
  d.putStream (8 * pkt.src.toNat + pkt.tc.toNat) (advanceSeq 257 { s with beyond := s.beyond ++ [pkt.seq.toNat] })

/-- An acknowledgement is due: sent with the sixteenth packet, otherwise coalesced (R293). -/
def Dev.ackDue (d : Dev) (pkt : Packet) : Dev :=
  let s := d.rxStream pkt
  let s := { s with due := s.due + 1, firstNs := if s.due = 0 then d.clk.timeNs else s.firstNs }
  let d := d.putStream (8 * pkt.src.toNat + pkt.tc.toNat) s
  if 16 ≤ s.due then d.sendAck pkt.src.toNat pkt.tc.toNat else d

/-- An E2E_NACK (R295): counted, and its packet counts as received. -/
def Dev.nack (d : Dev) (pkt : Packet) (status : Nat) : Dev :=
  let d := (d.rxMark pkt).incSat FAB_E2E_STATUS.refused 1
  let q := d.mkPacket pkt.src.toNat pkt.tc.toNat opNack pkt.tag.toNat 0 (packSpec [(24, 4, pkt.seq.toNat)]) []
  d.sendRouted { q with status := BitVec.ofNat 8 status }

/-- What a received packet that is acknowledged end to end goes through before it is performed: a duplicate is acknowledged
again, one beyond the window is dropped (R293). -/
def Dev.receive (d : Dev) (pkt : Packet) (perform : Dev → Dev) : Dev :=
  match d.rxClass pkt with
  | .fresh => perform d
  | .dup => (d.incSat FAB_E2E_STATUS.dup 1).ackDue pkt
  | .outside => d

/-- The bay that holds a tag, if it is RAISED or FROZEN (R292). -/
def Dev.bayOfTag (d : Dev) (tag : Nat) : Option Nat :=
  if tag = 0 then none
  else (List.range 8).find? fun b =>
    (d.bayState b == bayRaised || d.bayState b == bayFrozen) && d.get (SCH_BAY_STATE.fab_tag b) == tag

/-- The device is on the dead list (R360). -/
def Dev.isDead (d : Dev) (dev : Nat) : Bool := d.flt.dead.contains dev

/-- The oldest delivered packet of an op, and for control packets of a type, taken from the delivered ones. -/
def Dev.takePacket (d : Dev) (op : Nat) (type : Option Nat) : Option (Nat × Packet × Dev) :=
  match takeFirst (fun (e : InPkt) => e.pkt.op.toNat == op && (match type with | some t => ctlType e.pkt == t | none => true))
      d.fab.inbox with
  | some (e, rest) => some (e.port, e.pkt, ({ d with fab := { d.fab with inbox := rest } } : Dev).leaveBuffers)
  | none => none

/-- What a command that handles a delivered packet does. -/
def Dev.onPacket (d : Dev) (op : Nat) (type : Option Nat) (f : Dev → Nat → Packet → Dev) : Dev :=
  match d.takePacket op type with
  | some (p, pkt, d) => f d p pkt
  | none => d

/-- A payload cut into packets of at most n bytes: (offset, length) pairs. -/
def cutPieces (len n : Nat) : List (Nat × Nat) :=
  (List.range ((len + n - 1) / n)).map fun i => (i * n, min n (len - i * n))

end Sys2Proof.Machine
end

