-- ==== Sys2Proof/Machine/ColDesc.lean ====
section
/-! DEFINITION. Collective descriptors (spec/14_collectives_and_mapping.md, R327, R328, R330, R336). -/

namespace Sys2Proof.Machine

/-- A collective descriptor (R327). -/
structure ColDesc where
  op : Nat
  mean : Bool
  fmt : Nat
  defer : Bool
  gating : Bool
  scheduled : Bool
  sharded : Bool
  tc : Nat
  n : Nat
  own : Nat
  inPeg : Nat
  pegAg : Nat
  donePeg : Nat
  thr : Nat
  issue : Nat
  deadline : Nat
  capacity : Nat
  members : Nat
  counts : Nat
  src : Nat
  dst : Nat
  acc : Nat
  reserved : Nat             -- the reserved bits, all of which must be zero
  deriving DecidableEq, Repr

/-- A descriptor from its eight words. -/
def ColDesc.of (w : List Nat) : ColDesc :=
  let g (i : Nat) : Nat := w.getD i 0
  { op := bitsOf (g 0) 0 3, mean := (g 0).testBit 3, fmt := bitsOf (g 0) 4 5, defer := (g 0).testBit 9,
    gating := (g 0).testBit 10, scheduled := (g 0).testBit 11, sharded := (g 0).testBit 12, tc := bitsOf (g 0) 13 3,
    n := bitsOf (g 0) 16 12 + 1, own := bitsOf (g 0) 28 12, inPeg := bitsOf (g 0) 40 12, pegAg := bitsOf (g 0) 52 4,
    donePeg := bitsOf (g 1) 0 12, thr := bitsOf (g 1) 16 16, issue := bitsOf (g 1) 32 32,
    deadline := bitsOf (g 2) 0 32, capacity := bitsOf (g 2) 32 32,
    members := bitsOf (g 3) 0 48, counts := bitsOf (g 4) 0 48, src := bitsOf (g 5) 0 48, dst := bitsOf (g 6) 0 48,
    acc := bitsOf (g 7) 0 48,
    reserved := bitsOf (g 0) 56 8 + bitsOf (g 1) 12 4 + bitsOf (g 3) 48 16 + bitsOf (g 4) 48 16 + bitsOf (g 5) 48 16 +
      bitsOf (g 6) 48 16 + bitsOf (g 7) 48 16 }

/-- The ops (R327). -/
def coRs : Nat := 0
def coAg : Nat := 1
def coAr : Nat := 2
def coA2a : Nat := 3

/-- The owner reduces (R329). -/
def ColDesc.reduces (q : ColDesc) : Bool := q.op == coRs || q.op == coAr

/-- The format of the elements. -/
def ColDesc.format (q : ColDesc) : Fmt := (Fmt.ofCode q.fmt).getD .fp32

/-- Bytes of an element. -/
def ColDesc.eb (q : ColDesc) : Nat := q.format.width / 8

/-- Elements of a segment of 4,096 bytes (R328). -/
def ColDesc.segElems (q : ColDesc) : Nat := 4096 / max 1 q.eb

/-- The format of an accumulator, and its bytes (R336). -/
def ColDesc.accFmt (q : ColDesc) : Fmt := if q.format == .fp64 then .fp64 else .fp32
def ColDesc.accBytes (q : ColDesc) : Nat := if q.format == .fp64 then 8 else 4

/-- What a raise and an opening check on the descriptor itself (R330). -/
def ColDesc.valid (q : ColDesc) (hasAg : Nat → Bool) : Bool :=
  let f := Fmt.ofCode q.fmt
  decide (q.op ≤ 3) &&
  (if q.reduces then f == some .fp64 || f == some .fp32 || f == some .bf16
   else match f with
    | some .fp64 | some .fp32 | some .bf16 | some .fp16 | some .e4m3 | some .e5m2 | some .int32 | some .int16 | some .int8
    | some .e8m0 => true
    | _ => false) &&
  ((!q.mean && !q.defer) || q.reduces) && (!q.sharded || q.op == coAg) && decide (q.own < q.n) &&
  decide (1 ≤ q.deadline) && decide (q.issue < q.deadline) && (!q.scheduled || decide (1 ≤ q.issue)) &&
  hasAg q.pegAg && q.reserved == 0 &&
  [q.members, q.counts, q.src, q.dst, q.acc].all fun a => a % 64 == 0

/-- The words of descriptor t of a bay. -/
def Dev.colWords (d : Dev) (b t : Nat) : List Nat :=
  (List.range 8).map fun k => d.bayNat b (d.get (COL_BAY_TABLE.tbl_base b) + 64 * t + 8 * k) 8

/-- Every descriptor of the bay's table is valid (R330, phase 4 of a raise). -/
def Dev.colTableOk (d : Dev) (b : Nat) : Bool :=
  (List.range (d.get (COL_BAY_TABLE.tbl_len b))).all fun t =>
    (ColDesc.of (d.colWords b t)).valid fun g => d.bitOf (SCH_BAY_STATE.ag_mask b) g

end Sys2Proof.Machine
end

