-- ==== Sys2Proof/Machine/Hbm.lean ====
section
/-! DEFINITION. HBM: errors, patrol, temperature and refresh, row repair, the pages of struck bays and what is free
(spec/11_hbm_memory.md). -/

namespace Sys2Proof.Machine

/-- Bytes of a row on a channel: the 64 spare rows of R259 take 2 MiB. -/
def rowBytesHbm : Nat := 32768

/-- The number of the row that holds a local HBM address. -/
def hbmRow (a : Nat) : Nat := a / rowBytesHbm

/-- The channel of a local HBM address (R257). -/
def hbmChannel (a : Nat) : Nat := a / 2 ^ 31

/-- A row is to be repaired. -/
def Dev.rowIsDue (d : Dev) (row cause : Nat) : Dev :=
  if d.rowDue.any (fun p => p.1 == row) then d else { d with rowDue := d.rowDue ++ [(row, cause)] }

/-- A read of an HBM line finds an error (R265, R266): counted, recorded, and counted against the row; an uncorrectable one
gives zero bytes for the line and is lasting at once. -/
def Dev.hbmError (d : Dev) (a : Nat) (f : EccFinding) (patrol : Bool) : Dev :=
  let s := a / 2 ^ 36
  let line := a / 64 * 64
  let res := Resource.row (hbmChannel a) (a % 2 ^ 31 / rowBytesHbm)
  let d := d.sets [(MEM_LAST.addr, line), (MEM_LAST.patrol, patrol.toNat)]
  match f with
  | .corrected =>
    let d := ((d.incWrap (MEM_STACK_ERR.corrected s) 1).set MEM_LAST.uncorrectable 0).set MEM_EVENT.corrected 1
    let r := d.suspect res
    if r.1 then r.2.rowIsDue (hbmRow a) 0 else r.2
  | .uncorrectable =>
    let d := ((d.incSat (MEM_STACK_ERR.uncorrectable s) 1).set MEM_LAST.uncorrectable 1).set MEM_EVENT.uncorrectable 1
    (((d.zeroLocal line 64).freeSuspect res).incSat FLT_SUSPECT.lasting 1).rowIsDue (hbmRow a) 1

/-- MEM is ACTIVE. -/
def Dev.memActive (d : Dev) : Bool := d.get (PWR_DOM.state 19) == 0

/-- A read of an HBM line of a usable stack finds an error. The patrol reads while MEM is ACTIVE, and ends no step (R267); an
uncorrectable error that a bay's unit meets ends its bay's step with INTERNAL (R266). -/
def Dev.hbmPatrol (d : Dev) (a : Nat) (f : EccFinding) (by_ : HbmReader) : Dev :=
  if !d.bitOf GLB_STATUS.stack_usable (a / 2 ^ 36) then d
  else match by_ with
    | .patrol => if d.memActive then d.hbmError a f true else d
    | .unit b =>
      let d := d.hbmError a f false
      if f == .uncorrectable then d.endStepEarly b.val stInternal else d
    | .device => d.hbmError a f false

/-- HBM_PATROL: R265 to R267. The reader is the patrol, or whatever other reader meets the error (log entry 170). -/
def execHbmPatrol (addr : BitVec 39) (finding : HbmFinding) (s : State) : Host.Outcome State Fault Refusal :=
  onDev s fun d => d.hbmPatrol addr.toNat finding.ecc finding.reader

/-- The refresh code of a temperature (R268). -/
def refreshOf (t : Nat) : Nat := if t < 85 then 0 else if t < 95 then 1 else 2

/-- The stacks capped at 8/16 of their bandwidth after a reading: one that is hot is capped, and released below 100 °C (R394). -/
def hotCaps (old : Nat) (temps : List Nat) : Nat :=
  temps.zipIdx.foldl (fun m p => if decide (105 ≤ p.1) || (old.testBit p.2 && decide (100 ≤ p.1)) then m + 2 ^ p.2 else m) 0

/-- The temperatures read from the stacks (R268, R394): shown, the refresh rate set, the event when a stack reaches 105 °C, and
the caps of hot stacks. -/
def Dev.hbmTemps (d : Dev) (temps : List Nat) : Dev :=
  if decide (2 ≤ d.get (PWR_DOM.state 19)) then d
  else
    let d := temps.zipIdx.foldl (fun d p =>
      let hot := decide (105 ≤ p.1)
      let d := if hot && !d.flag (MEM_STACK_STATUS.hot p.2) then d.set MEM_EVENT.hot 1 else d
      d.sets [(MEM_STACK_STATUS.temp_c p.2, p.1), (MEM_STACK_STATUS.refresh p.2, refreshOf p.1),
        (MEM_STACK_STATUS.hot p.2, hot.toNat)]) d
    let d := { d with pwr := { d.pwr with hotCap := hotCaps d.pwr.hotCap temps } }
    d.set PWR_THERM.hbm_max (temps.foldl max 0)

/-- The bandwidth cap of a stack's channels in sixteenths: lever 2, and at most 8 while the stack is hot (R379, R394). -/
def Dev.stackCap (d : Dev) (s : Nat) : Nat :=
  if d.pwr.hotCap.testBit s then min 8 (d.get PWR_CAPPED.hbm_cap) else d.get PWR_CAPPED.hbm_cap

/-- HBM_TEMPERATURE_READ: R268. -/
def execHbmTemperatureRead (temps : Vector (BitVec 8) 8) (s : State) : Host.Outcome State Fault Refusal :=
  onDev s fun d => d.hbmTemps (temps.toList.map (·.toNat))

/-! ### What is free (R258, R260, R263) -/

/-- A channel may be given out: its stack is usable and it has not failed (R20, R270). -/
def Dev.chanUsable (d : Dev) (c : Nat) : Bool :=
  d.bitOf GLB_STATUS.stack_usable (c / 32) && !d.bitOf (MEM_STACK_STATUS.failed_chan (c / 32)) (c % 32)

/-- The sister region covers a byte of channel c at an offset range (R260, FLT_SISREG). -/
def Dev.sisterTouches (d : Dev) (c off len : Nat) : Bool :=
  let base := d.get FLT_SISREG.base
  let size := 2 ^ 30 * d.get FLT_SISREG.size_gib
  decide (0 < size) && decide (base < 2 ^ 31 * c + off + len) && decide (2 ^ 31 * c + off < base + size)

/-- The bays that hold a channel: exclusively, or with data on it (R260). -/
def Dev.chanBays (d : Dev) (c : Nat) : List Nat :=
  (List.range 8).filter fun b =>
    (d.bayU b).chans.contains c && !(d.flag (MEM_BAY_CFG.shared b) && (d.bayU b).chanLen == 0)

/-- A byte of a channel lies in a page of some bay. -/
def Dev.heldByte (d : Dev) (a : Nat) : Bool :=
  (d.chanBays (a / 2 ^ 31)).any fun b =>
    decide (d.get (MEM_BAY_CFG.chan_base b) ≤ a % 2 ^ 31) && decide (a % 2 ^ 31 < d.get (MEM_BAY_CFG.chan_base b) + (d.bayU b).chanLen)

/-- A channel is held exclusively by some bay. -/
def Dev.chanExclusive (d : Dev) (c : Nat) : Bool := (d.chanBays c).any fun b => !d.flag (MEM_BAY_CFG.shared b)

/-- An offset range of a channel is free: zeroed, held by no bay, outside the reserved and the sister region. -/
def Dev.chanFree (d : Dev) (c off len : Nat) : Bool :=
  decide (off + len ≤ (2048 - d.reservedMiB) * 2 ^ 20) && !d.sisterTouches c off len &&
  (d.chanBays c).all (fun b =>
    let u := d.bayU b
    let base := d.get (MEM_BAY_CFG.chan_base b)
    decide (base + u.chanLen ≤ off) || decide (off + len ≤ base)) &&
  d.dirty.all fun r =>
    let lo := 2 ^ 21 * r.1
    let hi := (r.1 + r.2) * 2 ^ 21
    decide (hi ≤ 2 ^ 31 * c + off) || decide (2 ^ 31 * c + off + len ≤ lo)

/-- SCH_RES_FREE: usable AGs of no bay, channels not held exclusively, and zeroed 2 MiB units that no bay holds (R263). -/
def Dev.showFree (d : Dev) : Dev :=
  let ags := ((List.range 16).filter fun g => d.bitOf GLB_STATUS.ag_usable g && (d.bayOfAg g).isNone).foldl
    (fun m g => m + 2 ^ g) 0
  let usable := (List.range 256).filter d.chanUsable
  let chans := (usable.filter fun c => !d.chanExclusive c).length
  let units := usable.foldl (fun n c =>
    n + ((List.range ((2048 - d.reservedMiB) / 2)).filter fun k => d.chanFree c (2 ^ 21 * k) (2 ^ 21)).length) 0
  d.sets [(SCH_RES_FREE.free_ags, ags), (SCH_RES_FREE.free_chan, chans), (SCH_RES_FREE.free_hbm_2m, units)]

/-! ### Row repair (R269, R270) and the pages of struck bays (R263) -/

/-- A row due for repair is repaired by sPPR, else by a remap entry, else its channel fails (R269, R270); while the journal is
full the repair waits (R430). -/
def Dev.hbmRowRepair (d : Dev) (a : Nat) : Dev :=
  let row := hbmRow a
  match d.rowDue.find? (fun p => p.1 == row) with
  | none => d
  | some (_, cause) =>
    if d.jnlFull then d
    else
      let ch := hbmChannel a
      let s := a / 2 ^ 36
      let bank := Config.hbmBank row
      let d := { d with rowDue := d.rowDue.filter fun p => p.1 != row }
      let first := row * rowBytesHbm
      if !d.sppr.contains (ch, bank) then
        let d := (({ d with sppr := d.sppr ++ [(ch, bank)] }).incSat (MEM_STACK_ERR.sppr_used s) 1).set MEM_EVENT.repaired 1
        (d.jnlEvent 0x50 0x0004 first (2 * cause)).fieldUpdate fun r => { r with rows := r.rows ++ [(row, 0)] }
      else
        let k := Tab.get (fun _ => 0) d.remaps ch
        if k < 64 then
          let d := { d with remaps := Tab.put (fun _ => 0) d.remaps ch (k + 1) }
          let d := (d.incSat (MEM_STACK_ERR.remap_used s) 1).set MEM_EVENT.repaired 1
          (d.jnlEvent 0x50 0x0004 first (1 + 2 * cause + 256 * k)).fieldUpdate fun r => { r with rows := r.rows ++ [(row, 1 + k)] }
        else if d.bitOf (MEM_STACK_STATUS.failed_chan s) (ch % 32) then d
        else
          let d := (d.setBit (MEM_STACK_STATUS.failed_chan s) (ch % 32)).set MEM_EVENT.channel_failed 1
          ((d.jnlEvent 0x50 0x0005 (2 ^ 31 * ch) 0).fieldUpdate fun r => { r with chans := r.chans ++ [ch] }).showFree

/-- HBM_ROW_REPAIR: R269. -/
def execHbmRowRepair (addr : BitVec 39) (s : State) : Host.Outcome State Fault Refusal :=
  onDev s fun d => d.hbmRowRepair addr.toNat

/-- A range of units without one of them. -/
def splitRange (r : Nat × Nat) (u : Nat) : List (Nat × Nat) :=
  if r.1 ≤ u && u < r.1 + r.2 then
    (if r.1 < u then [(r.1, u - r.1)] else []) ++ (if u + 1 < r.1 + r.2 then [(u + 1, r.1 + r.2 - (u + 1))] else [])
  else [r]

/-- A 2 MiB unit of a struck bay has been zeroed, but for bytes that another bay holds, and returns to the free pool (R263). -/
def Dev.pageZeroed (d : Dev) (u : Nat) : Dev :=
  if d.dirty.any (fun r => decide (r.1 ≤ u) && decide (u < r.1 + r.2)) then
    let loc := d.mem.loc.filter fun p => !(p.1 / 2 ^ 21 == u && !d.heldByte p.1)
    ({ d with mem := { d.mem with loc := loc }, dirty := d.dirty.flatMap fun r => splitRange r u } : Dev).showFree
  else d

/-- HBM_PAGE_ZEROED: R263. -/
def execHbmPageZeroed (unit : BitVec 18) (s : State) : Host.Outcome State Fault Refusal :=
  onDev s fun d => d.pageZeroed unit.toNat

/-- The fixed contents of the reserved region in order, by their sizes in 2 MiB units (R259): the SCH staging area, the journal
ring, the fabric resend area, the page tables, the management staging buffer, firmware working memory. -/
def reservedUnits : List Nat := [512, 160, 128, 32, 16, 64]

/-- Local address of byte o of the k-th of the fixed contents: 2 MiB units of the reserved parts of the usable channels in
ascending order, the last of each channel left for its spare rows (R259). -/
def Dev.contentAddr (d : Dev) (k o : Nat) : Nat :=
  let per := (d.reservedMiB - 2) / 2
  let u := (reservedUnits.take k).foldl (· + ·) 0 + o / 2 ^ 21
  d.boot.chans.getD (u / per) 0 * 2 ^ 31 + (2048 - d.reservedMiB) * 2 ^ 20 + u % per * 2 ^ 21 + o % 2 ^ 21

/-- Local address of a byte of the management staging buffer (R467). -/
def Dev.stagingAddr (d : Dev) (o : Nat) : Nat := d.contentAddr 4 o

/-- The pages of an encrypted bay whose keys are zeroised keep what the controllers hold (R272, R273). -/
def Dev.sealPages (d : Dev) (b : Nat) : Dev :=
  let u := d.bayU b
  match u.encKey with
  | none => d
  | some k =>
    u.chans.foldl (fun d c =>
      let base := 2 ^ 31 * c + d.get (MEM_BAY_CFG.chan_base b)
      (List.range (u.chanLen / 64)).foldl (fun d i =>
        let l := d.cipherLine k (base + 64 * i)
        d.putBytes (base + 64 * i) ((List.range 64).map fun j => l.getD j 0)) d) d

/-- The pages of a bay that has been struck wait to be zeroed (R263). -/
def Dev.releasePages (d : Dev) (b : Nat) : Dev :=
  let u := d.bayU b
  let base := d.get (MEM_BAY_CFG.chan_base b)
  if u.chanLen = 0 then d
  else
    let d := d.sealPages b
    { d with dirty := d.dirty ++ u.chans.map fun c =>
        let lo := (2 ^ 31 * c + base) / 2 ^ 21
        (lo, (2 ^ 31 * c + base + u.chanLen + (2 ^ 21 - 1)) / 2 ^ 21 - lo) }

end Sys2Proof.Machine
end

