-- ==== Sys2Proof/Machine/Release.lean ====
section
/-! DEFINITION. Striking a bent and releasing what a bay holds (spec/08_bents_bays_and_joints.md, R189 to R191, R200). -/

namespace Sys2Proof.Machine

/-- Offset of the bay-b instance of a per-bay register, from that of bay 0, for the registers R180 and the chapters permit as
kind-1 entries of REG_JOINTS; none for any other register. -/
def kind1Off (off b : Nat) : Option Nat :=
  if off == TCK_BAY_SLIP.off 0 then some (TCK_BAY_SLIP.off b)
  else if off == SCH_BAY_SEED.off 0 then some (SCH_BAY_SEED.off b)
  else if [SCH_BAY_CFG.off 0, SCH_BAY_SCHED.off 0, SCH_BAY_DISP.off 0, SCH_BAY_LSCFG.off 0, SCH_BAY_GATECFG.off 0,
      SCH_BAY_SCHCFG.off 0, SCH_BAY_CTXAREA.off 0, SCH_BAY_EST.off 0, SCH_BAY_TRING.off 0].contains off then
    some (off + 0x100 * b)
  else if (List.range 8).any fun c => off == SCH_CTX_CFG.off 0 c || off == SCH_CTX_SAVE.off 0 c then some (off + 0x400 * b)
  else if off == COL_BAY_TABLE.off 0 then some (COL_BAY_TABLE.off b)
  else if [FLT_BAY_CFG.off 0, FLT_BAY_LIST.off 0, FLT_BAY_REPSET.off 0, FLT_BAY_SISTERS.off 0, FLT_BAY_HOST.off 0,
      FLT_BAY_GMASK.off 0 0, FLT_BAY_GMASK.off 0 1, FLT_BAY_GMASK.off 0 2, FLT_BAY_GMASK.off 0 3].contains off then
    some (off - FLT_BAY_CFG.off 0 + FLT_BAY_CFG.off b)
  else none

/-- The kind-1 registers of bay b. -/
def kind1Regs (b : Nat) : List Nat :=
  ([TCK_BAY_SLIP.off 0, SCH_BAY_SEED.off 0, SCH_BAY_CFG.off 0, SCH_BAY_SCHED.off 0, SCH_BAY_DISP.off 0, SCH_BAY_LSCFG.off 0,
    SCH_BAY_GATECFG.off 0, SCH_BAY_SCHCFG.off 0, SCH_BAY_CTXAREA.off 0, SCH_BAY_EST.off 0, SCH_BAY_TRING.off 0,
    COL_BAY_TABLE.off 0, FLT_BAY_CFG.off 0, FLT_BAY_LIST.off 0, FLT_BAY_REPSET.off 0, FLT_BAY_SISTERS.off 0,
    FLT_BAY_HOST.off 0, FLT_BAY_GMASK.off 0 0, FLT_BAY_GMASK.off 0 1, FLT_BAY_GMASK.off 0 2, FLT_BAY_GMASK.off 0 3] ++
   (List.range 8).flatMap fun c => [SCH_CTX_CFG.off 0 c, SCH_CTX_SAVE.off 0 c]).filterMap fun o => kind1Off o b

/-- A register's word with its configuration fields, joint and static, at their reset values. -/
def configReset (off : Nat) (v : Reg64) : Reg64 :=
  match findReg off with
  | some (r, _) => r.fields.foldl (fun v f => match f.acc with
      | .jw | .sw => insField v f.lo f.w (fieldOf (resetWord off) f.lo f.w)
      | _ => v) v
  | none => v

/-- Registers returned to their reset configuration, each change journaled with an origin. -/
def Dev.resetConfig (d : Dev) (origin : Nat) (offs : List Nat) : Dev :=
  offs.foldl (fun d o => d.wrJ origin o (configReset o (d.rd o))) d

/-- The registers of an AG block that hold something, REPAIR apart. -/
def Dev.agConfig (d : Dev) (n : Nat) : List Nat :=
  (d.regs.filter fun e => decide (0x800000 + 0x100000 * n ≤ e.1) && decide (e.1 < 0x900000 + 0x100000 * n) &&
    (List.range 6).all fun x => e.1 != AG_ARR_REPAIR.off n x).map (·.1)

/-- An armed joint stops with its bay: one of the bay's AGs, or a per-bay joint that counts as stopped while the bay is EMPTY
(R190, R200, R231, R254, R350, R372). -/
def Dev.joinsStrike (d : Dev) (b : Nat) (a : Armed) : Bool :=
  (isAgBlk a.block && (d.bayAgs b).contains (agOfBlk a.block)) ||
  (d.jointBay a.block a.id == some b && !isAgBlk a.block && a.block != 0x37FF000 && !(a.block == 0x3FF000 && within a.id 0x10 0x18))

/-- An array stops: nothing loaded, nothing staged, its dispatcher empty (R190). -/
def Dev.stopArray (d : Dev) (a : Nat) : Dev :=
  let u := d.arrU a
  let d := d.putArr a { u with disp := ArrayU.reset.disp, active := none, shadowT := none, inflight := [], chain := none,
                               staged := [] }
  let d := d.putVec a { d.vecU a with prog := [], copying := none, dq := [], running := false }
  let d := (d.unstalled a).sets [(AG_ARR_STATUS.state (a / 6) (a % 6), 0), (AG_VEC_STATUS.state (a / 6) (a % 6), 0),
    (AG_VEC_STATUS.dq_entries (a / 6) (a % 6), 0), (AG_VEC_STATUS.wait_on (a / 6) (a % 6), 0)]
  d.showDisp 0 a

/-- What R190 does when a struck bay's work has ended, but for the scrub: joints disarmed, blocks stopped, configuration at
its reset values, pegs 0, queues and stores empty, shares, tag, functions and translations released, the key zeroised and the
HBM pages on their way to being zeroed (R190, R263, R273). -/
def Dev.releaseBay (d : Dev) (b : Nat) : Dev :=
  let d := d.discardJoints (d.joinsStrike b)
  let d := (d.bayArrays b).foldl (fun d a => d.stopArray a) d
  let d := (d.bayDmas b).foldl (fun d e => (d.putDma e DmaU.reset).set (AG_DMA_STATUS.state (e / 4) (e % 4)) 0) d
  let d := (d.bayAgs b).foldl (fun d n => d.resetConfig 0x12 (d.agConfig n)) d
  let funcs := [0, 1].map fun p => (p, d.get (HIF_BAY_APER.func b p))
  let d := { d with unmapped := d.unmapped.filter fun u => !funcs.contains (u.1, u.2.1) }
  let d := d.resetConfig 0x12 (kind1Regs b ++ [HIF_BAY_APER.off b 0, HIF_BAY_APER.off b 1])
  let d := (List.range 8).foldl (fun d c => d.set (SCH_CTX_STATE.state b c) (d.flag (SCH_CTX_CFG.en b c)).toNat) d
  let d := (d.releasePages b).sets [(SCH_BAY_STATE.fab_tag b, 0), (HIF_BAY_FUNC.ports b, 0), (HIF_BAY_FUNC.vf_a b, 0),
    (HIF_BAY_FUNC.vf_b b, 0), (SCH_BAY_RES.hbm_chan b, 0), (SCH_BAY_RES.hbm_share b, 0), (SCH_BAY_RES.fab_share b, 0),
    (SCH_BAY_RES.hbm_2m b, 0), (MEM_BAY_CFG.ilv b, 0), (MEM_BAY_CFG.enc b, 0), (MEM_BAY_CFG.chan_count b, 0),
    (MEM_BAY_CFG.shared b, 0), (MEM_BAY_CFG.chan_base b, 0), (SCH_BAY_RUN.resident_valid b, 0), (SCH_BAY_RUN.resident b, 0),
    (SCH_BAY_RUN.switching b, 0)]
  d.putBay b { d.bayU b with regions := [], chans := [], chanLen := 0, encKey := none, pegInit := [], tileData := [],
                               kind1 := [], released := true }

/-- The scrub ends: every extent of the bay reads zero and belongs to no bay, and the bay is EMPTY (R112, R190, R500). -/
def Dev.scrubBay (d : Dev) (b : Nat) : Dev :=
  let d := (d.bayU b).extMap.foldl (fun d e => d.zeroLocal (extentBase ((e.2 - 1) / 96) ((e.2 - 1) % 96)) 0x200000) d
  let d := d.sets [(SCH_BAY_STATE.state b, bayEmpty), (SCH_BAY_STATE.light_ok b, 0), (SCH_BAY_STATE.ag_mask b, 0),
    (SCH_BAY_STATE.fab_tag b, 0), (SCH_BAY_RES.extents b, 0), (SCH_BAY_BUILD0.build_id b, 0), (SCH_BAY_BUILD1.build_id b, 0),
    (HIF_BAY_CTL.frozen_by b, 0)]
  (d.putBay b BayU.reset).showFree

/-- The contexts of a bay lose what they hold: no waiting command, no saved state (R189, R246). -/
def Dev.clearContexts (d : Dev) (b : Nat) : Dev :=
  (List.range 8).foldl (fun d c =>
    (d.putCtx (8 * b + c) CtxU.reset).sets [(SCH_CTX_STATE.state b c, (d.flag (SCH_CTX_CFG.en b c)).toNat),
      (SCH_CTX_STATE.saved b c, 0), (SCH_CTX_STATE.wait b c, 0), (SCH_CTX_STATE.damaged b c, 0)]) d

/-- A pre-empted step ends with a status; it closes as any step does, without having run on (R189, R228). -/
def Dev.endPre (d : Dev) (b c status : Nat) (damaged : Bool) : Dev :=
  match (d.ctxU (8 * b + c)).pre with
  | some r =>
    let d := d.complete r.cmd status (r.no + interferenceRatio r.measured (d.estimateOf b r) * 2 ^ 48)
    let d := d.reportStep b { r with early := some status, damaged := damaged } status
    (d.putCtx (8 * b + c) { d.ctxU (8 * b + c) with pre := none }).incSat (SCH_CTX_COUNT.steps b c) 1
  | none => d

/-- The copy of a switch that is in progress when a STRIKE takes effect completes (R246). -/
def Dev.copying (d : Dev) (b : Nat) : Option SwitchRec :=
  (d.bayU b).switch.filter fun sw => sw.out.isSome || (sw.doneEdge.isNone && (d.ctxU (8 * b + sw.inn)).saved.isSome)

/-- Halted arrays are IDLE again when their bay is struck (R73). -/
def Dev.unhalt (d : Dev) (a : Nat) : Dev :=
  if d.get (AG_ARR_STATUS.state (a / 6) (a % 6)) == 3 then d.set (AG_ARR_STATUS.state (a / 6) (a % 6)) 1 else d

/-- Action 5 of the edge a STRIKE was admitted to (R189): the bay is STRIKING, its steps and its waiting commands end with
STRUCK, and saved state is released; a copy of a switch completes (R246). -/
def Dev.beginStrike (d : Dev) (b : Nat) : Dev :=
  let d := d.set (SCH_BAY_STATE.state b) bayStriking
  let d := match (d.bayU b).step with
    | some r => (d.putBay b { d.bayU b with step := some { r with early := some stStruck } }).closeStep b
    | none => d
  let d := (List.range 8).foldl (fun d c => d.endPre b c stStruck false) d
  let d := (List.range 8).foldl (fun d c =>
    let l := (d.ctxU (8 * b + c)).susReq
    let d := l.foldl (fun d e => d.complete e.1 stStruck 0) d
    (d.ringU (8 * b + c)).fetched.foldl (fun d cmd => d.complete cmd stStruck 0) d) d
  let sw := d.copying b
  let d := ((d.bayArrays b).foldl (fun d a => d.unhalt a) d).clearContexts b
  (d.putBay b { d.bayU b with strikeEdge := none, switch := sw, thawEdge := none }).sets
    [(SCH_BAY_RUN.draining b, 0), (SCH_BAY_RUN.step_running b, 0), (SCH_BAY_RUN.switching b, sw.isSome.toNat)]

/-- The release of a struck bay, once its last work in flight and a copy in progress have completed and SCH runs (R190, R246). -/
def Dev.strikeRelease (d : Dev) (b : Nat) : Dev :=
  if d.bayState b == bayStriking && !(d.bayU b).released && d.unitsIdle b && (d.bayU b).switch.isNone && d.schRunning then
    d.releaseBay b
  else d

/-- STRIKE_RELEASE: R190. -/
def execStrikeRelease (bay : BayId) (s : State) : Host.Outcome State Fault Refusal :=
  onDev s fun d => d.strikeRelease bay.val

/-- The scrub of a struck bay ends, and its STRIKEs complete with OK (R190, R191). -/
def Dev.strikeScrubDone (d : Dev) (b : Nat) : Dev :=
  if d.bayState b == bayStriking && (d.bayU b).released then
    let l := (d.bayU b).strike
    l.foldl (fun d c => d.complete c stOk 0) (d.scrubBay b)
  else d

/-- STRIKE_SCRUB_DONE: R190. -/
def execStrikeScrubDone (bay : BayId) (s : State) : Host.Outcome State Fault Refusal :=
  onDev s fun d => d.strikeScrubDone bay.val

/-- A raise ends without a commit: what it had reserved is undone, the bay is EMPTY again, the failure is journaled and the
RAISE completes (R183, R188). -/
def Dev.raiseFail (d : Dev) (b status : Nat) : Dev :=
  match (d.bayU b).raise with
  | none => d
  | some r =>
    let phase := d.get (SCH_BAY_RAISE.phase b)
    let d := if r.reserved then d.releaseBay b else d
    let d := (d.clearContexts b).scrubBay b
    let d := d.set (SCH_BAY_RAISE.status b) status
    (d.jnlEventAfter 0x12 0x0040 (regAddr (SCH_BAY_RAISE.off b)) (status + 256 * phase)).complete r.cmd status 0

/-- STRIKE (R188 to R191): of an EMPTY bay it completes at once; of a RAISING bay it abandons the raise; of a RAISED or FROZEN
bay it is admitted into the open edge set; of a STRIKING bay it completes with the strike under way. -/
def Dev.strikeCmd (d : Dev) (c : Cmd) : Dev :=
  let b := c.bay
  let d := d.startCmd c
  let st := d.bayState b
  if st == bayEmpty then d.complete c stOk 0
  else if st == bayRaising then (d.raiseFail b stStruck).complete c stOk 0
  else
    let u := d.bayU b
    d.putBay b { u with strike := u.strike ++ [c]
                        strikeEdge := if st == bayStriking then u.strikeEdge else some (u.strikeEdge.getD d.openEdge) }

/-- STRIKE: R189, R191. -/
def execStrike (ring : RingId) (s : State) : Host.Outcome State Fault Refusal :=
  onDev s fun d => d.hostCmd ring.val 2 fun d c => d.strikeCmd c

end Sys2Proof.Machine
end

