-- ==== Sys2Proof/Machine/Raise.lean ====
section
/-! DEFINITION. The bent image and its raise (spec/08_bents_bays_and_joints.md, R171 to R188; spec/11_hbm_memory.md, R260 to R263;
spec/19_host_interface.md, R435; the checks of the chapters whose tables a bent carries). -/

namespace Sys2Proof.Machine

/-! ### The image (R171 to R181) -/

/-- A number of n bytes at an offset of an image; bytes past its end read 0. -/
def imgNat (img : List Byte) (off n : Nat) : Nat := ofBytes ((img.drop off).take n)

/-- A section-table entry (R173). -/
structure Sect where
  type : Nat
  target : Nat
  place : Nat
  off : Nat
  len : Nat
  reserved : Nat
  deriving DecidableEq, Repr

/-- The section table of an image. -/
def imgSects (img : List Byte) : List Sect :=
  (List.range (imgNat img 34 2)).map fun i =>
    let e := imgNat img 36 4 + 32 * i
    { type := imgNat img e 2, target := imgNat img (e + 2) 2, place := imgNat img (e + 4) 4, off := imgNat img (e + 8) 8,
      len := imgNat img (e + 16) 8, reserved := imgNat img (e + 24) 8 }

/-- The sections of a type. -/
def sectsOf (img : List Byte) (t : Nat) : List Sect := (imgSects img).filter fun s => s.type == t

/-- The bytes of a section. -/
def Sect.bytes (s : Sect) (img : List Byte) : List Byte := (img.drop s.off).take s.len

/-- The entries of n bytes of the first section of a type, as offsets into the image. -/
def entriesOf (img : List Byte) (t n : Nat) : List Nat :=
  match sectsOf img t with
  | s :: _ => (List.range (s.len / n)).map fun i => s.off + n * i
  | [] => []

/-- AG g is in the image's ag_mask. -/
def imgHasAg (img : List Byte) (g : Nat) : Bool := (imgNat img 12 2).testBit g

/-- The AGs of an image. -/
def imgAgs (img : List Byte) : List Nat := (List.range 16).filter (imgHasAg img)

/-- The header checks of phase 2 (R182). -/
def imgHeaderOk (img : List Byte) (stepping len tag : Nat) : Bool :=
  decide (256 ≤ img.length) && imgNat img 0 4 == 0x544E4542 && imgNat img 4 2 == 1 && imgNat img 8 2 == 0x96 &&
    decide (imgNat img 10 1 ≤ stepping) && within (imgNat img 34 2) 4 4097 && imgNat img 40 8 == len &&
    (imgNat img 32 2 == 0 || tag != 0)

/-- Header fields and reserved bytes (R172). -/
def imgHeaderRest (img : List Byte) : Bool :=
  decide (imgNat img 11 1 ≤ 1) && imgNat img 12 2 != 0 && imgNat img 17 3 == 0 && decide (imgNat img 20 2 ≤ 256) &&
    decide (imgNat img 22 2 ≤ 1023) && imgNat img 24 8 % 2 ^ 21 == 0 && imgNat img 36 4 % 32 == 0 &&
    decide (imgNat img 36 4 + 32 * imgNat img 34 2 ≤ imgNat img 40 8) && imgNat img 64 192 == 0

/-- The entry size of a section type, 0 where it has none (R175). -/
def entrySize : Nat → Nat
  | 1 | 3 | 10 => 32
  | 2 | 8 => 8
  | 6 | 7 => 4
  | 9 => 16
  | _ => 0

/-- The HBM regions of an image: (virtual base, size, page) (R181). -/
def imgRegions (img : List Byte) : List (Nat × Nat × Nat) :=
  (entriesOf img 10 32).map fun e => (imgNat img e 8, imgNat img (e + 8) 8, imgNat img (e + 16) 1)

/-- The extent map of an image: (index, AG) of each valid entry (R176). -/
def imgExtents (img : List Byte) : List (Nat × Nat) :=
  (entriesOf img 5 2).zipIdx.filterMap fun e =>
    let v := imgNat img e.1 2
    if v.testBit 15 then some (e.2, v / 2 ^ 11 % 16) else none

/-- The target of a section is one its type allows (R175). -/
def Sect.targetOk (s : Sect) (img : List Byte) : Bool :=
  match s.type with
  | 1 | 2 => decide (s.target < 96) && imgHasAg img (s.target / 6)
  | 3 => decide (s.target < 64) && imgHasAg img (s.target / 4)
  | 11 => decide (s.target < (imgRegions img).length)
  | _ => s.target == 0xFFFF

/-- A tile-memory range lies wholly in mapped extents of the image. -/
def imgMapped (img : List Byte) (off n : Nat) : Bool :=
  decide (off + n ≤ 2 ^ 32) &&
    (n == 0 || (List.range ((off + n - 1) / 0x200000 - off / 0x200000 + 1)).all fun i =>
      (imgExtents img).any fun e => e.1 == off / 0x200000 + i)

/-- Two ranges do not overlap. -/
def apart (a n b m : Nat) : Bool := decide (a + n ≤ b) || decide (b + m ≤ a) || n == 0 || m == 0

/-- A list's elements are pairwise in a relation. -/
def pairwise {α : Type} (r : α → α → Bool) : List α → Bool
  | [] => true
  | x :: xs => xs.all (r x) && pairwise r xs

/-- The rules of R173 to R175 for the section table. -/
def imgSectionsOk (img : List Byte) : Bool :=
  let ss := imgSects img
  let len := imgNat img 40 8
  let count (t : Nat) : Nat := (sectsOf img t).length
  let known := ss.filter fun s => !s.type.testBit 15
  known.all (fun s => within s.type 1 13) &&
  [5, 8, 10, 12].all (fun t => count t == 1) && [6, 7, 9].all (fun t => decide (count t ≤ 1)) &&
  ss.all (fun s => s.reserved == 0 && decide (s.off + s.len ≤ len)) &&
  known.all (fun s => s.targetOk img && (entrySize s.type == 0 || s.len % entrySize s.type == 0) &&
    (within s.type 1 5 || s.type == 11 || s.place == 0)) &&
  (match sectsOf img 12 with
   | sig :: _ => sig.off % 4096 == 0 && sig.len == 4096 && sig.off + sig.len == len &&
       ss.all (fun s => s.type == 12 || decide (s.off + s.len ≤ sig.off)) && ss.getLast?.map (·.type) == some 12
   | [] => false) &&
  (sectsOf img 5).all (fun s => s.len == 4096) &&
  (let tiles := known.filter fun s => within s.type 1 5
   tiles.all (fun s => imgMapped img s.place s.len) && pairwise (fun s t => apart s.place s.len t.place t.len) tiles) &&
  (sectsOf img 11).all fun s =>
    match (imgRegions img)[s.target]? with
    | some r => decide (s.place * 64 + s.len ≤ r.2.1)
    | none => false

/-- The rules of R176 to R181 for the tables, registers apart. -/
def imgTablesOk (img : List Byte) : Bool :=
  (imgExtents img).all (fun e => imgHasAg img e.2) && (entriesOf img 5 2).all (fun e => imgNat img e 2 % 2 ^ 11 == 0) &&
  (entriesOf img 6 4).all (fun e => imgHasAg img (imgNat img (e + 2) 2 / 4096) && imgNat img (e + 2) 2 % 4096 != 0xFFF) &&
  (let rs := (entriesOf img 7 4).map fun e => (imgNat img e 1, imgNat img (e + 1) 1, imgNat img (e + 2) 1, imgNat img (e + 3) 1)
   rs.all (fun r => decide (r.1 < 16) && imgHasAg img r.1 && decide (r.2.1 ≤ 23) && decide (r.2.2.1 ≤ 56) && r.2.2.2 == 0) &&
   (List.range 16).all fun g =>
     let mine := rs.filter fun r => r.1 == g
     decide (mine.length ≤ 32) && allDistinct (mine.map (·.2.1))) &&
  (entriesOf img 8 8).all (fun e => imgNat img (e + 1) 3 == 0) &&
  (let rg := imgRegions img
   rg.all (fun r =>
     let page := if r.2.2 = 0 then 2 ^ 21 else 2 ^ 30
     decide (r.2.2 ≤ 1) && r.1 % page == 0 && r.2.1 % page == 0 && decide (2 ^ 32 ≤ r.1) && decide (r.1 + r.2.1 ≤ 2 ^ 47)) &&
   pairwise (fun r s => apart r.1 r.2.1 s.1 s.2.1) rg && rg.foldl (fun t r => t + r.2.1) 0 == imgNat img 24 8) &&
  (entriesOf img 10 32).all fun e => imgNat img (e + 17) 15 == 0

/-- An AG register that REG_JOINTS may write, by its offset in the AG block (R180). -/
def kind0Ok (off : Nat) : Bool :=
  (List.range 6).any (fun x =>
    [AG_ARR_TABLE.off 0 x, AG_ARR_CHECK.off 0 x, AG_FDR_CFG.off 0 x, AG_VEC_PROG.off 0 x, AG_VEC_DWIN.off 0 x].contains
        (0x800000 + off) ||
      (List.range 4).any (fun q => 0x800000 + off == AG_ARR_THR.off 0 x q || 0x800000 + off == AG_VEC_THR.off 0 x q) ||
      (List.range 16).any (fun s => 0x800000 + off == AG_ARR_SCLA.off 0 x s || 0x800000 + off == AG_ARR_SCLB.off 0 x s)) ||
  (List.range 4).any (fun e => 0x800000 + off == AG_DMA_TABLE.off 0 e ||
    (List.range 4).any fun q => 0x800000 + off == AG_DMA_THR.off 0 e q) ||
  (decide (AG_PEG_FWD.off 0 0 ≤ 0x800000 + off) && decide (0x800000 + off < AG_PEG_FWD.off 0 0 + 0x800) && off % 8 == 0)

/-- The REG_JOINTS entries: (offset, kind, AG, reserved, value) (R180). -/
def imgRegs (img : List Byte) : List (Nat × Nat × Nat × Nat × Nat) :=
  (entriesOf img 9 16).map fun e =>
    (imgNat img e 4, imgNat img (e + 4) 1, imgNat img (e + 5) 1, imgNat img (e + 6) 2, imgNat img (e + 8) 8)

/-- Every REG_JOINTS entry names a permitted register. -/
def imgRegsOk (img : List Byte) : Bool :=
  (imgRegs img).all fun e =>
    e.2.2.2.1 == 0 &&
    (match e.2.1 with
     | 0 => kind0Ok e.1 && decide (e.2.2.1 < 16) && imgHasAg img e.2.2.1
     | 1 => (kind1Off e.1 0).isSome
     | _ => false)

/-! ### Loading (R185, R186) -/

/-- The offset a kind-0 entry writes. -/
def kind0Off (e : Nat × Nat × Nat × Nat × Nat) : Nat := 0x800000 + 0x100000 * e.2.2.1 + e.1

/-- The joints that a list of register offsets touches: (block, ID) without repeats. -/
def touchedJoints (offs : List Nat) : List (Nat × Nat) :=
  (offs.filterMap fun o =>
    match findReg o with
    | some (r, ix) => if r.fields.any (fun f => f.acc == .jw) then some (jointBlockOf o, r.jointId ix) else none
    | none => none).foldl (fun l j => if l.contains j then l else l ++ [j]) []

/-- The routes and the kind-0 registers that a load writes, as register offset and value, in order (R178, R180). -/
def loadWrites (img : List Byte) : List (Nat × Nat) :=
  let routes := (entriesOf img 7 4).map fun e => (imgNat img e 1, imgNat img (e + 1) 1, imgNat img (e + 2) 1)
  ((List.range 16).flatMap fun g => (routes.filter fun r => r.1 == g).zipIdx.map fun r =>
    (AG_MROUTE.off g r.2, 1 + r.1.2.1 * 2 + r.1.2.2 * 64)) ++
  (imgRegs img).filterMap fun e => if e.2.1 == 0 then some (kind0Off e, e.2.2.2.2) else none

/-- Tile sections, HBM data, pegs, routes and the kind-0 registers of a bent placed in its bay, which owns its AGs, extents
and regions already (R185). Each joint touched commits at once. -/
def Dev.loadBent (d : Dev) (b : Nat) (img : List Byte) : Dev :=
  let d := ((imgSects img).filter fun s => within s.type 1 5).foldl (fun d s => d.putBayBytes b s.place (s.bytes img)) d
  let d := d.putBay b { d.bayU b with tileData := (sectsOf img 4).map fun s => (s.place, s.len) }
  let d := (sectsOf img 11).foldl (fun d s =>
    match (imgRegions img)[s.target]? with
    | some r => d.putBayBytes b (r.1 + s.place * 64) (s.bytes img)
    | none => d) d
  let pegs := (entriesOf img 6 4).map fun e =>
    (imgNat img (e + 2) 2 / 4096, imgNat img (e + 2) 2 % 4096, imgNat img e 2)
  let d := (d.savedPegs b).foldl (fun d e => d.wrJ 0x12 e.1 0) (d.putBay b { d.bayU b with pegInit := pegs })
  let d := pegs.foldl (fun d e => d.wrJ 0x12 (AG_PEG.off e.1 e.2.1) (BitVec.ofNat 64 e.2.2)) d
  let ws := loadWrites img
  let d := ws.foldl (fun d w => d.writeFields 0x12 w.1 0 8 (BitVec.ofNat 64 w.2)) d
  (touchedJoints (ws.map (·.1))).foldl (fun d j => d.commitJoint j.1 j.2 0 0x12) d

/-- A kind-1 entry takes effect: the fields its register has for configuration take the entry's value, their shadows too (R193),
and nothing else changes (R186). -/
def Dev.applyKind1 (d : Dev) (b : Nat) (e : Nat × Nat) : Dev :=
  match kind1Off e.1 b with
  | none => d
  | some off =>
    match findReg off with
    | none => d
    | some (r, ix) =>
      let new := r.fields.foldl (fun v f => match f.acc with
        | .jw | .sw | .rw => insField v f.lo f.w (fieldOf (BitVec.ofNat 64 e.2) f.lo f.w)
        | _ => v) (d.rd off)
      let e := { d with jt := { d.jt with shadows := d.jt.shadows.filter fun s => s.off != off } }
      if d.rd off = new then e else (e.wr off new).jnlChange 0x12 off (r.jointId ix) (d.rd off) new

/-! ### The content check (phase 4) -/

/-- The registers of AGs that another bay holds, at their reset configuration: what a raise would find once they were free, which
phase 5 decides (R184). -/
def Dev.asFree (d : Dev) (b : Nat) (img : List Byte) : Dev :=
  ((imgAgs img).filter fun n => match d.bayOfAg n with | some k => k != b | none => false).foldl
    (fun d n => (d.agConfig n).foldl (fun d o => d.wr o (configReset o (d.rd o))) d) d

/-- Every register that the load writes holds in its configuration fields what was written last: no commit was refused (R178,
R182, R195). -/
def Dev.loadTook (d : Dev) (img : List Byte) : Bool :=
  let ws := loadWrites img
  ws.zipIdx.all fun w =>
    (ws.drop (w.2 + 1)).any (fun v => v.1 == w.1.1) ||
    match findReg w.1.1 with
    | some (r, _) => r.fields.all fun f => match f.acc with
        | .jw | .sw => fieldOf (d.rd w.1.1) f.lo f.w == fieldOf (BitVec.ofNat 64 w.1.2) f.lo f.w
        | _ => true
    | none => false

/-- The extent map, regions and AGs of a bent in place for a check: extent i of the map stands for itself, so that every
offset is translated and nothing of the device's memory is seen. -/
def Dev.scratch (d : Dev) (b : Nat) (img : List Byte) : Dev :=
  let regions := (sortBy (fun r s => decide (r.1 ≤ s.1)) (imgRegions img)).foldl
    (fun (acc : List Region × Nat) r =>
      (acc.1 ++ [{ vbase := r.1, size := r.2.1, page := r.2.2, offset := acc.2 }], acc.2 + r.2.1)) ([], 0)
  let d := { d.asFree b img with mem := { d.mem with loc := [] }, bay := [] }
  let d := d.putBay b { BayU.reset with extMap := (imgExtents img).map (fun e => (e.1, 1 + e.1)), regions := regions.1,
                                        chans := [0], lightOk := imgNat img 11 1 == 1 }
  let d := (List.range 8).foldl (fun d k => if k = b then d else d.set (SCH_BAY_STATE.state k) bayEmpty) d
  let d := d.sets [(SCH_BAY_STATE.state b, bayRaising), (SCH_BAY_STATE.ag_mask b, imgNat img 12 2),
    (SCH_BAY_STATE.light_ok b, imgNat img 11 1 % 2)]
  let d := { d with jt := { d.jt with shadows := [], armed := [] } }
  let d := d.loadBent b img
  ((imgRegs img).filter fun e => e.2.1 == 1).foldl (fun d e => d.applyKind1 b (e.1, e.2.2.2.2)) d

/-- A table or program of n bytes at an offset lies wholly inside a section of a type with a target. -/
def imgInside (img : List Byte) (t target off n : Nat) : Bool :=
  n == 0 || (sectsOf img t).any fun s => (t == 4 || s.target == target) && decide (s.place ≤ off) && decide (off + n ≤ s.place + s.len)

/-- The fields of a DMA descriptor (R131, R133): 0 valid, 1 a field error. -/
def dmaFieldsOk (w0 w3 w1 w2 : Nat) : Bool :=
  let op := bitsOf w0 0 4
  decide (op ≤ 1) && bitsOf w0 7 1 == 0 && bitsOf w0 23 1 == 0 && bitsOf w0 52 12 == 0 &&
    !(w0.testBit 5 && w0.testBit 6) && (op == 1 || bitsOf w1 0 48 % 64 == 0) && bitsOf w2 0 48 % 64 == 0 &&
    bitsOf w3 0 32 % 64 == 0 && bitsOf w3 0 32 != 0

/-- The descriptors of engine e's table. -/
def Dev.dmaTableOk (d : Dev) (b e : Nat) : Bool :=
  let base := d.get (AG_DMA_TABLE.tbl_base (e / 4) (e % 4))
  (List.range (d.get (AG_DMA_TABLE.tbl_len (e / 4) (e % 4)))).all fun i =>
    let w (k : Nat) : Nat := d.bayNat b (base + 32 * i + 8 * k) 8
    dmaFieldsOk (w 0) (w 3) (w 1) (w 2)

/-- The passes of array a's table (R61, R73, R102, R120). -/
def Dev.stageTableOk (d : Dev) (b a : Nat) : Bool :=
  (List.range (d.get (AG_ARR_TABLE.tbl_len (a / 6) (a % 6)))).all fun i =>
    let q := d.descAt b a i
    d.descFormOk b a (d.descWords b a i) && q.oPeg != 0xFFF &&
      (q.split == 0 || q.op != 0 || d.get (AG_FDR_CFG.a_share (a / 6) (a % 6)) == 6)

/-- Every value that REG_JOINTS sets meets its ranges, and its joint the cross-field rules (R182, R195). -/
def Dev.regJointsOk (d old : Dev) (b : Nat) (img : List Byte) : Bool :=
  let offs := (imgRegs img).filterMap fun e => if e.2.1 == 0 then some (kind0Off e) else kind1Off e.1 b
  offs.all (fun o => match findReg o with | some (r, _) => rangesOk r (d.rd o) | none => false) &&
  (touchedJoints offs).all fun j =>
    if isAgBlk j.1 then d.checkAg (agOfBlk j.1) j.2
    else if j.1 == 0x3FF000 then
      if within j.2 0x18 0x20 then d.checkTraining b
      else if within j.2 0x60 0x68 then d.checkScheduling b
      else if within j.2 0x20 0x60 then
        d.checkContext old b ((j.2 - 0x20) % 8)
      else true
    else d.checkOther j.1 j.2

/-- The content check of phase 4 on the loaded bent. -/
def Dev.contentOk (old : Dev) (b : Nat) (img : List Byte) : Bool :=
  imgHeaderRest img && imgSectionsOk img && imgTablesOk img && imgRegsOk img &&
  (let d := old.scratch b img
   let arrs := (imgAgs img).flatMap fun g => (List.range 6).map fun x => 6 * g + x
   let stages := arrs.filter d.hasStage
   d.loadTook img && d.regJointsOk old b img && d.colTableOk b &&
   (List.range 8).all (fun c => d.checkCtxPlace b c) &&
   (stages.isEmpty || d.flag (SCH_BAY_SCHED.dir_valid b)) &&
   arrs.all (fun a =>
     let n := a / 6
     let x := a % 6
     let e := d.dirEntry b a
     imgInside img 1 a (d.get (AG_ARR_TABLE.tbl_base n x)) (32 * d.get (AG_ARR_TABLE.tbl_len n x)) &&
     imgInside img 2 a (d.get (AG_VEC_PROG.code_base n x)) (8 * d.get (AG_VEC_PROG.code_len n x)) &&
     d.stageTableOk b a && progValid (d.progWords n x) &&
     (d.progWords n x).all (fun w => let v := VWord.of w; v.op != 0x5d || v.imm % 4096 != 0xFFF) &&
     d.scheduleOk b a &&
     (!d.flag (SCH_BAY_SCHED.dir_valid b) ||
       (imgInside img 4 0 (d.bayNat b e 4) (8 * d.bayNat b (e + 4) 2) &&
        imgInside img 4 0 (d.bayNat b (e + 8) 4) (8 * d.bayNat b (e + 12) 2))) &&
     ((entriesOf img 8 8).filter fun k => imgNat img k 1 == a).length == (d.hasStage a).toNat) &&
   ((imgAgs img).flatMap fun g => (List.range 4).map fun k => 4 * g + k).all fun e =>
     imgInside img 3 e (d.get (AG_DMA_TABLE.tbl_base (e / 4) (e % 4))) (32 * d.get (AG_DMA_TABLE.tbl_len (e / 4) (e % 4))) &&
     d.dmaTableOk b e)

/-! ### The mesh shares of R129 -/

/-- Column and row of a stop (R126). -/
def stopAt (s : Nat) : Nat × Nat :=
  if s < 16 then
    let dd := s / 4
    let l := s % 4
    (1 + 2 * (dd % 2) + l % 2, 2 * (dd / 2) + l / 2)
  else if s < 20 then (0, s - 16) else (5, s - 20)

/-- The stops passed along an axis from one coordinate to another. -/
def walk (x y : Nat) : List Nat :=
  if x ≤ y then (List.range (y - x + 1)).map (x + ·) else (List.range (x - y + 1)).map (x - ·)

/-- The directed links of a path: first along the row, then along the column (R126). -/
def pathLinks (src dst : Nat) : List ((Nat × Nat) × (Nat × Nat)) :=
  let s := stopAt src
  let t := stopAt dst
  let pts := (walk s.1 t.1).map (fun c => (c, s.2)) ++ ((walk s.2 t.2).drop 1).map fun r => (t.1, r)
  pts.zip (pts.drop 1)

/-- The shares that the routes of an AG's registers put on links. -/
def Dev.agLinks (d : Dev) (g : Nat) : List (((Nat × Nat) × (Nat × Nat)) × Nat) :=
  ((List.range 32).filter fun r => d.flag (AG_MROUTE.valid g r)).flatMap fun r =>
    (pathLinks g (d.get (AG_MROUTE.dst_stop g r))).map fun l => (l, d.get (AG_MROUTE.share g r))

/-- No link's total of the raised bents' shares and the new bent's exceeds 56 (R129). -/
def Dev.routesFit (d : Dev) (b : Nat) (img : List Byte) : Bool :=
  let held := ((List.range 16).filter fun g => match d.bayOfAg g with | some k => k != b | none => false).flatMap d.agLinks
  let new := (entriesOf img 7 4).flatMap fun e =>
    (pathLinks (imgNat img e 1) (imgNat img (e + 1) 1)).map fun l => (l, imgNat img (e + 2) 1)
  let all := held ++ new
  all.all fun l => decide ((all.filter fun k => k.1 == l.1).foldl (fun t k => t + k.2) 0 ≤ 56)

/-! ### Reservation (phase 5) -/

/-- Every budget and the compiled timing suit the period and guard in effect (R28). -/
def Dev.timingFits (d : Dev) (img : List Byte) : Bool :=
  let p := d.get TCK_PERIOD.period_us
  let g := d.get TCK_PERIOD.guard_pct
  imgNat img 14 2 == p && imgNat img 16 1 == g &&
    (entriesOf img 8 8).all fun e => decide (imgNat img (e + 4) 4 ≤ p * (100 - g) * 18)

/-- The channel set a bent receives (R260): exclusive channels that hold no bay's data and no part of the sister region, in
ascending number; or the shared pool. -/
def Dev.channelSet (d : Dev) (img : List Byte) : Option (List Nat) :=
  let n := imgNat img 20 2
  let usable := (List.range 256).filter d.chanUsable
  if n = 0 then
    let pool := usable.filter fun c => !d.chanExclusive c
    if pool.isEmpty && imgNat img 24 8 != 0 then none else some pool
  else
    let free := usable.filter fun c => (d.chanBays c).isEmpty && !d.sisterTouches c 0 (2 ^ 31)
    if free.length < n then none else some (free.take n)

/-- L of R261. -/
def chanLength (bytes c g : Nat) : Nat := if c = 0 then 0 else (bytes + c * g - 1) / (c * g) * g

/-- The ends of what is in use on a channel: bays' pages, pages being zeroed, the sister region. -/
def Dev.usedEnds (d : Dev) (c : Nat) : List Nat :=
  ((d.chanBays c).map fun b => d.get (MEM_BAY_CFG.chan_base b) + (d.bayU b).chanLen) ++
  (d.dirty.filterMap fun r => let e := (r.1 + r.2) * 2 ^ 21
    if 2 ^ 31 * c < e && e < 2 ^ 31 * (c + 1) then some (e - 2 ^ 31 * c) else none) ++
  (let e := d.get FLT_SISREG.base + 2 ^ 30 * d.get FLT_SISREG.size_gib
   if 2 ^ 31 * c < e && e < 2 ^ 31 * (c + 1) then [e - 2 ^ 31 * c] else [])

/-- The lowest base at which a range of a length is free on every channel of a set (R261): it lies at 0 or where something in use
ends. -/
def Dev.placeOn (d : Dev) (cs : List Nat) (len : Nat) : Option Nat :=
  (sortBy (fun x y => decide (x ≤ y)) (0 :: cs.flatMap d.usedEnds)).find? fun o => cs.all fun c => d.chanFree c o len

/-- The physical extents chosen for an extent map: the lowest of each AG that have not failed (R176, R116). -/
def Dev.chooseExtents (d : Dev) (img : List Byte) : Option (Tab Nat) :=
  (imgAgs img).foldl (fun o g =>
    let free := (List.range 96).filter fun e => !(d.agU g).failed.contains e
    let mine := (imgExtents img).filter fun e => e.2 == g
    match o with
    | none => none
    | some t => if free.length < mine.length then none else
        some ((mine.zip free).foldl (fun t p => Tab.put (fun _ => 0) t p.1.1 (1 + 96 * g + p.2)) t)) (some [])

/-- The functions a RAISE names are free and on serving ports (R435). -/
def Dev.functionsFit (d : Dev) (b : Nat) (c : Cmd) : Bool :=
  let ports := c.num 14 1
  let vf (p : Nat) : Nat := c.num (16 + 4 * p) 4
  [0, 1].all fun p =>
    (ports.testBit p || vf p == 0) &&
    (List.range 8).all fun k => k == b ||
      ((vf p / 2) &&& d.get (if p = 0 then HIF_BAY_FUNC.vf_a k else HIF_BAY_FUNC.vf_b k)) == 0

/-- What phase 5 answers: everything is granted, a resource is missing, or only pages still being zeroed are in the way. -/
inductive Reserve where
  | grant (exts : Tab Nat) (chans : List Nat) (base len : Nat)
  | missing
  | zeroing
  deriving DecidableEq, Repr

/-- Every array of the bent with a checked pass is checked_capable (R92). -/
def Dev.checksFit (d : Dev) (b : Nat) (img : List Byte) : Bool :=
  let e := d.scratch b img
  (imgAgs img).all fun g => (List.range 6).all fun x =>
    d.flag (AG_ARR_STATUS.checked_capable g x) ||
      (List.range (e.get (AG_ARR_TABLE.tbl_len g x))).all fun i => !(e.descAt b (6 * g + x) i).checked

/-- The hbm_share values of the other bays on the shared pool (R262). -/
def Dev.poolShare (d : Dev) (b : Nat) : Nat :=
  ((List.range 8).filter fun k => k != b && d.flag (MEM_BAY_CFG.shared k)).foldl (fun t k => t + d.get (SCH_BAY_RES.hbm_share k)) 0

/-- The checks of phase 5 (R20, R28, R92, R129, R260 to R263, R291, R435). -/
def Dev.reserve (d : Dev) (b : Nat) (c : Cmd) (img : List Byte) : Reserve :=
  let share (f : Nat → RF) : Nat := ((List.range 8).filter (· != b)).foldl (fun t k => t + d.get (f k)) 0
  let g := ilvGran (c.num 11 1)
  if !((imgAgs img).all fun n => d.bitOf GLB_STATUS.ag_usable n && (d.bayOfAg n).isNone) then .missing
  else if !(d.timingFits img && d.routesFit b img && d.functionsFit b c && d.checksFit b img) then .missing
  else if 1024 < share SCH_BAY_RES.fab_share + imgNat img 32 2 then .missing
  else if imgNat img 20 2 == 0 && decide (1024 < d.poolShare b + imgNat img 22 2) then .missing
  else
    match d.chooseExtents img, d.channelSet img with
    | some ex, some cs =>
      let len := chanLength (imgNat img 24 8) cs.length g
      if len = 0 then .grant ex cs 0 0
      else match d.placeOn cs len with
        | some base => .grant ex cs base len
        | none => if (({ d with dirty := [] } : Dev).placeOn cs len).isSome then .zeroing else .missing
    | _, _ => .missing

/-! ### The phases as commands -/

/-- The phase of a bay's raise, and its record, while the bay is RAISING. -/
def Dev.raising (d : Dev) (b phase : Nat) : Option RaiseRec :=
  if d.bayState b == bayRaising && d.get (SCH_BAY_RAISE.phase b) == phase then (d.bayU b).raise else none

/-- A RAISE's first check that fails in phase 1 (R182, R25), or the key package that it may not reach (R447, R500). -/
def Dev.admitStatus (d : Dev) (c : Cmd) : Option Nat :=
  let b := c.num 8 1
  let tag := c.num 12 2
  if d.bayState b != bayEmpty || !d.flag TCK_STATUS.synced ||
      (tag != 0 && (List.range 8).any fun k => k != b && d.bayState k != bayEmpty && d.get (SCH_BAY_STATE.fab_tag k) == tag) then
    some stNoResource
  else if 2 ^ 30 < c.num 32 8 then some stBadCommand
  else if c.num 10 1 == 2 && !d.rangeReach (c.num 40 8) 8192 then some stAccessDenied
  else none

/-- RAISE (R182, R184): admission. -/
def Dev.raiseCmd (d : Dev) (c : Cmd) : Dev :=
  let b := c.num 8 1
  let d := d.startCmd c
  match d.admitStatus c with
  | some st =>
    let d := if d.bayState b == bayEmpty then d.sets [(SCH_BAY_RAISE.status b, st), (SCH_BAY_RAISE.phase b, 1)] else d
    (d.jnlEventAfter 0x12 0x0040 (regAddr (SCH_BAY_RAISE.off b)) (st + 256)).complete c st 0
  | none =>
    let order := (List.range 8).foldl (fun m k => match (d.bayU k).raise with | some r => max m (r.order + 1) | none => m) 0
    let d := d.putBay b { BayU.reset with raise := some { cmd := c, order := order, image := [], reserved := false,
                                                          commitEdge := none, waitNs := none } }
    d.sets [(SCH_BAY_STATE.state b, bayRaising), (SCH_BAY_STATE.fab_tag b, c.num 12 2), (SCH_BAY_RAISE.phase b, 2)]

/-- RAISE: R182. -/
def execRaise (ring : RingId) (s : State) : Host.Outcome State Fault Refusal :=
  onDev s fun d => d.hostCmd ring.val 1 fun d c => d.raiseCmd c

/-- Another raise admitted earlier has not passed a phase (R184). -/
def Dev.behind (d : Dev) (r : RaiseRec) (phase : Nat) : Bool :=
  (List.range 8).any fun k =>
    match (d.bayU k).raise with
    | some q => decide (q.order < r.order) && decide (d.get (SCH_BAY_RAISE.phase k) ≤ phase) && !q.reserved
    | none => false

/-- Bytes of the images staged now, of R182's 1 GiB. -/
def Dev.stagedBytes (d : Dev) : Nat :=
  (List.range 8).foldl (fun t k => match (d.bayU k).raise with | some q => t + q.image.length | none => t) 0

/-- The source of an image can be read: a local HBM address that the command may reach, or a bus address with a translation. -/
def Dev.sourceOk (d : Dev) (c : Cmd) : Bool :=
  let a := c.num 24 8
  let n := c.num 32 8
  if c.num 9 1 == 0 then !d.untranslated c.port 0 a n
  else decide (a + n ≤ 0x8000000000) && d.rangeReach a n

/-- Staging ends (R182 phase 2): the image is copied, and its header checked; while an SEC or SCH activation waits, the raise
stops at the end of the phase (R406). -/
def Dev.stagingDone (d : Dev) (b : Nat) (readable : Bool) : Dev :=
  match d.raising b 2 with
  | none => d
  | some r =>
    let c := r.cmd
    if !r.image.isEmpty || decide (2 ^ 30 < d.stagedBytes + c.num 32 8) then d
    else if !readable || !d.sourceOk c then d.raiseFail b stAccessDenied
    else
      let img := if c.num 9 1 == 0 then d.hostBytes c.port (c.num 24 8) (c.num 32 8) else d.localBytes (c.num 24 8) (c.num 32 8)
      if imgHeaderOk img (d.get GLB_IDENT.stepping) (c.num 32 8) (c.num 12 2) then
        (d.putBay b { d.bayU b with raise := some { r with image := img } }).set (SCH_BAY_RAISE.phase b)
          (if d.bitOf GLB_FW_CMDSTAT.pending 0 || d.bitOf GLB_FW_CMDSTAT.pending 2 then 2 else 3)
      else d.raiseFail b stBadCommand

/-- RAISE_STAGING_DONE: R182. -/
def execRaiseStagingDone (bay : BayId) (readable : Bool) (s : State) : Host.Outcome State Fault Refusal :=
  onDev s fun d => d.stagingDone bay.val readable

/-- A signed object verifies in a context under keys (R411, R412): form, digest, context and both signatures. -/
def objectVerifies (context : Nat) (keys : List Nat) (obj : List Byte) : Bool :=
  let n := obj.length - 4096
  let blk := obj.drop n
  decide (4096 ≤ obj.length) && n % 4096 == 0 && imgNat blk 0 4 == 0x42474953 && imgNat blk 4 2 == 1 && imgNat blk 6 2 == 1 &&
    imgNat blk 24 8 == n && imgNat blk 32 1 == context && imgNat blk 33 31 == 0 && (blk.drop 64).take 48 == sha384 (obj.take n) &&
    imgNat blk 3485 611 == 0 && Config.signaturesValid context keys blk

/-- A key package of a target kind is accepted (R419, R420); the answer holds the keys. -/
def Dev.packageKeys (d : Dev) (kind : Nat) (pkg : List Byte) : Option Nat :=
  if decide (pkg.length = 8192) && objectVerifies 5 d.board.ownerKeys pkg && d.flag SEC_STATUS.owned &&
      imgNat pkg 0 4 == 0x474B504B && imgNat pkg 4 1 == 1 && imgNat pkg 5 1 == kind && imgNat pkg 1204 2892 == 0 &&
      imgNat pkg 16 8 == d.get GLB_SERIAL.serial && decide (Tab.get (fun _ => 0) d.keySeq kind ≤ imgNat pkg 8 8) then
    Config.unwrapKeys pkg
  else none

/-- A package's sequence counts as accepted. -/
def Dev.acceptSeq (d : Dev) (kind : Nat) (pkg : List Byte) : Dev :=
  { d with keySeq := Tab.put (fun _ => 0) d.keySeq kind (imgNat pkg 8 8 + 1) }

/-- Verification ends (R182 phase 3, R412, R420, R272): one image at a time in order of admission. -/
def Dev.verificationDone (d : Dev) (b : Nat) : Dev :=
  match d.raising b 3 with
  | none => d
  | some r =>
    if d.behind r 3 || d.get (GLB_FW_CORE.state 0) != 0 then d
    else if !d.flag SEC_STATUS.owned || !objectVerifies 1 d.board.ownerKeys r.image then
      (d.set SEC_EVENT.verify_fail 1).raiseFail b stSignatureFail
    else if r.cmd.num 10 1 == 2 then
      if d.jnlFull then d else
      let pkg := d.localBytes (r.cmd.num 40 8) 8192
      match d.packageKeys 0 pkg with
      | none => d.raiseFail b stSignatureFail
      | some k =>
        let d := (d.acceptSeq 0 pkg).jnlEvent 0x10 0x0010 (regAddr SEC_CMD.off) (b * 256)
        (d.putBay b { d.bayU b with encKey := some k }).set (SCH_BAY_RAISE.phase b) 4
    else if r.cmd.num 10 1 == 1 then
      let k := d.fresh
      (k.2.putBay b { k.2.bayU b with encKey := some (Config.randomDraw k.1) }).set (SCH_BAY_RAISE.phase b) 4
    else d.set (SCH_BAY_RAISE.phase b) 4

/-- RAISE_VERIFICATION_DONE: R182. -/
def execRaiseVerificationDone (bay : BayId) (s : State) : Host.Outcome State Fault Refusal :=
  onDev s fun d => d.verificationDone bay.val

/-- The content check ends (R182 phase 4). -/
def Dev.contentDone (d : Dev) (b : Nat) : Dev :=
  match d.raising b 4 with
  | none => d
  | some r =>
    if !d.schRunning then d
    else if d.contentOk b r.image then d.set (SCH_BAY_RAISE.phase b) 5 else d.raiseFail b stBadCommand

/-- RAISE_CONTENT_CHECK_DONE: R182. -/
def execRaiseContentCheckDone (bay : BayId) (s : State) : Host.Outcome State Fault Refusal :=
  onDev s fun d => d.contentDone bay.val

/-- AGs of a bay that are not ACTIVE are asked to thaw (R182, R390). -/
def Dev.askThaw (d : Dev) (b : Nat) : Dev :=
  (d.bayAgs b).foldl (fun d n => if d.get (PWR_DOM.state (1 + n)) == 0 then d else d.moveDomain 0x11 (1 + n) 0) d

/-- What a granted reservation gives the bay (R167, R260, R261, R435). -/
def Dev.grantBay (d : Dev) (b : Nat) (r : RaiseRec) (ex : Tab Nat) (cs : List Nat) (base len : Nat) : Dev :=
  let img := r.image
  let regions := (sortBy (fun x y => decide (x.1 ≤ y.1)) (imgRegions img)).foldl
    (fun (acc : List Region × Nat) x =>
      (acc.1 ++ [{ vbase := x.1, size := x.2.1, page := x.2.2, offset := acc.2 }], acc.2 + x.2.1)) ([], 0)
  let u := d.bayU b
  let d := d.putBay b { u with extMap := ex, regions := regions.1, chans := cs, chanLen := len, periodUs := imgNat img 14 2
                               guardPct := imgNat img 16 1, raise := some { r with reserved := true, waitNs := some d.clk.timeNs } }
  let d := d.sets [(SCH_BAY_STATE.ag_mask b, imgNat img 12 2), (SCH_BAY_RES.extents b, ex.length),
    (SCH_BAY_RES.hbm_chan b, imgNat img 20 2), (SCH_BAY_RES.hbm_share b, imgNat img 22 2),
    (SCH_BAY_RES.fab_share b, imgNat img 32 2), (SCH_BAY_RES.hbm_2m b, imgNat img 24 8 / 2 ^ 21),
    (MEM_BAY_CFG.ilv b, r.cmd.num 11 1), (MEM_BAY_CFG.enc b, r.cmd.num 10 1), (MEM_BAY_CFG.chan_count b, cs.length),
    (MEM_BAY_CFG.shared b, (imgNat img 20 2 == 0).toNat), (MEM_BAY_CFG.chan_base b, base),
    (HIF_BAY_FUNC.ports b, r.cmd.num 14 1), (HIF_BAY_FUNC.vf_a b, r.cmd.num 16 4 / 2), (HIF_BAY_FUNC.vf_b b, r.cmd.num 20 4 / 2)]
  (d.askThaw b).showFree

/-- Reservation (R182 phase 5): it fails, waits for pages being zeroed or for a thaw, or is complete. -/
def Dev.reservationDone (d : Dev) (b : Nat) : Dev :=
  match d.raising b 5 with
  | none => d
  | some r =>
    if !d.schRunning then d
    else
      let active (d : Dev) : Bool := (d.bayAgs b).all fun n => d.get (PWR_DOM.state (1 + n)) == 0
      if r.reserved then if active d then d.set (SCH_BAY_RAISE.phase b) 6 else d
      else if d.behind r 5 then d
      else match d.reserve b r.cmd r.image with
        | .missing => d.raiseFail b stNoResource
        | .zeroing =>
          d.putBay b { d.bayU b with raise := some { r with waitNs := some (r.waitNs.getD d.clk.timeNs) } }
        | .grant ex cs base len =>
          let d := d.grantBay b r ex cs base len
          if active d then d.set (SCH_BAY_RAISE.phase b) 6 else d

/-- RAISE_RESERVATION_DONE: R182. -/
def execRaiseReservationDone (bay : BayId) (s : State) : Host.Outcome State Fault Refusal :=
  onDev s fun d => d.reservationDone bay.val

/-- A raise that has waited 2 s for its thaw, or for pages being zeroed, completes with NO_RESOURCE (R184, R263). -/
def Dev.thawTimeout (d : Dev) (b : Nat) : Dev :=
  match d.raising b 5 with
  | none => d
  | some r =>
    match r.waitNs with
    | some t => if t + 2000000000 ≤ d.clk.timeNs then d.raiseFail b stNoResource else d
    | none => d

/-- RAISE_THAW_TIMEOUT: R184. -/
def execRaiseThawTimeout (bay : BayId) (s : State) : Host.Outcome State Fault Refusal :=
  onDev s fun d => d.thawTimeout bay.val

/-- The load ends (R185, R182 phase 6): an uncorrectable error in a line of the staging area is counted (R266) and fails the raise
with INTERNAL; otherwise everything is in place, and the commit belongs to the open edge set. -/
def Dev.loadDone (d : Dev) (b : Nat) (lost : Option Nat) : Dev :=
  match d.raising b 6 with
  | none => d
  | some r =>
    if !d.schRunning || d.jnlFull then d
    else
      match lost with
      | some a => (d.hbmError a .uncorrectable false).raiseFail b stInternal
      | none =>
      let d := (d.bayU b).extMap.foldl (fun d e => d.zeroLocal (extentBase ((e.2 - 1) / 96) ((e.2 - 1) % 96)) 0x200000) d
      let d := d.loadBent b r.image
      let k1 := ((imgRegs r.image).filter fun e => e.2.1 == 1).map fun e => (e.1, e.2.2.2.2)
      let d := d.putBay b { d.bayU b with kind1 := k1, lightOk := imgNat r.image 11 1 % 2 == 1,
                                          raise := some { r with commitEdge := some d.openEdge } }
      d.set (SCH_BAY_RAISE.phase b) 7

/-- RAISE_LOAD_DONE: R185. -/
def execRaiseLoadDone (bay : BayId) (lost : Option (BitVec 39)) (s : State) : Host.Outcome State Fault Refusal :=
  onDev s fun d => d.loadDone bay.val (lost.map (·.toNat))

/-- Counts that run since the last raise return to zero (R186). -/
def Dev.zeroCounts (d : Dev) (b : Nat) : Dev :=
  let d := (d.bayArrays b).foldl (fun d a =>
    let n := a / 6
    let x := a % 6
    ((d.sets [(AG_ARR_CHECK.mismatches n x, 0), (AG_ARR_CHECK.checked_skipped n x, 0), (AG_ARR_BACKLOG.issued n x, 0)]).wr
      (AG_ARR_DCOUNT.off n x) 0).wr (AG_VEC_COUNT.off n x) 0) d
  let d := (List.range 8).foldl (fun d c => (d.wr (SCH_CTX_COUNT.off b c) 0).set (SCH_CTX_WAIT.max_wait b c) 0) d
  (((d.wr (SCH_BAY_TCOUNT.off b) 0).wr (COL_BAY_COUNT0.off b) 0).wr (COL_BAY_COUNT1.off b) 0).wr (COL_BAY_COUNT2.off b) 0

/-- A STEP that stands at the front of an enabled context's ring at the raise commit waits from this edge on, so it may start at
action 7 (R186). -/
def Dev.queuedStep (d : Dev) (b c : Nat) : Dev :=
  let k := 8 * b + c
  match (d.ringU k).fetched with
  | cmd :: _ =>
    if cmd.op == 3 && cmd.formOk && d.flag (SCH_CTX_CFG.en b c) then
      (d.putCtx k { d.ctxU k with waitingSince := some d.tick }).set (SCH_CTX_STATE.state b c) 2
    else d
  | [] => d

/-- The commit of a raise at action 3 of its edge (R186, R229, R235): kind-1 entries, state, counts, training state, contexts,
the start of the bay's blocks, completion. -/
def Dev.raiseCommit (d : Dev) (b : Nat) : Dev :=
  match d.raising b 7 with
  | none => d
  | some r =>
    let u := d.bayU b
    let d := d.set (SCH_BAY_STATE.light_ok b) u.lightOk.toNat
    let d := d.zeroCounts b
    let d := u.kind1.foldl (fun d e => d.applyKind1 b e) d
    let d := d.sets [(SCH_BAY_STATE.state b, bayRaised), (TCK_BAY_SLIP.own_count b, 0), (TCK_BAY_SLIP.upstream_count b, 0),
      (TCK_BAY_SLIP.over b, 0), (SCH_BAY_STEPNO.step b, 0), (SCH_BAY_UPDATES.updates b, 0),
      (SCH_BAY_TRAIN.ls_exp b, d.get (SCH_BAY_LSCFG.ls_init b)), (SCH_BAY_TRAIN.clean_count b, 0), (SCH_BAY_TRAIN.skip_run b, 0),
      (SCH_BAY_TRAIN.gate b, 0), (SCH_BAY_TRAIN.last_decision b, 0), (SCH_BAY_THEAD.head b, 0), (SCH_BAY_THEAD.overrun b, 0)]
    let d := d.sets [(SCH_BAY_BUILD0.build_id b, imgNat r.image 48 8), (SCH_BAY_BUILD1.build_id b, imgNat r.image 56 8),
      (SCH_BAY_RAISE.status b, stOk), (SCH_BAY_RAISE.commit_tick b, d.tick), (SCH_BAY_RUN.resident_valid b, 0)]
    let d := (d.bayArrays b).foldl (fun d a =>
      d.sets [(AG_ARR_STATUS.state (a / 6) (a % 6), 1), (AG_VEC_STATUS.state (a / 6) (a % 6), 1)]) d
    let d := (d.bayDmas b).foldl (fun d e => d.set (AG_DMA_STATUS.state (e / 4) (e % 4)) 1) d
    let d := (List.range 8).foldl (fun d c => d.queuedStep b c) (d.clearContexts b)
    let d := d.putBay b { d.bayU b with raise := none, kind1 := [], overNow := false, lossSeen := 0
                                        digest := ofBytes (((r.image.drop (r.image.length - 4096)).drop 64).take 48) }
    d.complete r.cmd stOk d.tick

end Sys2Proof.Machine
end

