-- ==== Sys2Proof/Machine/Dma.lean ====
section
/-! DEFINITION. DMA engines: COPY and FILL descriptors, local and remote, and their completion
(spec/06_tile_memory_and_mesh.md, R130 to R133). -/

namespace Sys2Proof.Machine

/-- A bay is to drop out at action 5 of the first edge whose set closes after now (R365). -/
def Dev.dropOut (d : Dev) (b : Nat) : Dev :=
  let u := d.fltBay b
  if u.dropEdge.isSome || d.bayState b != bayRaised then d else d.putFltBay b { u with dropEdge := some d.openEdge }

/-- The fields of a DMA descriptor (R131). -/
structure DmaDesc where
  op : Nat
  fence : Bool
  remSrc : Bool
  remDst : Bool
  dev : Nat
  waitPeg : Nat
  waitSel : Nat
  donePeg : Nat
  src : Nat
  srcStride : Nat
  dst : Nat
  dstStride : Nat
  rowBytes : Nat
  rows : Nat
  pattern : Nat
  deriving DecidableEq, Repr

/-- A descriptor's fields from its words; FILL ignores its source, and so remote_src (R131). -/
def DmaDesc.of (w0 w1 w2 w3 : Nat) : DmaDesc where
  op := bitsOf w0 0 4
  fence := w0.testBit 4
  remSrc := w0.testBit 5 && bitsOf w0 0 4 != 1
  remDst := w0.testBit 6
  dev := bitsOf w0 8 15
  waitPeg := bitsOf w0 24 12
  waitSel := bitsOf w0 36 4
  donePeg := bitsOf w0 40 12
  src := bitsOf w1 0 48
  srcStride := bitsOf w1 48 16 * 64
  dst := bitsOf w2 0 48
  dstStride := bitsOf w2 48 16 * 64
  rowBytes := bitsOf w3 0 32
  rows := bitsOf w3 32 16 + 1
  pattern := bitsOf w3 48 16

/-- The bus range behind a host address of the bay cannot be reached: its function has no translation for it (R437). -/
def Dev.hostRefused (d : Dev) (b va n : Nat) : Bool :=
  match d.xlate b va with
  | some (.host p a) => d.untranslated p (d.get (HIF_BAY_APER.func b p)) a n
  | _ => false

/-- Every row of a strided range lies in the bay and can be reached. -/
def Dev.rowsOk (d : Dev) (b base stride rowBytes rows : Nat) : Bool :=
  (List.range rows).all fun i =>
    let a := base + i * stride
    decide (a + rowBytes ≤ 2 ^ 48) && d.rangeOk b a rowBytes && !d.hostRefused b a rowBytes

/-- An address lies in a row of a strided range. -/
def inRows (va base stride rowBytes rows : Nat) : Bool :=
  (List.range rows).any fun i => decide (base + i * stride ≤ va) && decide (va < base + i * stride + rowBytes)

/-- Bytes of a repeated pattern of w bytes. -/
def patternBytes (pattern w n : Nat) : List Byte := (List.range n).map fun i => BitVec.ofNat 8 (pattern >>> (8 * (i % w)))

/-- One row moved within the bay; destination bytes that belong to the source as well are undefined (R132). -/
def Dev.copyRow (d : Dev) (b : Nat) (q : DmaDesc) (free : Nat) (i : Nat) (bytes : List Byte) : Dev :=
  let base := q.dst + i * q.dstStride
  let bytes := bytes.zipIdx.map fun e =>
    if inRows (base + e.2) q.src q.srcStride q.rowBytes q.rows then Config.freeByte free (i * q.rowBytes + e.2) else e.1
  d.putBayBytes b base bytes

/-- A COPY within the bay (R132). -/
def Dev.copyLocal (d : Dev) (b : Nat) (q : DmaDesc) : Dev :=
  let src := (List.range q.rows).map fun i => d.bayBytes b (q.src + i * q.srcStride) q.rowBytes
  let f := d.fresh
  src.zipIdx.foldl (fun d e => d.copyRow b q f.1 e.2 e.1) f.2

/-- A FILL within the bay (R132). -/
def Dev.fillLocal (d : Dev) (b : Nat) (q : DmaDesc) : Dev :=
  (List.range q.rows).foldl (fun d i => d.putBayBytes b (q.dst + i * q.dstStride) (patternBytes q.pattern 2 q.rowBytes)) d

/-- Payload bytes per packet of the device's own transfers: 4,096, or what the ACTIVE ETHERNET ports take (R285, R296). -/
def Dev.pieceBytes (d : Dev) : Nat :=
  ((List.range 50).filter fun p => d.isEthernet p && d.portState p == psActive).foldl (fun m p => min m (d.maxPayload p)) 4096

/-- The bay's fabric tag. -/
def Dev.tagOf (d : Dev) (b : Nat) : Nat := d.get (SCH_BAY_STATE.fab_tag b)

/-- Bytes written to an address of the bay that holds the tag on another device, as WRITE packets. -/
def Dev.sendWrites (d : Dev) (dev tc tag addr : Nat) (bytes : List Byte) (o : Owner) : Dev :=
  (cutPieces bytes.length d.pieceBytes).foldl (fun d p =>
    d.sendHeld (d.mkPacket dev tc opWrite tag (addr + p.1) 0 ((bytes.drop p.1).take p.2)) o) d

/-- n bytes asked for from an address on another device, as READ_REQ packets whose answers go to `to` (R293, R295). -/
def Dev.sendReads (d : Dev) (dev tc tag addr n : Nat) (o : Nat → Owner) : Dev :=
  (cutPieces n d.pieceBytes).foldl (fun d p =>
    d.sendHeld (d.mkPacket dev tc opReadReq tag (addr + p.1) (packSpec [(24, 4, p.2)]) []) (o p.1)) d

/-- The remote half of a descriptor: its packets on TC4 (R132, R290). -/
def Dev.dmaRemote (d : Dev) (b e id : Nat) (q : DmaDesc) : Dev :=
  (List.range q.rows).foldl (fun d i =>
    if q.remSrc then
      d.sendReads q.dev 4 (d.tagOf b) (q.src + i * q.srcStride) q.rowBytes fun o => .dmaRead e id (q.dst + i * q.dstStride + o)
    else
      let bytes := if q.op = 1 then patternBytes q.pattern 2 q.rowBytes else d.bayBytes b (q.src + i * q.srcStride) q.rowBytes
      d.sendWrites q.dev 4 (d.tagOf b) (q.dst + i * q.dstStride) bytes (.dma e id)) d

/-- An engine halts with an error code, and its bay's step ends as the code says (R133, R365). -/
def Dev.dmaHalt (d : Dev) (b e code : Nat) : Dev :=
  let d := (d.sets [(AG_DMA_STATUS.state (e / 4) (e % 4), 3), (AG_DMA_STATUS.error (e / 4) (e % 4), code)]).putDma e
    { d.dmaU e with running := false }
  match code with
  | 1 => d.endStepEarly b stAccessDenied
  | 2 => d.endStepEarly b stBadCommand
  | _ => d.dropOut b

/-- What the check before a descriptor finds: an error code, or none (R133). -/
def Dev.dmaCheck (d : Dev) (b : Nat) (w0 w1 w2 w3 : Nat) : Option Nat :=
  let q := DmaDesc.of w0 w1 w2 w3
  if !dmaFieldsOk w0 w3 w1 w2 then some 2
  else if !((q.remSrc || q.op == 1 || d.rowsOk b q.src q.srcStride q.rowBytes q.rows) &&
    (q.remDst || d.rowsOk b q.dst q.dstStride q.rowBytes q.rows)) then some 1
  else if (q.remSrc || q.remDst) && d.isDead q.dev then some 4
  else none

/-- Words of the descriptor an engine starts next. -/
def Dev.dmaWord (d : Dev) (b e k : Nat) : Nat :=
  d.bayNat b (d.get (AG_DMA_TABLE.tbl_base (e / 4) (e % 4)) + 32 * d.get (AG_DMA_STATUS.entry (e / 4) (e % 4)) + 8 * k) 8

/-- The bay whose engine may start its next descriptor: its step runs, the wait is satisfied, earlier descriptors have
completed under a fence, and at most 7 others are in flight (R130). -/
def Dev.dmaReady (d : Dev) (e : Nat) : Option Nat :=
  match d.bayOfAg (e / 4) with
  | none => none
  | some b =>
    let u := d.dmaU e
    let q := DmaDesc.of (d.dmaWord b e 0) 0 0 0
    if (d.liveStep b).isSome && u.running && d.get (AG_DMA_STATUS.state (e / 4) (e % 4)) == 2 &&
      d.waitOk (AG_DMA_THR.off (e / 4) (e % 4) 0) q.waitSel (e / 4) q.waitPeg u.rep &&
      (!q.fence || u.inflight.isEmpty) && decide (u.inflight.length < 8) then some b
    else none

/-- The engine moves to its next entry; after the last it begins again with the next repetition index (R130). -/
def Dev.dmaAdvance (d : Dev) (e : Nat) (r : DmaRec) : Dev :=
  let f := AG_DMA_STATUS.entry (e / 4) (e % 4)
  let last := decide (d.get (AG_DMA_TABLE.tbl_len (e / 4) (e % 4)) ≤ d.get f + 1)
  let u := d.dmaU e
  (d.putDma e { u with started := u.started + 1, inflight := u.inflight ++ [r], rep := if last then u.rep + 1 else u.rep }).set f
    (if last then 0 else d.get f + 1)

/-- A source line read by a bay's unit is found uncorrectable: it reads as zeros and the step ends with INTERNAL (R115, R266). -/
def Dev.lostLine (d : Dev) (b va : Nat) : Dev :=
  match d.xlate b va with
  | some (.loc a) =>
    if a < 2 ^ 39 then (d.hbmError a .uncorrectable false).endStepEarly b stInternal
    else
      let l := a - 0x8000000000
      d.tmError (l / 0xC000000) (l % 0xC000000 / 64) .uncorrectable
  | _ => d

/-- The next descriptor of an engine starts, if its op is `op` (R130 to R133); `lost` names a source line found
uncorrectable. -/
def Dev.dmaStart (d : Dev) (e op : Nat) (lost : Option Nat) : Dev :=
  match d.dmaReady e with
  | none => d
  | some b =>
    let w0 := d.dmaWord b e 0
    let w1 := d.dmaWord b e 1
    let w2 := d.dmaWord b e 2
    let w3 := d.dmaWord b e 3
    let q := DmaDesc.of w0 w1 w2 w3
    if q.op != op && decide (q.op < 2) then d
    else
      match d.dmaCheck b w0 w1 w2 w3 with
      | some code => d.dmaHalt b e code
      | none =>
        let id := (d.dmaU e).started
        let d := match lost with
          | some va => if q.op == 0 && !q.remSrc && inRows va q.src q.srcStride q.rowBytes q.rows then d.lostLine b va else d
          | none => d
        let d := d.dmaAdvance e { id := id, w0 := w0, w1 := w1, w2 := w2, w3 := w3 }
        if q.remSrc || q.remDst then d.dmaRemote b e id q
        else if q.op = 0 then d.copyLocal b q else d.fillLocal b q

/-- DMA_COPY: R132. -/
def execDmaCopy (eng : DmaId) (lost : Option (BitVec 48)) (s : State) : Host.Outcome State Fault Refusal :=
  onDev s fun d => d.dmaStart eng.val 0 (lost.map (·.toNat))

/-- DMA_FILL: R132. -/
def execDmaFill (eng : DmaId) (s : State) : Host.Outcome State Fault Refusal := onDev s fun d => d.dmaStart eng.val 1 none

/-- A packet belongs to a descriptor of an engine. -/
def Owner.ofDma (e id : Nat) : Owner → Bool
  | .dma e' i => e' == e && i == id
  | .dmaRead e' i _ => e' == e && i == id
  | _ => false

/-- Why a peg rose, for R252: 2 the fabric, 1 HBM, 0 otherwise. -/
def DmaDesc.cause (q : DmaDesc) : Nat :=
  let hbm (a : Nat) : Bool := decide (2 ^ 32 ≤ a) && decide (a < 2 ^ 47)
  if q.remSrc || q.remDst then 2 else if hbm q.dst || (q.op == 0 && hbm q.src) then 1 else 0

/-- A descriptor in flight completes once every write it makes has been acknowledged: its done peg rises (R122, R132). -/
def Dev.dmaComplete (d : Dev) (e slot : Nat) : Dev :=
  let u := d.dmaU e
  match u.inflight[slot]? with
  | none => d
  | some r =>
    if d.owing (Owner.ofDma e r.id) then d
    else
      let q := DmaDesc.of r.w0 r.w1 r.w2 r.w3
      let d := (d.putDma e { u with inflight := u.inflight.eraseIdx slot }).incWrap (AG_DMA_STATUS.completed (e / 4) (e % 4)) 1
      if q.donePeg = 0xFFF then d else d.incPeg (e / 4) q.donePeg 1 q.cause

/-- DMA_COMPLETE: R132, R136. -/
def execDmaComplete (eng : DmaId) (fin : DmaEnd) (s : State) : Host.Outcome State Fault Refusal :=
  onDev s fun d => (d.meshWaits (eng.val / 4) fin.mesh).dmaComplete eng.val fin.slot.val

/-- The packets of a descriptor fail with an error code of R133: the rest of them are forgotten and the engine halts (R294,
R295). -/
def Dev.dmaPacketFails (d : Dev) (e id code : Nat) : Dev :=
  match d.bayOfAg (e / 4) with
  | none => d.forget (Owner.ofDma e id)
  | some b =>
    let d := d.forget (Owner.ofDma e id)
    (d.putDma e { d.dmaU e with inflight := (d.dmaU e).inflight.filter fun r => r.id != id }).dmaHalt b e code

end Sys2Proof.Machine
end

