-- ==== Sys2Proof/Machine/Coll.lean ====
section
/-! DEFINITION. The collective engine: opening, sending, reduction at the owner, closing, late and lost contributions, members
that leave, completion, sharded gathers (spec/14_collectives_and_mapping.md, R326 to R349). -/

namespace Sys2Proof.Machine

/-! ### Instances -/

/-- The descriptor of an instance. -/
def Inst.q (u : Inst) : ColDesc := ColDesc.of u.desc

/-- An instance's identity (R326): its bay, table index and the low 16 bits of its step. -/
def Inst.isFor (u : Inst) (b t step : Nat) : Bool := u.bay == b && u.tbl == t && u.step == step

def Dev.inst (d : Dev) (b t step : Nat) : Option Inst := d.col.insts.find? fun u => u.isFor b t step

/-- An open instance replaced by its new record. -/
def Dev.putInst (d : Dev) (u : Inst) : Dev :=
  { d with col := { d.col with insts := d.col.insts.map fun v => if v.isFor u.bay u.tbl u.step then u else v } }

/-- The open counts (COL_STATUS, COL_BAYb_STATUS). -/
def Dev.showCol (d : Dev) : Dev :=
  let n (h : Nat) : Nat := (d.col.insts.filter fun u => u.tbl % 2 == h).length
  let d := d.sets [(COL_STATUS.open0, n 0), (COL_STATUS.open1, n 1)]
  (List.range 8).foldl (fun d b => d.set (COL_BAY_STATUS.openF b) (d.col.insts.filter fun u => u.bay == b).length) d

/-- The bay's step, running, draining or pre-empted (R343). -/
def Dev.colStep (d : Dev) (b : Nat) : Option StepRec :=
  match (d.bayU b).step with
  | some r => some r
  | none => (List.range 8).findSome? fun c => (d.ctxU (8 * b + c)).pre

/-- The bay's steps, the running one first, then those pre-empted. -/
def Dev.colSteps (d : Dev) (b : Nat) : List StepRec :=
  (d.bayU b).step.toList ++ (List.range 8).filterMap fun c => (d.ctxU (8 * b + c)).pre

/-- The step of a bay, running or pre-empted, that has a number in its low 16 bits. -/
def Dev.stepOf (d : Dev) (b step : Nat) : Option StepRec := (d.colSteps b).find? fun r => r.no % 65536 == step

/-- Its record changed. -/
def Dev.modStep (d : Dev) (b step : Nat) (f : StepRec → StepRec) : Dev :=
  match (d.bayU b).step.filter (fun r => r.no % 65536 == step) with
  | some r => d.putBay b { d.bayU b with step := some (f r) }
  | none => (List.range 8).foldl (fun d c =>
      let u := d.ctxU (8 * b + c)
      match u.pre.filter (fun r => r.no % 65536 == step) with
      | some r => d.putCtx (8 * b + c) { u with pre := some (f r) }
      | none => d) d

/-- The low 16 bits of the number of the bay's current step (R334). -/
def Dev.step16 (d : Dev) (b : Nat) : Nat :=
  (match d.colStep b with
   | some r => r.no
   | none => d.get (SCH_BAY_STEPNO.step b)) % 65536

/-- Elements of slice j, and where it starts (R328). -/
def Inst.count (u : Inst) (j : Nat) : Nat := u.counts.getD j 0
def Inst.start (u : Inst) (j : Nat) : Nat := (u.counts.take j).foldl (· + ·) 0

/-- Every count is 0: the instance has one empty segment, which member 0 owns (R328). -/
def Inst.empty (u : Inst) : Bool := u.counts.all (· == 0)

/-- Segments of a count of elements. -/
def ColDesc.segs (q : ColDesc) (n : Nat) : Nat := (n + q.segElems - 1) / q.segElems

/-- Segments of slice j. -/
def Inst.sliceSegs (u : Inst) (j : Nat) : Nat := if u.empty && j == 0 then 1 else u.q.segs (u.count j)

/-- Elements of segment s of a count. -/
def ColDesc.segLen (q : ColDesc) (n s : Nat) : Nat := min q.segElems (n - s * q.segElems)

/-- A member is gone from an instance (R340): dead, or marked by a LEAVE, a NO_TAG or a failed packet. -/
def Dev.colGone (d : Dev) (u : Inst) (m : Nat) : Bool :=
  (m != u.q.own && d.isDead (u.members.getD m 0)) || d.col.left.contains (u.bay, u.tbl, u.step, m)

/-- The other members that are not gone. -/
def Dev.colPeers (d : Dev) (u : Inst) : List Nat :=
  (List.range u.q.n).filter fun m => m != u.q.own && !d.colGone u m

/-- Regions of an instance that must lie in the bay (R330). -/
def Dev.colRegionsOk (d : Dev) (b : Nat) (u : Inst) : Bool :=
  let q := u.q
  let tot := u.counts.foldl (· + ·) 0
  let own := u.count q.own
  let prev := u.count ((q.own + q.n - 1) % q.n)
  let ok (a n : Nat) : Bool := decide (a + n ≤ 2 ^ 48) && d.rangeOk b a n
  match q.op with
  | 0 => ok q.src (tot * q.eb) && ok q.dst (own * q.eb) && ok q.acc ((own + if q.defer then own else 0) * q.accBytes)
  | 1 => ok q.src (own * q.eb) && ok q.dst (tot * q.eb) && (!q.sharded || ok q.acc (own * q.eb))
  | 2 => ok q.src (tot * q.eb) && ok q.dst (tot * q.eb) &&
      ok q.acc ((own + prev + if q.defer then own else 0) * q.accBytes)
  | _ => ok q.src (tot * q.eb) && ok q.dst (q.n * q.capacity * q.eb)

/-! ### Reduction (R336, R337) -/

/-- Where the accumulators of slice j start: the own slice first, then the slice stood in for. -/
def Inst.accBase (u : Inst) (j : Nat) : Nat :=
  u.q.acc + (if j = u.q.own then 0 else u.count u.q.own) * u.q.accBytes

/-- Where the deferred accumulators start. -/
def Inst.deferBase (u : Inst) : Nat :=
  let q := u.q
  q.acc + (u.count q.own + if q.op == coAr then u.count ((q.own + q.n - 1) % q.n) else 0) * q.accBytes

/-- A result that is a NaN is the canonical one (R336). -/
def canonical (v : Val) : Val := if v.isNaN then Val.canonNaN else v

/-- The accumulator bits of an element of a contribution (exact). -/
def ColDesc.widen (q : ColDesc) (bits : Nat) : Nat :=
  if q.format == .bf16 then 65536 * bits else bits

/-- One addition of an accumulator and an element, rounded once by RNE. -/
def ColDesc.addAcc (q : ColDesc) (acc x : Nat) : Nat :=
  let f := q.accFmt
  (Fmt.encode f .rne false (canonical (vadd .rne (Fmt.decode f acc) (Fmt.decode f x)).1)).1

/-- Accumulator words added to those at an address, or copied where nothing is there yet. -/
def Dev.accumulate (d : Dev) (u : Inst) (base : Nat) (first : Bool) (xs : List Nat) : Dev :=
  let q := u.q
  xs.zipIdx.foldl (fun d e =>
    let a := base + e.2 * q.accBytes
    d.putBayBytes u.bay a (toBytes q.accBytes (if first then e.1 else q.addAcc (d.bayNat u.bay a q.accBytes) e.1))) d

/-- The elements of a payload as accumulator words. -/
def ColDesc.elems (q : ColDesc) (bytes : List Byte) : List Nat :=
  (List.range (bytes.length / max 1 q.eb)).map fun i => q.widen (ofBytes ((bytes.drop (i * q.eb)).take q.eb))

/-- The record of a segment replaced; a segment without one gets it. -/
def Inst.putSeg (u : Inst) (s : Seg) : Inst :=
  if u.segs.any fun x => x.slice == s.slice && x.seg == s.seg then
    { u with segs := u.segs.map fun x => if x.slice == s.slice && x.seg == s.seg then s else x }
  else { u with segs := u.segs ++ [s] }

/-- The record of a segment. -/
def Inst.segOf (u : Inst) (j s : Nat) : Seg :=
  (u.segs.find? fun x => x.slice == j && x.seg == s).getD
    { slice := j, seg := s, present := [], count := 0, flag := false, closed := false }

/-- What a closed segment holds in the format of the elements: the accumulators divided for MEAN, converted by RNE; +0 where
nothing was present (R337). -/
def Dev.segResult (d : Dev) (u : Inst) (g : Seg) : List Byte :=
  let q := u.q
  let n := q.segLen (u.count g.slice) g.seg
  let f := q.accFmt
  (List.range n).flatMap fun i =>
    if g.count = 0 then toBytes q.eb 0
    else
      let v := Fmt.decode f (d.bayNat u.bay (u.accBase g.slice + (g.seg * q.segElems + i) * q.accBytes) q.accBytes)
      let w := if q.mean then Fmt.decode f (Fmt.encode f .rne false (canonical (vdiv v (Val.ofInt g.count)).1)).1 else v
      toBytes q.eb (Fmt.encode q.format .rne false (canonical w)).1

/-- Where a segment of slice j lands (R329): the own slice of a REDUCE_SCATTER, else the full vector. -/
def Inst.landAt (u : Inst) (j s : Nat) : Nat :=
  let q := u.q
  q.dst + ((if q.op == coRs then 0 else u.start j) + s * q.segElems) * q.eb

/-- The running flag of the step that an instance belongs to (R219). -/
def Dev.runningFlag (d : Dev) (u : Inst) : Bool :=
  match d.stepOf u.bay u.step with
  | some r => d.stepField u.bay r.ctx (SCH_BAY_TRAIN.running_flag u.bay) != 0
  | none => d.flag (SCH_BAY_TRAIN.running_flag u.bay)

/-- A collective packet (R333). -/
def Dev.colPacket (d : Dev) (u : Inst) (kind dest owner seg count version present : Nat) (flag : Bool) (payload : List Byte) :
    Packet :=
  d.mkPacket (u.members.getD dest 0) u.q.tc opColl (d.tagOf u.bay) 0
    (packSpec [(24, 1, u.tbl), (25, 1, kind + 128 * flag.toNat), (26, 2, u.step), (28, 2, u.q.own), (30, 2, owner),
      (32, 4, seg), (36, 4, count), (40, 4, version), (44, 2, present)]) payload u.q.scheduled

/-- A collective packet sent to a member that is not gone. -/
def Dev.colSend (d : Dev) (u : Inst) (kind dest owner seg count version present : Nat) (flag : Bool) (payload : List Byte) : Dev :=
  if d.colGone u dest then d
  else d.sendHeld (d.colPacket u kind dest owner seg count version present flag payload) (.coll u.bay u.tbl u.step dest)

/-- A segment closes (R337): absent contributions are excluded, the result is written, unless the
owner's had landed before a stand-in's, and, for an ALL_REDUCE, sent. -/
def Dev.closeSeg (d : Dev) (u : Inst) (g : Seg) : Dev :=
  let b := u.bay
  let q := u.q
  let bytes := d.segResult u g
  let absent := q.n - g.present.length
  let d := if absent = 0 then d else
    (d.incSat (COL_BAY_COUNT0.excluded b) absent).set (COL_BAY_EVENT.excluded b) 1
  let d := if g.count = 0 then d.incSat (COL_BAY_COUNT1.empty_segments b) 1 else d
  let g := { g with closed := true, flag := g.flag && g.count != 0 }
  let mine := !u.landed.contains (g.slice, g.seg)
  let d := if mine then d.putBayBytes b (u.landAt g.slice g.seg) bytes else d
  let u := { u.putSeg g with landed := if mine then u.landed ++ [(g.slice, g.seg)] else u.landed
                             flags := u.flags || (mine && g.flag) }
  let d := d.putInst u
  if q.op != coAr then d
  else (d.colPeers u).foldl (fun d m => d.colSend u 1 m g.slice g.seg (u.count g.slice) 0 g.count g.flag bytes) d

/-- A segment closes if every member that is not gone is present (R337). -/
def Dev.tryClose (d : Dev) (b t step j s : Nat) : Dev :=
  match d.inst b t step with
  | none => d
  | some u =>
    let g := u.segOf j s
    if g.closed then d
    else if (List.range u.q.n).all fun m => g.present.contains m || d.colGone u m then d.closeSeg u g
    else d

/-- Every segment of an instance that waits only for gone members closes (R340). -/
def Dev.tryCloseAll (d : Dev) (u : Inst) : Dev := u.segs.foldl (fun d g => d.tryClose u.bay u.tbl u.step g.slice g.seg) d

/-- A contribution to a segment that is not closed (R336). -/
def Dev.contribute (d : Dev) (b t step j s m : Nat) (flag : Bool) (bytes : List Byte) : Dev :=
  match d.inst b t step with
  | none => d
  | some u =>
    let g := u.segOf j s
    if g.closed || g.present.contains m then d
    else
      let q := u.q
      let d := d.accumulate u (u.accBase j + s * q.segElems * q.accBytes) (g.count == 0) (q.elems bytes)
      let u := u.putSeg { g with present := g.present ++ [m], count := g.count + 1, flag := g.flag || flag }
      (d.putInst u).tryClose b t step j s

/-! ### Opening and issuing (R330, R332) -/

/-- Deferred contributions of the step before enter an instance; a segment that has closed drops them (R339). -/
def Dev.enterDeferred (d : Dev) (b t step : Nat) (old : Inst) : Dev :=
  old.defer.foldl (fun d e =>
    match d.inst b t step with
    | none => d
    | some u =>
      let g := u.segOf u.q.own e.1
      if g.closed then d
      else
        let q := u.q
        let n := q.segLen (u.count q.own) e.1
        let xs := (List.range n).map fun i =>
          d.bayNat b (old.deferBase + (e.1 * q.segElems + i) * q.accBytes) q.accBytes
        let d := d.accumulate u (u.accBase q.own + e.1 * q.segElems * q.accBytes) (g.count == 0) xs
        d.putInst (u.putSeg { g with count := g.count + e.2.1, flag := g.flag || e.2.2 })) d

/-- The step that a packet or an opening of an instance belongs to is to end early: the running one. -/
def Dev.endColStep (d : Dev) (b step status : Nat) : Dev :=
  match (d.bayU b).step with
  | some r => if r.no % 65536 == step then d.endStepEarly b status else d
  | none => d

/-- An opening finds an invalid descriptor or region: no instance, and the bay's step ends at the next edge (R330). -/
def Dev.colError (d : Dev) (b t step code status : Nat) : Dev :=
  (d.sets [(COL_BAY_EVENT.desc_error b, 1), (COL_BAY_STATUS.last_index b, t), (COL_BAY_STATUS.last_error b, code)]).endColStep b
    step status

/-- What an opening answers. -/
inductive Opening where
  | opened (d : Dev)
  | full
  | bad (d : Dev)

/-- The tables of an instance read at its opening, with the records of the segments it reduces. -/
def Dev.newInst (d : Dev) (b t step : Nat) : Inst :=
  let w := d.colWords b t
  let q := ColDesc.of w
  let u : Inst :=
    { bay := b, tbl := t, step := step, desc := w
      members := (List.range q.n).map fun i => d.bayNat b (q.members + 2 * i) 2 % 32768
      counts := (List.range q.n).map fun i => d.bayNat b (q.counts + 4 * i) 4
      t0 := (d.stepOf b step).map (·.startTick)
      issued := false, sending := false, segs := [], landed := [], blocks := [], standIn := none, flags := false, lost := false,
      defer := [], gaveUp := false }
  if q.reduces then
    { u with segs := (List.range (u.sliceSegs q.own)).map fun s =>
        { slice := q.own, seg := s, present := [], count := 0, flag := false, closed := false } }
  else u

/-- Slice m of an ALL_REDUCE has lost its owner: this member, where it is the next, stands in for it, once per instance (R342). -/
def Dev.noteStandIn (d : Dev) (u : Inst) (m : Nat) : Dev :=
  if (m + 1) % u.q.n = u.q.own && u.standIn.isNone then
    ((d.putInst { u with standIn := some (m, d.tick + 2) }).incSat (COL_BAY_COUNT1.stand_ins u.bay) 1).set
      (COL_BAY_EVENT.stand_in u.bay) 1
  else d

/-- At an opening, of the member before this one, where it is gone already. -/
def Dev.standInsNow (d : Dev) (b t step : Nat) : Dev :=
  match d.inst b t step with
  | some u =>
    let m := (u.q.own + u.q.n - 1) % u.q.n
    if u.q.op == coAr && m != u.q.own && d.colGone u m then d.noteStandIn u m else d
  | none => d

/-- An instance opens: its descriptor and tables are read and checked; deferred contributions of the closed step before enter
it (R326, R330, R332, R339). -/
def Dev.openInst (d : Dev) (b t step : Nat) : Opening :=
  let w := d.colWords b t
  let q := ColDesc.of w
  if d.get (COL_BAY_TABLE.tbl_len b) ≤ t || !(q.valid fun g => d.bitOf (SCH_BAY_STATE.ag_mask b) g) then
    .bad (d.colError b t step 1 stBadCommand)
  else if !(d.rangeOk b q.members (2 * q.n) && d.rangeOk b q.counts ((if q.op == coA2a then 8 else 4) * q.n) &&
      d.colRegionsOk b (d.newInst b t step)) then .bad (d.colError b t step 2 stAccessDenied)
  else if 32 ≤ (d.col.insts.filter fun u => u.tbl % 2 == t % 2).length then .full
  else
    let prev := aheadOf 65536 step 1
    let old := d.col.closed.find? fun v => v.isFor b t prev
    let past := (d.stepOf b prev).isNone
    let d := { d with col := { d.col with insts := d.col.insts ++ [d.newInst b t step]
                                          closed := if past then d.col.closed.filter fun v => !v.isFor b t prev
                                                    else d.col.closed } }
    let d := match old with
      | some o => if past then d.enterDeferred b t step o else d
      | none => d
    .opened (d.standInsNow b t step).showCol

/-- The instance of descriptor t of a step is issued (R332); its opening waits while its half is full (R326). -/
def Dev.colIssue (d : Dev) (b t step : Nat) : Dev :=
  let d := match d.inst b t step with
    | some _ => d
    | none => match d.openInst b t step with
      | .opened e => e
      | .bad e => e
      | .full =>
        if d.col.waits.contains (b, t, step) then d
        else ({ d with col := { d.col with waits := d.col.waits ++ [(b, t, step)] } } : Dev).incWrap COL_STATUS.open_wait 1
  match d.inst b t step with
  | some u => ({ d with col := { d.col with waits := d.col.waits.erase (b, t, step) } } : Dev).putInst { u with issued := true }
  | none => d

/-- The input peg of a descriptor has reached its threshold (R327). -/
def Dev.colInput (d : Dev) (q : ColDesc) : Bool := pegOk q.thr 0 (d.get (AG_PEG.value q.pegAg q.inPeg))

/-! ### Sending (R329, R332, R341, R346, R348) -/

/-- A mark that a member is gone from an instance. -/
def Dev.markGone (d : Dev) (b t step m : Nat) : Dev :=
  if d.col.left.contains (b, t, step, m) then d else { d with col := { d.col with left := d.col.left ++ [(b, t, step, m)] } }

/-- LEAVE to every other member (R341). -/
def Dev.sendLeave (d : Dev) (b t step own : Nat) (members : List Nat) : Dev :=
  members.zipIdx.foldl (fun d e =>
    if e.2 = own || d.isDead e.1 then d
    else
      let p := d.mkControl e.1 0x30 [(25, 1, t), (26, 2, step), (28, 2, own)]
      d.sendHeld { p with tag := BitVec.ofNat 12 (d.tagOf b) } .none) d

/-- Bytes of segment s of slice j in the source of a reducing instance. -/
def Dev.srcSeg (d : Dev) (u : Inst) (j s : Nat) : List Byte :=
  let q := u.q
  d.bayBytes u.bay (q.src + (u.start j + s * q.segElems) * q.eb) (q.segLen (u.count j) s * q.eb)

/-- Who reduces slice j as this member knows it: its owner, or where that is gone from an ALL_REDUCE the member after it (R329,
R342). -/
def Dev.reducerOf (d : Dev) (u : Inst) (j : Nat) : Nat :=
  if u.q.op == coAr && j != u.q.own && d.colGone u j then (j + 1) % u.q.n else j

/-- Contributions: each segment of slice j to its reducer, the own ones locally (R329). -/
def Dev.sendContribs (d : Dev) (u : Inst) : Dev :=
  (List.range u.q.n).foldl (fun d j => (List.range (u.sliceSegs j)).foldl (fun d s =>
    let bytes := d.srcSeg u j s
    let flag := d.runningFlag u
    let r := d.reducerOf u j
    if r = u.q.own then d.contribute u.bay u.tbl u.step j s u.q.own flag bytes
    else d.colSend u 0 r j s (u.count j) 0 0 flag bytes) d) d

/-- The version a sharded gather sends (R346). -/
def Dev.version (d : Dev) (b : Nat) : Nat := d.get (SCH_BAY_UPDATES.updates b) % 2 ^ 32

/-- The own share has been written to the own destination, with the running flag (R329, R345). -/
def Dev.ownShare (d : Dev) (u : Inst) : Dev := d.putInst { u with flags := u.flags || d.runningFlag u }

/-- A gather: the own slice to every other member, and to the own destination (R329, R346). -/
def Dev.sendGather (d : Dev) (u : Inst) : Dev :=
  let q := u.q
  let d := if u.sliceSegs q.own = 0 then d else d.ownShare u
  let v := if q.sharded then d.version u.bay else 0
  let base := if q.sharded && v % 2 == 1 then q.acc else q.src
  (List.range (u.sliceSegs q.own)).foldl (fun d s =>
    let bytes := d.bayBytes u.bay (base + s * q.segElems * q.eb) (q.segLen (u.count q.own) s * q.eb)
    let d := d.putBayBytes u.bay (u.landAt q.own s) bytes
    (List.range q.n).foldl (fun d m =>
      if m = q.own then d else d.colSend u 2 m q.own s (u.count q.own) v 0 (d.runningFlag u) bytes) d) d

/-- The receive entry of a member (R328). -/
def Inst.recvEntry (u : Inst) (m : Nat) : Nat := u.q.counts + 4 * (u.q.n + m)

/-- An all-to-all: block j to member j, at most the capacity of it (R329). -/
def Dev.sendBlocks (d : Dev) (u : Inst) : Dev :=
  let q := u.q
  let d := d.ownShare u
  (List.range q.n).foldl (fun d j =>
    let n := min (u.count j) q.capacity
    let d := d.incSat (COL_BAY_COUNT2.a2a_clipped u.bay) (u.count j - n)
    let seg (s : Nat) : Nat × Nat := (q.src + (u.start j + s * q.segElems) * q.eb, q.segLen n s * q.eb)
    if j = q.own then
      let d := d.putBayBytes u.bay (u.recvEntry j) (toBytes 4 n)
      d.putBayBytes u.bay (q.dst + j * q.capacity * q.eb) (d.bayBytes u.bay (q.src + u.start j * q.eb) (n * q.eb))
    else
      (List.range (max 1 (q.segs n))).foldl (fun d s =>
        let r := seg s
        d.colSend u 3 j j s n 0 0 (d.runningFlag u) (d.bayBytes u.bay r.1 r.2)) d) d

/-- A withholding bay leaves a reducing instance instead of contributing (R348). -/
def Dev.withhold (d : Dev) (u : Inst) : Dev :=
  ((d.markGone u.bay u.tbl u.step u.q.own).sendLeave u.bay u.tbl u.step u.q.own u.members).tryCloseAll u

/-- The member's own sending (R332). -/
def Dev.colSendAll (d : Dev) (u : Inst) : Dev :=
  let u := { u with sending := true }
  let d := d.putInst u
  if u.q.reduces then
    if d.flag (COL_BAY_STATUS.withholding u.bay) then d.withhold u else d.sendContribs u
  else if u.q.op == coAg then d.sendGather u
  else d.sendBlocks u

/-- A descriptor of a step has been issued: it is open, done, or was. -/
def Dev.colStarted (d : Dev) (b t step : Nat) : Bool :=
  d.col.done.contains (b, t, step) || (match d.inst b t step with | some u => u.issued | none => false)

/-- Descriptor t in one step: an unscheduled instance is issued once its input peg reaches c, and the own sending of an issued
instance follows (R332). -/
def Dev.colRunStep (d : Dev) (b t step : Nat) (q : ColDesc) : Dev :=
  let d := if !q.scheduled && !d.colStarted b t step && d.colInput q then d.colIssue b t step else d
  match d.inst b t step with
  | some u => if u.issued && !u.sending && d.colInput u.q then d.colSendAll u else d
  | none => d

/-- REDUCE_SCATTER, ALL_GATHER, ALL_REDUCE, ALL_TO_ALL: the descriptor proceeds in the running step and in those pre-empted (R332,
R343). -/
def Dev.colRun (d : Dev) (b t op : Nat) : Dev :=
  let q := ColDesc.of (d.colWords b t)
  if d.get (COL_BAY_TABLE.tbl_len b) ≤ t || q.op != op then d
  else (d.colSteps b).foldl (fun d r => d.colRunStep b t (r.no % 65536) q) d

/-- REDUCE_SCATTER: R329. -/
def execReduceScatter (bay : BayId) (tbl : BitVec 8) (s : State) : Host.Outcome State Fault Refusal :=
  onDev s fun d => d.colRun bay.val tbl.toNat coRs

/-- ALL_GATHER: R329. -/
def execAllGather (bay : BayId) (tbl : BitVec 8) (s : State) : Host.Outcome State Fault Refusal :=
  onDev s fun d => d.colRun bay.val tbl.toNat coAg

/-- ALL_REDUCE: R329. -/
def execAllReduce (bay : BayId) (tbl : BitVec 8) (s : State) : Host.Outcome State Fault Refusal :=
  onDev s fun d => d.colRun bay.val tbl.toNat coAr

/-- ALL_TO_ALL: R329. -/
def execAllToAll (bay : BayId) (tbl : BitVec 8) (s : State) : Host.Outcome State Fault Refusal :=
  onDev s fun d => d.colRun bay.val tbl.toNat coA2a

/-- Action 6: the scheduled collectives whose issue edge has come are issued (R332, R343). -/
def Dev.issueScheduled (d : Dev) (b : Nat) : Dev :=
  match d.liveStep b with
  | none => d
  | some r =>
    (List.range (d.get (COL_BAY_TABLE.tbl_len b))).foldl (fun d t =>
      let q := ColDesc.of (d.colWords b t)
      if q.scheduled && decide (r.startTick + q.issue ≤ d.tick) && !d.colStarted b t (r.no % 65536) then
        d.colIssue b t (r.no % 65536)
      else d) d

/-- Openings that waited take instances that have become free. -/
def Dev.openWaiting (d : Dev) : Dev := d.col.waits.foldl (fun d e => d.colIssue e.1 e.2.1 e.2.2) d

/-! ### Receiving (R331, R334, R338, R348) -/

/-- A late contribution (R338): dropped, or under DEFER added into the deferred accumulators of its segment. -/
def Dev.lateContribution (d : Dev) (b t step : Nat) (old : Option Inst) (j s : Nat) (flag : Bool) (bytes : List Byte) : Dev :=
  let d := d.set (COL_BAY_EVENT.late b) 1
  let next := (d.inst b t ((step + 1) % 65536)).isSome
  match old with
  | some u =>
    if u.q.defer && j == u.q.own && !next then
      let q := u.q
      let cur := u.defer.find? fun e => e.1 == s
      let d := d.accumulate u (u.deferBase + s * q.segElems * q.accBytes) cur.isNone (q.elems bytes)
      let e := match cur with
        | some c => (s, c.2.1 + 1, c.2.2 || flag)
        | none => (s, 1, flag)
      let u := { u with defer := (u.defer.filter fun x => x.1 != s) ++ [e] }
      let d := (d.putInst u).incSat (COL_BAY_COUNT0.late_deferred b) 1
      { d with col := { d.col with closed := d.col.closed.map fun v => if v.isFor b t step then u else v } }
    else d.incSat (COL_BAY_COUNT0.late_dropped b) 1
  | none => d.incSat (COL_BAY_COUNT0.late_dropped b) 1

/-- A segment lands in the destination of an instance. -/
def Dev.landSeg (d : Dev) (u : Inst) (j s addr : Nat) (flag : Bool) (bytes : List Byte) : Dev :=
  if u.landed.contains (j, s) then d
  else (d.putBayBytes u.bay addr bytes).putInst { u with landed := u.landed ++ [(j, s)], flags := u.flags || flag }

/-- A sharded segment of another version is not written, and the bay withholds for the rest of its step (R348). -/
def Dev.versionMismatch (d : Dev) (b : Nat) : Dev :=
  let d := d.incSat (COL_BAY_COUNT1.version_mismatch b) 1
  let d := d.sets [(COL_BAY_EVENT.shard_version b, 1), (COL_BAY_STATUS.withholding b, 1)]
  match (d.bayU b).step with
  | some r => d.putBay b { d.bayU b with step := some { r with withheld := true } }
  | none => d

/-- A block of an ALL_TO_ALL: its count is written to the receive entry when it is first seen; what passes the capacity has no place
(R329). -/
def Dev.landBlock (d : Dev) (u : Inst) (m s n : Nat) (flag : Bool) (bytes : List Byte) : Dev :=
  let q := u.q
  let n := min n q.capacity
  let d := if (Tab.get (fun _ => none) u.blocks m).isSome then d
    else (d.putBayBytes u.bay (u.recvEntry m) (toBytes 4 n)).putInst { u with blocks := Tab.put (fun _ => none) u.blocks m (some n) }
  match d.inst u.bay u.tbl u.step with
  | some v => d.landSeg v m s (q.dst + (m * q.capacity + s * q.segElems) * q.eb) flag (bytes.take ((n - s * q.segElems) * q.eb))
  | none => d

/-- The op a packet kind belongs to (R333): contributions to reducing ones, results to ALL_REDUCE, slices and blocks to their own. -/
def ColDesc.takesKind (q : ColDesc) (kind : Nat) : Bool :=
  match kind with
  | 0 => q.reduces
  | 1 => q.op == coAr
  | 2 => q.op == coAg
  | 3 => q.op == coA2a
  | _ => false

/-- A packet for an open instance, by its kind; one of a kind that its op does not take has no effect. -/
def Dev.colAccept (d : Dev) (u : Inst) (pkt : Packet) : Dev :=
  let b := u.bay
  let q := u.q
  let kind := pktNum pkt 25 1 % 8
  let flag := decide (128 ≤ pktNum pkt 25 1)
  let sender := pktNum pkt 28 2
  let owner := pktNum pkt 30 2
  let s := pktNum pkt 32 4
  let bytes := pkt.payload
  if !q.takesKind kind then d
  else match kind with
  | 0 =>
    let g := u.segOf owner s
    if g.closed then d.lateContribution b u.tbl u.step (some u) owner s flag bytes
    else if owner == q.own || (q.op == coAr && (owner + 1) % q.n == q.own) then
      d.contribute b u.tbl u.step owner s sender flag bytes
    else d
  | 2 =>
    if q.sharded && pktNum pkt 40 4 != d.version b then d.versionMismatch b
    else d.landSeg u owner s (u.landAt owner s) flag bytes
  | 3 => d.landBlock u sender s (pktNum pkt 36 4) flag bytes
  | _ => d.landSeg u owner s (u.landAt owner s) flag bytes

/-- The packet's count differs from the own one (R331). -/
def Inst.countWrong (u : Inst) (pkt : Packet) : Bool :=
  u.q.op != coA2a && pktNum pkt 36 4 != u.count (pktNum pkt 30 2)

/-- A contribution to a step whose instance is not open: late (R338). -/
def Dev.colLate (d : Dev) (b t step : Nat) (pkt : Packet) : Dev :=
  if pktNum pkt 25 1 % 8 = 0 then
    d.lateContribution b t step (d.col.closed.find? fun u => u.isFor b t step) (pktNum pkt 30 2) (pktNum pkt 32 4)
      (decide (128 ≤ pktNum pkt 25 1)) pkt.payload
  else d

/-- A packet for an open instance: refused where its count is wrong, else taken and acknowledged (R331, R334). -/
def Dev.colTake (d : Dev) (b t step : Nat) (pkt : Packet) : Dev :=
  match d.inst b t step with
  | some u =>
    if u.countWrong pkt then
      ((d.incSat (COL_BAY_COUNT1.count_mismatch b) 1).sets [(COL_BAY_EVENT.count_mismatch b, 1),
        (COL_BAY_STATUS.last_index b, t), (COL_BAY_STATUS.last_error b, 3)]).nack pkt 3
    else ((d.colAccept u pkt).rxMark pkt).ackDue pkt
  | none => (d.rxMark pkt).ackDue pkt

/-- A collective packet for a bay that holds its tag (R334): an open instance takes it, that of a pre-empted step too (R343); for the
current step or the next it opens its instance; for an earlier step it is late; for a later one, or with no free instance, it is
not acknowledged. -/
def Dev.colReceive (d : Dev) (b : Nat) (pkt : Packet) : Dev :=
  let t := pktNum pkt 24 1
  let step := pktNum pkt 26 2
  let ahead := aheadOf 65536 step (d.step16 b)
  let current := (d.stepOf b step).isSome
  if (d.inst b t step).isSome then d.colTake b t step pkt
  else if current || ahead = 1 then
    if d.col.done.contains (b, t, step) then ((d.colLate b t step pkt).rxMark pkt).ackDue pkt
    else match d.openInst b t step with
      | .opened e => e.colTake b t step pkt
      | .bad e => (e.rxMark pkt).ackDue pkt
      | .full => d
  else if ahead ≠ 0 && ahead < 32768 then d
  else ((d.colLate b t step pkt).rxMark pkt).ackDue pkt

/-- COLLECTIVE: R334, R336. -/
def execCollective (s : State) : Host.Outcome State Fault Refusal :=
  onDev s fun d => d.onPacket opColl none fun d _ pkt =>
    d.receive pkt fun d =>
      match d.bayOfTag pkt.tag.toNat with
      | some b => d.colReceive b pkt
      | none => d.nack pkt 1

/-! ### Members that go (R340 to R342) -/

/-- A packet belongs to an instance's sends to a member. -/
def Owner.toMember (b t step m : Nat) : Owner → Bool
  | .coll b' t' s' m' => b' == b && t' == t && s' == step && m' == m
  | _ => false

/-- Slice m of an ALL_REDUCE has lost its owner: the stand-in notes it, and contributions whose results have not landed go to
the stand-in (R342). -/
def Dev.standIn (d : Dev) (u : Inst) (m : Nat) : Dev :=
  let q := u.q
  let next := (m + 1) % q.n
  let d := d.noteStandIn u m
  if u.sending && !d.flag (COL_BAY_STATUS.withholding u.bay) then
    (List.range (u.sliceSegs m)).foldl (fun d s =>
      if u.landed.contains (m, s) then d
      else
        let bytes := d.srcSeg u m s
        let flag := d.runningFlag u
        if next = q.own then d.contribute u.bay u.tbl u.step m s q.own flag bytes
        else d.colSend u 0 next m s (u.count m) 0 0 flag bytes) d
  else d

/-- A member has become gone from an open instance (R340): its packets are forgotten, segments that wait only for gone members
close, and its slice passes to the stand-in. -/
def Dev.memberGone (d : Dev) (b t step m : Nat) : Dev :=
  let d := d.forget (Owner.toMember b t step m)
  match d.inst b t step with
  | none => d
  | some u =>
    let d := if u.q.op == coAr && !d.colGone u ((m + 1) % u.q.n) && m != u.q.own then d.standIn u m else d
    match d.inst b t step with
    | some v => d.tryCloseAll v
    | none => d

/-- A mark and its consequences. -/
def Dev.memberLeaves (d : Dev) (b t step m : Nat) : Dev :=
  if d.col.left.contains (b, t, step, m) then d else (d.markGone b t step m).memberGone b t step m

/-- LEAVE: R341. -/
def execLeave (s : State) : Host.Outcome State Fault Refusal :=
  onDev s fun d => d.onPacket opControl (some 0x30) fun d _ pkt =>
    d.receive pkt fun d =>
      match d.bayOfTag pkt.tag.toNat with
      | some b => ((d.memberLeaves b (pktNum pkt 25 1) (pktNum pkt 26 2) (pktNum pkt 28 2)).rxMark pkt).ackDue pkt
      | none => d.nack pkt 1

/-- A dead device is gone from every instance it is a member of; a step with such an instance is to complete with
FAULT_ABSORBED (R340, R361, R366). -/
def Dev.deadMember (d : Dev) (dev : Nat) : Dev :=
  let d := ((d.col.insts ++ d.col.closed).filter fun u => u.members.contains dev).foldl (fun d u =>
    d.modStep u.bay u.step fun r => { r with absorbed := true }) d
  d.col.insts.foldl (fun d u =>
    match u.members.idxOf? dev with
    | some m => d.memberGone u.bay u.tbl u.step m
    | none => d) d

/-- LEAVE for the instances of a step that are not yet issued. -/
def Dev.leaveUnissued (d : Dev) (b step : Nat) (want : ColDesc → Bool) : Dev :=
  (List.range (d.get (COL_BAY_TABLE.tbl_len b))).foldl (fun d t =>
    let q := ColDesc.of (d.colWords b t)
    if d.colStarted b t step || (d.inst b t step).isSome || !want q then d
    else d.sendLeave b t step q.own ((List.range q.n).map fun i => d.bayNat b (q.members + 2 * i) 2 % 32768)) d

/-- The bay leaves its collectives (R189, R341, R365): LEAVE for each open instance and each one of its steps not yet issued,
of the reducing ones only where it drops out; nothing of them remains. -/
def Dev.leaveAll (d : Dev) (b : Nat) (reducing : Bool) : Dev :=
  let want (q : ColDesc) : Bool := !reducing || q.reduces
  let d := (d.col.insts.filter fun u => u.bay == b && want u.q).foldl (fun d u =>
    d.sendLeave b u.tbl u.step u.q.own u.members) d
  let d := (d.colSteps b).foldl (fun d r => d.leaveUnissued b (r.no % 65536) want) d
  let d := d.forget fun o => match o with | .coll b' .. => b' == b | _ => false
  ({ d with col := { d.col with insts := d.col.insts.filter fun u => u.bay != b
                                waits := d.col.waits.filter fun w => w.1 != b
                                closed := if reducing then d.col.closed else d.col.closed.filter fun u => u.bay != b } } : Dev).showCol

/-! ### Deadlines, losses and completion (R337, R342, R344, R345) -/

/-- The segments an instance still expects (R344): results, gather slices and blocks, as (slice or sender, segment). -/
def Inst.expected (u : Inst) : List (Nat × Nat) :=
  let q := u.q
  let others := (List.range q.n).filter (· != q.own)
  let all : List (Nat × Nat) :=
    match q.op with
    | 0 => []
    | 3 => others.flatMap fun m =>
        (List.range (match Tab.get (fun _ => none) u.blocks m with | some n => max 1 (q.segs n) | none => 1)).map fun s => (m, s)
    | _ => others.flatMap fun j => (List.range (u.sliceSegs j)).map fun s => (j, s)
  all.filter fun e => !u.landed.contains e

/-- Action 1 at an instance's deadline: its open segments close; those of a stood-in slice not before the second edge after
the owner was known to be gone (R337, R342). -/
def Dev.colDeadline (d : Dev) (u : Inst) : Dev :=
  match u.t0 with
  | none => d
  | some t0 =>
    if d.tick < t0 + u.q.deadline then d
    else u.segs.foldl (fun d g =>
      match d.inst u.bay u.tbl u.step with
      | none => d
      | some v =>
        let h := v.segOf g.slice g.seg
        let ok := g.slice == u.q.own || (match v.standIn with | some (j, e) => j == g.slice && decide (e ≤ d.tick) | none => false)
        if h.closed || !ok then d else d.closeSeg v h) d

/-- Action 1, give_up_ticks after the deadline: what is still expected is lost (R344). -/
def Dev.colGiveUp (d : Dev) (u : Inst) : Dev :=
  match u.t0 with
  | none => d
  | some t0 =>
    if d.tick < t0 + u.q.deadline + d.get (COL_BAY_TABLE.give_up_ticks u.bay) || u.gaveUp then d
    else
      let l := u.expected
      let d := d.putInst { u with landed := u.landed ++ l, lost := u.lost || !l.isEmpty, gaveUp := true }
      if l.isEmpty then d
      else (d.incSat (COL_BAY_COUNT0.lost_segments u.bay) l.length).set (COL_BAY_EVENT.lost u.bay) 1

/-- Action 1 for the collectives of every bay. -/
def Dev.colEdge (d : Dev) : Dev :=
  let d := d.col.insts.foldl (fun d u => match d.inst u.bay u.tbl u.step with | some v => d.colDeadline v | none => d) d
  d.col.insts.foldl (fun d u => match d.inst u.bay u.tbl u.step with | some v => d.colGiveUp v | none => d) d

/-- An instance is complete on this member (R345). -/
def Dev.colComplete (d : Dev) (u : Inst) : Bool :=
  u.issued && u.sending && u.expected.isEmpty && u.segs.all (·.closed) &&
  (u.gaveUp || !d.owing fun o => match o with
    | .coll b t s m => b == u.bay && t == u.tbl && s == u.step && !d.colGone u m
    | _ => false)

/-- A gating collective of a step completes with its returned bit: gate_done rises, and a bit of 1 enters the running flag and
the gate's decision, unless that has been made or the collective is beyond the first gate_colls, where it is late (R219, R220,
R222). The step may be pre-empted (R343). -/
def Dev.gateReturn (d : Dev) (b : Nat) (r : StepRec) (ret : Bool) : Dev :=
  let n := d.stepField b r.ctx (SCH_BAY_TRAIN.gate_done b)
  let d := d.setStepField b r.ctx (SCH_BAY_TRAIN.gate_done b) (min (n + 1) 255)
  if !ret then d
  else
    let d := d.setStepField b r.ctx (SCH_BAY_TRAIN.running_flag b) 1
    if decide (2 ≤ d.stepField b r.ctx (SCH_BAY_TRAIN.gate b)) || decide (d.get (SCH_BAY_GATECFG.gate_colls b) ≤ n) then d.lateFlag b
    else d.modStep b (r.no % 65536) fun r => { r with returned := true }

/-- The instance of a descriptor that belongs to a step of its bay, running or pre-empted, and is complete. -/
def Dev.instDone (d : Dev) (b t : Nat) : Option (Inst × StepRec) :=
  (d.colSteps b).findSome? fun r => ((d.inst b t (r.no % 65536)).filter d.colComplete).map fun u => (u, r)

/-- An instance completes: its done peg rises, a gating one counts towards the gate with its returned bit (R345, R219). -/
def Dev.colFinish (d : Dev) (b t : Nat) : Dev :=
  match d.instDone b t with
  | none => d
  | some (u, r) =>
    let q := u.q
    let d := ({ d with col := { d.col with insts := d.col.insts.filter fun v => !v.isFor b t u.step
                                           closed := d.col.closed ++ [u]
                                           done := d.col.done ++ [(b, t, u.step)] } } : Dev).showCol
    let d := if q.donePeg = 0xFFF then d else d.incPeg q.pegAg q.donePeg 1 2
    (if q.gating then d.gateReturn b r (u.flags || u.lost) else d).openWaiting

/-- COLLECTIVE_COMPLETE: R345. -/
def execCollectiveComplete (bay : BayId) (tbl : BitVec 8) (s : State) : Host.Outcome State Fault Refusal :=
  onDev s fun d => d.colFinish bay.val tbl.toNat

/-- No collective that the bay's step issued is incomplete, nor waits for a free instance (R209, R326). -/
def Dev.colsIdle (d : Dev) (b : Nat) : Bool :=
  !(d.col.insts.any fun u => u.bay == b && u.issued && u.step == d.step16 b) && !d.col.waits.any fun w => w.1 == b && w.2.2 == d.step16 b

/-- A step starts: its instances that packets have opened take its start, withholding ends, and marks of earlier steps go
(R332, R348). -/
def Dev.colStepStart (d : Dev) (b : Nat) : Dev :=
  let step := d.step16 b
  let d := { d with col := { d.col with
    insts := d.col.insts.map fun (u : Inst) => if u.bay == b && u.step == step then { u with t0 := some d.tick } else u
    done := d.col.done.filter fun e => e.1 != b || (d.stepOf b e.2.2).isSome
    left := d.col.left.filter fun e => e.1 != b || e.2.2.1 == (step + 1) % 65536 || (d.stepOf b e.2.2.1).isSome } }
  d.set (COL_BAY_STATUS.withholding b) 0

/-- Completed instances that are kept for what may still arrive. -/
def Dev.keepClosed (d : Dev) (p : Inst → Bool) : Dev := { d with col := { d.col with closed := d.col.closed.filter p } }

/-- A step closes: instances that were never issued or that an early end cut short go; after a SKIP deferred contributions are
discarded, otherwise they enter instances of the next step that are already open (R339). -/
def Dev.colStepClose (d : Dev) (b step : Nat) (skip : Bool) : Dev :=
  let d := { d with col := { d.col with insts := d.col.insts.filter fun u => u.bay != b || u.step != step
                                        waits := d.col.waits.filter fun w => w.1 != b || w.2.2 != step } }
  let d := d.forget fun o => match o with | .coll b' _ s _ => b' == b && s == step | _ => false
  let mine := d.col.closed.filter fun u => u.bay == b && u.step == step
  let d := if skip then d.keepClosed fun u => u.bay != b || u.step != step
    else mine.foldl (fun d u =>
      let next := (step + 1) % 65536
      if (d.inst b u.tbl next).isSome then
        (d.keepClosed fun v => !v.isFor b u.tbl step).enterDeferred b u.tbl next u
      else d) d
  (d.keepClosed fun u => u.bay != b || u.step == step).showCol

end Sys2Proof.Machine
end

