-- ==== Sys2Proof/Machine/Flt.lean ====
section
/-! DEFINITION. Fault tolerance: the dead list and fault notices, drop-out, sisters and their slots, snapshots and their
cadence, refill (spec/15_fault_tolerance.md, R351 to R369). -/

namespace Sys2Proof.Machine

/-! ### Binds and slots (R354, R355) -/

/-- Bind states (FLT_BAYb_STATE). -/
def biNone : Nat := 0
def biBinding : Nat := 1
def biBound : Nat := 2
def biCoFed : Nat := 3
def biRefused : Nat := 4
def biNoRoom : Nat := 5
def biGone : Nat := 6
def biNoHost : Nat := 7

/-- The fields of sister i of a bay. -/
def bindField (b i : Nat) : RF := if i = 0 then FLT_BAY_STATE.bind0 b else FLT_BAY_STATE.bind1 b

def Dev.bindState (d : Dev) (b i : Nat) : Nat := d.get (bindField b i)

/-- The device named as sister i, where valid. -/
def Dev.sisterOf (d : Dev) (b i : Nat) : Option Nat :=
  if i = 0 then if d.flag (FLT_BAY_SISTERS.valid0 b) then some (d.get (FLT_BAY_SISTERS.sister0 b)) else none
  else if d.flag (FLT_BAY_SISTERS.valid1 b) then some (d.get (FLT_BAY_SISTERS.sister1 b)) else none

def Dev.bindOf (d : Dev) (b i : Nat) : Bind :=
  (d.fltBay b).binds.getD i { dev := none, tries := 0, sentNs := 0, feed := 0, slotBase := 0, gen := 0 }

def Dev.putBind (d : Dev) (b i : Nat) (x : Bind) : Dev := d.putFltBay b { d.fltBay b with binds := (d.fltBay b).binds.set i x }

/-- A sister takes snapshots: BOUND or CO_FED. -/
def Dev.bindGood (d : Dev) (b i : Nat) : Bool := d.bindState b i == biBound || d.bindState b i == biCoFed

/-- unprotected follows the bind states, with its telemetry event (R354). -/
def Dev.showProtected (d : Dev) (b : Nat) : Dev :=
  let bad := d.bayState b == bayRaised && !(d.bindGood b 0 || d.bindGood b 1)
  let d' := d.set (FLT_BAY_STATE.unprotected b) bad.toNat
  if bad && !d.flag (FLT_BAY_STATE.unprotected b) then d'.emit (.telemetry 4 [b]) else d'

/-- A bind state reached: its events (FLT_BAYb_EVENT). -/
def Dev.setBind (d : Dev) (b i st : Nat) : Dev :=
  let d := d.set (bindField b i) st
  let d := if st == biCoFed then d.set (FLT_BAY_EVENT.co_fed b) 1 else d
  let d := if [biRefused, biNoRoom, biGone, biNoHost].contains st then d.set (FLT_BAY_EVENT.bind_refused b) 1 else d
  d.showProtected b

/-- Bytes of the bay's snapshot list entries (R352). -/
def Dev.listBytes (d : Dev) (b : Nat) : Nat := (d.snapList b).foldl (fun n e => n + 4096 * e.2.1) 0

/-- The bay's build_id. -/
def Dev.buildId (d : Dev) (b : Nat) : Nat := d.get (SCH_BAY_BUILD0.build_id b) + 2 ^ 64 * d.get (SCH_BAY_BUILD1.build_id b)

/-- SISTER_BIND to sister i (R354). -/
def Dev.sendBind (d : Dev) (b i : Nat) : Dev :=
  match d.sisterOf b i with
  | none => d
  | some dev =>
    let x := d.bindOf b i
    let d := d.putBind b i { x with dev := some dev, tries := x.tries + 1, sentNs := d.clk.timeNs }
    d.sendHeld (d.mkControl dev 0x11 [(25, 2, d.tagOf b), (28, 8, d.listBytes b), (36, 1, d.get GLB_STRAPS.feed_id),
      (37, 2, d.board.rack), (40, 16, d.buildId b)]) .none

/-- The former sister is told that its slot is no longer needed (result 4). -/
def Dev.sendUnbind (d : Dev) (b i : Nat) : Dev :=
  match (d.bindOf b i).dev with
  | none => d
  | some dev =>
    let p := d.mkControl dev 0x12 [(25, 1, 4), (26, 1, d.get GLB_STRAPS.feed_id), (27, 2, d.board.rack)]
    (d.putBind b i { d.bindOf b i with dev := none, tries := 0 }).sendHeld { p with tag := BitVec.ofNat 12 (d.tagOf b) } .none

/-- The binds of a bay start, or start again, at a commit of its FLT bay joint (R354). -/
def Dev.startBind (d : Dev) (b i : Nat) : Dev :=
  let d := if (d.bindOf b i).dev.isSome && (d.bindOf b i).dev != d.sisterOf b i then d.sendUnbind b i else d
  let d := d.putBind b i { d.bindOf b i with tries := 0 }
  match d.sisterOf b i with
  | none => d.setBind b i biNone
  | some dev => if d.isDead dev then d.setBind b i biGone else (d.setBind b i biBinding).sendBind b i

def Dev.startBinds (d : Dev) (b : Nat) : Dev := (d.startBind b 0).startBind b 1

/-- The slot of a requester. -/
def Dev.slotOf (d : Dev) (dev tag : Nat) : Option Slot := d.flt.slots.find? fun s => s.dev == dev && s.tag == tag

def Dev.dropSlots (d : Dev) (p : Slot → Bool) : Dev := { d with flt := { d.flt with slots := d.flt.slots.filter fun s => !p s } }

/-- Bytes of a slot for a list: 2 × (list size + 4 KiB), rounded up to 2 MiB (R355). -/
def slotBytes (list : Nat) : Nat := 2 ^ 21 * ((2 ^ 21 - 1 + 2 * (4096 + list)) / 2 ^ 21)

/-- The lowest place in the sister region where a slot fits, on a 2 MiB boundary. -/
def Dev.slotPlace (d : Dev) (n : Nat) : Option Nat :=
  let base := d.get FLT_SISREG.base
  let size := 2 ^ 30 * d.get FLT_SISREG.size_gib
  let ends := base :: sortBy (fun x y => decide (x ≤ y)) (d.flt.slots.map fun s => s.base + s.bytes)
  ends.find? fun a => decide (a + n ≤ base + size) &&
    d.flt.slots.all fun s => decide (a + n ≤ s.base) || decide (s.base + s.bytes ≤ a)

/-- The newest version a slot holds. -/
def Slot.newestVersion (s : Slot) : Option Nat :=
  match s.newest with
  | some 0 => s.gen0
  | some _ => s.gen1
  | none => none

/-- The answer to a BIND request of a device: its result, this device's feed and rack, and the slot. -/
def Dev.bindReply (d : Dev) (src tag res : Nat) (s : Option Slot) : Dev :=
  let p := d.mkControl src 0x12 [(25, 1, res), (26, 1, d.get GLB_STRAPS.feed_id), (27, 2, d.board.rack),
    (32, 8, (s.bind (·.newestVersion)).getD 0), (40, 8, (s.map (·.base)).getD 0)]
  d.sendHeld { p with tag := BitVec.ofNat 12 tag } .none

/-- A slot placed for a device, bay tag and list, and its answer. -/
def Dev.slotBind (d : Dev) (src tag list build : Nat) : Dev :=
  match d.slotPlace (slotBytes list) with
  | some a =>
    let s : Slot := { dev := src, tag := tag, base := a, bytes := slotBytes list, listBytes := list,
                      buildId := build, gen0 := none, gen1 := none, newest := none }
    ({ d with flt := { d.flt with slots := d.flt.slots ++ [s] } } : Dev).bindReply src tag 0 (some s)
  | none => d.bindReply src tag 3 none

/-- The raised bay of a tag. -/
def Dev.raisedOfTag (d : Dev) (tag : Nat) : Option Nat :=
  (List.range 8).find? fun b => d.bayState b == bayRaised && d.tagOf b == tag && tag != 0

/-- A received SISTER_BIND (R354, R355): accepted when a RAISED bay holds the tag with the same build, and a slot is found; an
existing slot of the size is kept. -/
def Dev.sisterBind (d : Dev) (pkt : Packet) : Dev :=
  let src := pkt.src.toNat
  let tag := pktNum pkt 25 2
  let list := pktNum pkt 28 8
  let build := pktNum pkt 40 16
  match d.raisedOfTag tag with
  | none => d.bindReply src tag 1 none
  | some b =>
    if d.buildId b != build then d.bindReply src tag 2 none
    else
      match d.slotOf src tag with
      | some s =>
        if s.listBytes = list then d.bindReply src tag 0 (some s)
        else (d.dropSlots fun t => t.dev == src && t.tag == tag).slotBind src tag list build
      | none => d.slotBind src tag list build

/-- What a control packet that is acknowledged end to end goes through. -/
def Dev.control (d : Dev) (type : Nat) (f : Dev → Packet → Dev) : Dev :=
  d.onPacket opControl (some type) fun d _ pkt => d.receive pkt fun d => ((f d pkt).rxMark pkt).ackDue pkt

/-- SISTER_BIND: R354. -/
def execSisterBind (s : State) : Host.Outcome State Fault Refusal :=
  onDev s fun d => d.control 0x11 fun d pkt => d.sisterBind pkt

/-- The bind state that an accepted bind reaches (R354). -/
def Dev.boundState (d : Dev) (b feed : Nat) : Nat :=
  if feed != d.get GLB_STRAPS.feed_id then biBound
  else if !d.flag (FLT_BAY_CFG.co_fed_ok b) then biRefused
  else if !d.flag (FLT_BAY_CFG.host_en b) then biNoHost
  else biCoFed

/-- A received SISTER_REPLY (R354): an unbind releases the slot; any other sets the state of the binds that wait for it. -/
def Dev.sisterReply (d : Dev) (pkt : Packet) : Dev :=
  let src := pkt.src.toNat
  let res := pktNum pkt 25 1
  if res = 4 then d.dropSlots fun s => s.dev == src && s.tag == pkt.tag.toNat
  else
    (List.range 8).foldl (fun d b => (List.range 2).foldl (fun d i =>
      if d.bindState b i == biBinding && (d.bindOf b i).dev == some src && d.tagOf b == pkt.tag.toNat then
        if res = 0 then
          (d.putBind b i { d.bindOf b i with feed := pktNum pkt 26 1, slotBase := pktNum pkt 40 8 }).setBind b i
            (d.boundState b (pktNum pkt 26 1))
        else d.setBind b i biNoRoom
      else d) d) d

/-- SISTER_REPLY: R354. -/
def execSisterReply (s : State) : Host.Outcome State Fault Refusal :=
  onDev s fun d => d.control 0x12 fun d pkt => d.sisterReply pkt

/-- A bind with no reply for 1 ms is repeated; after 3 attempts the sister is GONE (R354). -/
def Dev.bindRetry (d : Dev) (b i : Nat) : Dev :=
  let x := d.bindOf b i
  if d.bindState b i != biBinding || d.clk.timeNs < x.sentNs + 1000000 then d
  else if x.tries < 3 then d.sendBind b i
  else d.setBind b i biGone

/-- SISTER_BIND_RETRY: R354. -/
def execSisterBindRetry (bay : BayId) (sister : Fin 2) (s : State) : Host.Outcome State Fault Refusal :=
  onDev s fun d => d.bindRetry bay.val sister.val

/-! ### Snapshots (R356 to R359) -/

/-- The interval in force in steps (R359). -/
def Dev.snapInterval (d : Dev) (b : Nat) : Nat :=
  if d.flag (FLT_BAY_CFG.auto b) then (if (d.fltBay b).everDone then d.get (FLT_BAY_CADENCE.interval b) else 1)
  else min (d.get (FLT_BAY_CFG.interval_fixed b)) (d.get (FLT_BAY_CFG.max_lost b))

/-- The bay state record (R358). -/
def Dev.stateRecord (d : Dev) (b : Nat) : List Byte :=
  toBytes 8 (d.get (SCH_BAY_UPDATES.updates b)) ++ toBytes 6 (d.get (SCH_BAY_STEPNO.step b)) ++
    toBytes 1 (d.get (SCH_BAY_TRAIN.ls_exp b)) ++ toBytes 1 (d.get (SCH_BAY_TRAIN.skip_run b)) ++
    toBytes 2 (d.get (SCH_BAY_TRAIN.clean_count b)) ++ toBytes 6 d.tick ++ toBytes 16 (d.buildId b) ++ List.replicate 24 0

/-- A generation header: the record and a copy of the list, in 4 KiB (R357, R358). -/
def Dev.snapHeader (d : Dev) (b : Nat) : List Byte :=
  let l := d.stateRecord b ++ d.bayBytes b (d.get (FLT_BAY_LIST.offset b)) (16 * d.get (FLT_BAY_LIST.len b))
  (l ++ List.replicate 4096 0).take 4096

/-- The key a bay's snapshots are encrypted under: none where enc is 0, and where none is installed (R358). -/
def Dev.snapKey (d : Dev) (b : Nat) : Option Nat :=
  if d.get (MEM_BAY_CFG.enc b) = 0 then none else Tab.get (fun _ => none) d.snapKeys (d.tagOf b)

/-- A 4 KiB unit under a key: exclusive or with the key stream of its version and number. -/
def cryptUnit (key : Option Nat) (version unit : Nat) (bytes : List Byte) : List Byte :=
  match key with
  | none => bytes
  | some k => bytes.zipIdx.map fun e => e.1 ^^^ Config.keystreamByte k (2 ^ 32 * version + unit) e.2

/-- The list entries of a bay, in list order, unit by unit. -/
def Dev.listUnits (d : Dev) (b : Nat) : List Nat :=
  (d.snapList b).flatMap fun e => (List.range e.2.1).map fun i => e.1 + 4096 * i

/-- SNAPSHOT commands of a bay end. -/
def Dev.endSnapCmds (d : Dev) (cmds : List Cmd) (status result : Nat) : Dev :=
  cmds.foldl (fun d c => d.complete c status result) d

/-- A snapshot does not complete: the generation before stays (R357). -/
def Dev.snapFail (d : Dev) (b : Nat) : Dev :=
  match (d.fltBay b).snap with
  | none => d
  | some u =>
    let d := d.forget fun o => match o with | .snap b' _ => b' == b | _ => false
    let d := (d.putFltBay b { d.fltBay b with snap := none }).sets
      [(FLT_BAY_EVENT.snap_fail b, 1), (FLT_BAY_SNAPSTAT.in_progress b, 0)]
    d.endSnapCmds u.cmds stInternal 0

/-- Action 7 of the edge at which a step closed with RUN: a snapshot starts when the interval has passed, a SNAPSHOT waits, or
a co-fed sister asks for a host snapshot (R356, R359). -/
def Dev.snapStart (d : Dev) (b : Nat) : Dev :=
  let u := d.fltBay b
  let v := d.get (SCH_BAY_UPDATES.updates b)
  let sis := (List.range 2).filter fun i => d.bindGood b i
  let host := d.flag (FLT_BAY_CFG.host_en b)
  let due := decide (d.get (FLT_BAY_SNAPSTAT.last_version b) + d.snapInterval b ≤ v) || !u.cmds.isEmpty
  let cofed := (List.range 2).any (fun i => d.bindState b i == biCoFed) && v % max 1 (d.snapInterval b / 2) == 0
  let dests := (if due then sis else []) ++ (if host && (due || cofed) then [2] else [])
  if !d.flag (FLT_BAY_CFG.snap_en b) || u.snap.isSome || dests.isEmpty then d
  else if d.get (MEM_BAY_CFG.enc b) != 0 && (d.snapKey b).isNone then
    ((d.putFltBay b { u with cmds := [] }).set (FLT_BAY_EVENT.snap_fail b) 1).endSnapCmds u.cmds stInternal 0
  else
    let s : Snap := { version := v, header := d.snapHeader b, startTick := d.tick, reading := true, gateTicks := 0,
                      dests := dests, failed := false, key := d.snapKey b, cmds := u.cmds }
    (d.putFltBay b { u with snap := some s, cmds := [] }).set (FLT_BAY_SNAPSTAT.in_progress b) 1

/-- Bytes of one generation of a bay. -/
def Dev.genBytes (d : Dev) (b : Nat) : Nat := 4096 + d.listBytes b

/-- Distinct devices of the bay's groups named dead in the last 72 h, at least 1 (R359). -/
def Dev.deadCount (d : Dev) (b : Nat) : Nat :=
  let w := 72 * 3600 * 1000000000
  let mine := (d.flt.deaths.filter fun e => decide (d.clk.timeNs ≤ e.2 + w) &&
    d.bitOf (FLT_BAY_GMASK.groups b (e.1 / 128 / 64)) (e.1 / 128 % 64)).map (·.1)
  max 1 (mine.foldl (fun l x => if l.contains x then l else l ++ [x]) []).length

/-- The cadence after a snapshot (R359). -/
def Dev.cadence (d : Dev) (b : Nat) (s : Snap) : Dev :=
  let cost1024 := 1024 * s.gateTicks + (d.tick - s.startTick) * d.get (FLT_BAY_CFG.snap_weight b)
  let cost16 := cost1024 / 64
  let n := d.deadCount b
  let m := (d.fltBay b).measured
  let sum := max 1 (m.foldl (· + ·) 0)
  let ts := isqrt (2 * cost1024 * (72 * 3600 * 1000000) * m.length ^ 2 /
    (1024 * n * sum ^ 2 * max 1 (d.get TCK_PERIOD.period_us)))
  let interval := max 1 (min (d.get (FLT_BAY_CFG.max_lost b)) ts)
  d.sets [(FLT_BAY_CADENCE.cost_16 b, min cost16 (2 ^ 20 - 1)), (FLT_BAY_CADENCE.n_dead b, min n 255),
    (FLT_BAY_CADENCE.interval b, if d.flag (FLT_BAY_CFG.auto b) then interval else
      min (d.get (FLT_BAY_CFG.interval_fixed b)) (d.get (FLT_BAY_CFG.max_lost b)))]

/-- A destination of a snapshot is complete; with the last one the snapshot is (R357, R359). -/
def Dev.snapDest (d : Dev) (b i : Nat) : Dev :=
  match (d.fltBay b).snap with
  | none => d
  | some s =>
    let s := { s with dests := s.dests.filter (· != i) }
    let d := if i = 2 then (d.putFltBay b { d.fltBay b with hostGen := 1 - (d.fltBay b).hostGen }).set (FLT_BAY_SNAPSTAT.host_valid b) 1
      else (d.putBind b i { d.bindOf b i with gen := 1 - (d.bindOf b i).gen }).sets
        [(FLT_BAY_SNAPSTAT.last_version b, s.version), (FLT_BAY_SNAPSTAT.valid b, 1)]
    if s.dests.isEmpty then
      let d := (d.putFltBay b { d.fltBay b with snap := none, everDone := true }).sets
        [(FLT_BAY_EVENT.snap_done b, 1), (FLT_BAY_SNAPSTAT.in_progress b, 0)]
      (d.cadence b s).endSnapCmds s.cmds stOk s.version
    else d.putFltBay b { d.fltBay b with snap := some s }

/-- The engine has read every list entry: the gate may decide, and the generations are written (R356, R357). Behind the list the
header of encrypted units holds their tags, as far as it has room (R358). -/
def Dev.snapRead (d : Dev) (b : Nat) : Dev :=
  match (d.fltBay b).snap with
  | none => d
  | some s =>
    if !s.reading then d
    else
      let key := s.key
      let units := (d.listUnits b).zipIdx.map fun e => cryptUnit key s.version e.2 (d.bayBytes b e.1 4096)
      let tags := match key with
        | some k => units.zipIdx.flatMap fun e => toBytes 16 (Config.gcmTag k (2 ^ 32 * s.version + e.2) e.1).toNat
        | none => []
      let header := (s.header.take (64 + 16 * (d.snapList b).length) ++ tags ++ List.replicate 4096 0).take 4096
      let s := { s with header := header }
      let blocks := header :: units
      let d := d.putFltBay b { d.fltBay b with snap := some { s with reading := false } }
      let d := (s.dests.filter (· < 2)).foldl (fun d i =>
        let x := d.bindOf b i
        blocks.zipIdx.foldl (fun d e =>
          d.sendHeld (d.mkPacket (x.dev.getD 0) 2 opWrite 0 (x.slotBase + x.gen * d.genBytes b + 4096 * e.2) 0 e.1) (.snap b i)) d) d
      if s.dests.contains 2 then
        let base := d.get (FLT_BAY_HOST.host_base b) + (d.fltBay b).hostGen * d.genBytes b
        (d.putBayBytes b base blocks.flatten).snapDest b 2
      else d

/-- SNAPSHOT_READ_DONE: R356. -/
def execSnapshotReadDone (bay : BayId) (s : State) : Host.Outcome State Fault Refusal := onDev s fun d => d.snapRead bay.val

/-- Every packet of a sister's generation has been acknowledged: SNAP_COMMIT follows (R357). -/
def Dev.snapAdvance (d : Dev) (b : Nat) : Dev :=
  match (d.fltBay b).snap with
  | none => d
  | some s =>
    if s.reading then d
    else (s.dests.filter (· < 2)).foldl (fun d i =>
      if d.owing fun o => match o with | .snap b' i' => b' == b && i' == i | _ => false then d
      else
        let x := d.bindOf b i
        let dig := ofBytes ((sha384 s.header).take 24)
        let d := d.sendHeld (d.mkControl (x.dev.getD 0) 0x13 [(25, 2, d.tagOf b), (27, 1, x.gen), (28, 8, s.version),
          (36, 24, dig)]) .none
        d.snapDest b i) d

/-- SNAP_COMMIT marks the written generation complete and newest (R357). -/
def Dev.snapCommit (d : Dev) (pkt : Packet) : Dev :=
  let src := pkt.src.toNat
  let tag := pktNum pkt 25 2
  let g := pktNum pkt 27 1 % 2
  let v := pktNum pkt 28 8
  { d with flt := { d.flt with slots := d.flt.slots.map fun s =>
      if s.dev == src && s.tag == tag then
        { s with gen0 := if g = 0 then some v else s.gen0, gen1 := if g = 1 then some v else s.gen1, newest := some g }
      else s } }

/-- SNAP_COMMIT: R357. -/
def execSnapCommit (s : State) : Host.Outcome State Fault Refusal :=
  onDev s fun d => d.control 0x13 fun d pkt => d.snapCommit pkt

/-! ### Refill (R367 to R369) -/

/-- A field of a bay state record. -/
def recNum (r : List Byte) (lo n : Nat) : Nat := ofBytes ((r.drop lo).take n)

/-- The bay takes its training state from a record (R368). -/
def Dev.takeRecord (d : Dev) (b : Nat) (r : List Byte) : Dev :=
  d.sets [(SCH_BAY_STEPNO.step b, recNum r 8 6), (SCH_BAY_UPDATES.updates b, recNum r 0 6),
    (SCH_BAY_TRAIN.ls_exp b, recNum r 14 1), (SCH_BAY_TRAIN.skip_run b, recNum r 15 1),
    (SCH_BAY_TRAIN.clean_count b, recNum r 16 2)]

/-- A RESTORE ends (R365, R369). -/
def Dev.restoreEnd (d : Dev) (b status version : Nat) : Dev :=
  match (d.fltBay b).refill with
  | none => d
  | some r =>
    let d := d.forget fun o => match o with | .refill b' _ _ => b' == b | _ => false
    let d := match r.src with
      | some dev =>
        let p := d.mkControl dev 0x15 [(25, 1, 0)]
        if d.isDead dev then d else d.sendHeld { p with tag := BitVec.ofNat 12 (d.tagOf b) } .none
      | none => d
    let d := d.putFltBay b { d.fltBay b with refill := none }
    let good := status == stOk || status == stShardVersion
    let d := d.sets [(FLT_BAY_STATE.refill b, if good then 3 else 4), (FLT_BAY_EVENT.refill_done b, 1)]
    let d := if status == stShardOrphaned then d.set (FLT_BAY_EVENT.orphaned b) 1 else d
    let d := if status == stOk then d.set (FLT_BAY_STATE.dropped b) 0 else d
    d.complete r.cmd status version

/-- The newest complete host generation of a bay's build: its number and header (R357, R369). -/
def Dev.hostGeneration (d : Dev) (b : Nat) : Option (Nat × List Byte) :=
  let h (g : Nat) : List Byte := d.bayBytes b (d.get (FLT_BAY_HOST.host_base b) + g * d.genBytes b) 4096
  let ok (g : Nat) : Bool := recNum (h g) 24 16 == d.buildId b &&
    d.rangeOk b (d.get (FLT_BAY_HOST.host_base b) + g * d.genBytes b) (d.genBytes b)
  if ok 1 && (!ok 0 || decide (recNum (h 0) 0 8 < recNum (h 1) 0 8)) then some (1, h 1)
  else if ok 0 then some (0, h 0)
  else none

/-- The units of the list read from the generation at base, deciphered and landed. -/
def Dev.restoreUnits (d : Dev) (b v base : Nat) : Dev :=
  (d.listUnits b).zipIdx.foldl (fun d e =>
    d.putBayBytes b e.1 (cryptUnit (d.snapKey b) v e.2 (d.bayBytes b (base + 4096 * (e.2 + 1)) 4096))) d

/-- The end of a RESTORE from a host generation: none is valid, or the list entries and the training state come from it. -/
def Dev.restoreFrom (d : Dev) (b atLeast : Nat) : Option (Nat × List Byte) → Dev
  | none => d.restoreEnd b stShardOrphaned 0
  | some (g, h) =>
    ((d.restoreUnits b (recNum h 0 8) (d.get (FLT_BAY_HOST.host_base b) + g * d.genBytes b)).takeRecord b h).restoreEnd b
      (if recNum h 0 8 < atLeast then stShardVersion else stOk) (recNum h 0 8)

/-- The list entries and the training state come from a host generation (kind 0). -/
def Dev.restoreHost (d : Dev) (b atLeast : Nat) : Dev := d.restoreFrom b atLeast (d.hostGeneration b)

/-- The entries of a failed device's slot, concatenated, go to a contiguous region of the bay (kind 2). -/
def Dev.restoreLocal (d : Dev) (b dev dst : Nat) : Dev :=
  match d.slotOf dev (d.tagOf b) with
  | none => d.restoreEnd b stShardOrphaned 0
  | some s =>
    match s.newest, s.newestVersion with
    | some g, some v =>
      if !(decide (dst + s.listBytes ≤ 2 ^ 48) && d.rangeOk b dst s.listBytes) then d.restoreEnd b stAccessDenied 0
      else
        let base := s.base + g * (4096 + s.listBytes) + 4096
        let d := (List.range (s.listBytes / 4096)).foldl (fun d i =>
          d.putBayBytes b (dst + 4096 * i) (cryptUnit (d.snapKey b) v i (d.bytes (base + 4096 * i) 4096))) d
        d.restoreEnd b stOk v
    | _, _ => d.restoreEnd b stShardOrphaned 0

/-- The failed device that a kind-1 refill stands for: this device where its bay dropped out, else the device last named
dead. -/
def Dev.failedDevice (d : Dev) (b : Nat) : Nat :=
  if d.flag (FLT_BAY_STATE.dropped b) || d.get FLT_STATUS.dead_count == 0 then d.myId else d.get FLT_DEAD_LAST.dead_id

/-- A refill turns to its next source, to the host, or ends with SHARD_ORPHANED (R369). -/
def Dev.nextSource (d : Dev) (b : Nat) : Dev :=
  match (d.fltBay b).refill with
  | none => d
  | some r =>
    let d := d.forget fun o => match o with | .refill b' _ _ => b' == b | _ => false
    match r.sources.filter fun s => !d.isDead s with
    | s :: rest =>
      let d := (d.putFltBay b { d.fltBay b with refill := some { r with src := some s, sources := rest, left := [] } }).sets
        [(FLT_BAY_STATE.refill b, 1), (FLT_BAY_STATE.refill_src b, s)]
      d.sendHeld (d.mkControl s 0x14 [(25, 2, d.tagOf b), (27, 2, d.failedDevice b), (32, 16, d.buildId b)]) .none
    | [] =>
      let d := d.putFltBay b { d.fltBay b with refill := some { r with src := none, sources := [] } }
      if (r.cmd.num 1 1).testBit 2 then d.restoreHost b r.srcVersion else d.restoreEnd b stShardOrphaned 0

/-- A RESTORE begins once no step of its bay runs or is pre-empted (R445). -/
def Dev.restoreBegin (d : Dev) (b : Nat) : Dev :=
  match (d.fltBay b).refill with
  | none => d
  | some r =>
    if r.begun || d.bayBusy b then d
    else
      let d := d.putFltBay b { d.fltBay b with refill := some { r with begun := true } }
      match r.cmd.num 9 1 with
      | 0 => d.restoreHost b 0
      | 1 => d.nextSource b
      | _ => d.restoreLocal b (r.cmd.num 10 2 % 32768) (r.cmd.num 16 8)

/-- RESTORE of a bay (R445). -/
def Dev.restoreCmd (d : Dev) (c : Cmd) : Dev :=
  let b := c.bay
  let d := d.startCmd c
  if d.bayState b != bayRaised || (d.fltBay b).refill.isSome then d.complete c stNoResource 0
  else
    let src (k : Nat) : List Nat := if 32768 ≤ c.num (10 + 2 * k) 2 then [c.num (10 + 2 * k) 2 % 32768] else []
    let r : Refill := { cmd := c, begun := false, src := none, sources := src 0 ++ src 1, srcVersion := 0, slotVersion := 0,
                        slotBase := 0, left := [], live := [], slotRec := [] }
    (d.putFltBay b { d.fltBay b with refill := some r }).restoreBegin b

/-- RESTORE: R445, R367 to R369. -/
def execRestore (ring : RingId) (s : State) : Host.Outcome State Fault Refusal :=
  onDev s fun d => d.hostCmd ring.val 7 fun d c => d.restoreCmd c

/-- An answer to a REFILL_REQ. -/
def Dev.sendRefillReply (d : Dev) (dest tag res up slotV base : Nat) (payload : List Byte) : Dev :=
  let p := d.mkControl dest 0x15 [(25, 1, res), (28, 8, up), (36, 8, slotV), (44, 8, base)] payload
  d.sendHeld { p with tag := BitVec.ofNat 12 tag } .none

/-- A source answers a REFILL_REQ (R367): it accepts once no step runs, opens its read window and holds its step starts. -/
def Dev.refillAnswer (d : Dev) (b : Nat) (pkt : Packet) : Dev :=
  let src := pkt.src.toNat
  let tag := pktNum pkt 25 2
  let u := d.fltBay b
  if d.buildId b != pktNum pkt 32 16 then d.sendRefillReply src tag 2 0 0 0 []
  else if u.holder.isSome && u.holder != some src then d.sendRefillReply src tag 4 0 0 0 []
  else
    match d.slotOf (pktNum pkt 27 2) tag with
    | some s =>
      match s.newest, s.newestVersion with
      | some g, some v =>
        let base := s.base + g * (4096 + s.listBytes)
        let d := (d.putFltBay b { u with holder := some src }).set (FLT_BAY_STATE.refill_hold b) 1
        d.sendRefillReply src tag 0 (d.get (SCH_BAY_UPDATES.updates b)) v base (d.stateRecord b ++ d.bytes base 64)
      | _, _ => d.sendRefillReply src tag 3 0 0 0 []
    | none => d.sendRefillReply src tag 3 0 0 0 []

/-- A received REFILL_REQ (R367): refused where no RAISED bay holds the tag; answered at the close of a running step. -/
def Dev.refillReq (d : Dev) (pkt : Packet) : Dev :=
  let tag := pktNum pkt 25 2
  match (List.range 8).find? fun b => d.bayState b == bayRaised && d.tagOf b == tag && tag != 0 with
  | none => d.sendRefillReply pkt.src.toNat tag 1 0 0 0 []
  | some b =>
    if (d.bayU b).step.isSome then d.putFltBay b { d.fltBay b with asks := (d.fltBay b).asks ++ [pkt] }
    else d.refillAnswer b pkt

/-- REFILL_REQ: R367. -/
def execRefillReq (s : State) : Host.Outcome State Fault Refusal :=
  onDev s fun d => d.control 0x14 fun d pkt => d.refillReq pkt

/-- REFILL_REQs that waited for a step's close are answered. -/
def Dev.answerAsks (d : Dev) (b : Nat) : Dev :=
  let l := (d.fltBay b).asks
  l.foldl (fun d p => d.refillAnswer b p) (d.putFltBay b { d.fltBay b with asks := [] })

/-- The bay's HBM pages of 4 KiB, in region order: bay virtual addresses. -/
def Dev.hbmPages (d : Dev) (b : Nat) : List Nat :=
  (d.bayU b).regions.flatMap fun r => (List.range (r.size / 4096)).map fun i => r.vbase + 4096 * i

/-- Pages of a chunk of 64 MiB. -/
def Dev.chunkPages (d : Dev) (b c : Nat) : List Nat := ((d.hbmPages b).drop (16384 * c)).take 16384

/-- The place of a page in the snapshot list, where the list names it. -/
def Dev.listPlace (d : Dev) (b va : Nat) : Option Nat := (d.listUnits b).idxOf? va

/-- The reads of a chunk: listed pages from the slot, the others from the source's bay (R367). -/
def Dev.readChunk (d : Dev) (b c : Nat) (r : Refill) : Dev :=
  (d.chunkPages b c).foldl (fun d va =>
    match d.listPlace b va with
    | some i => d.sendReads (r.src.getD 0) 2 0 (r.slotBase + 4096 + 4096 * i) 4096 fun o => .refill b c (va + o)
    | none => d.sendReads (r.src.getD 0) 2 (d.tagOf b) va 4096 fun o => .refill b c (va + o)) d

/-- Every chunk is read: the training state is taken and the RESTORE ends (R368). -/
def Dev.refillFinish (d : Dev) (b : Nat) (r : Refill) : Dev :=
  let stale := (d.snapList b).any (fun e => e.2.2 == 1) && decide (r.slotVersion < r.srcVersion)
  if stale then (d.takeRecord b r.slotRec).restoreEnd b stShardVersion r.slotVersion
  else (d.takeRecord b r.live).restoreEnd b stOk r.srcVersion

/-- The next chunk is read, or the refill ends. -/
def Dev.refillNext (d : Dev) (b : Nat) : Dev :=
  match (d.fltBay b).refill with
  | none => d
  | some r => match r.left with
    | c :: _ => d.readChunk b c r
    | [] => d.refillFinish b r

/-- A received REFILL_REPLY (R367, R369): an accepting source is read, chunk by chunk, but for the chunks the refill journal
shows at the same version; a refusal leads to the next source; a reply of the target ends the source's hold. -/
def Dev.refillReply (d : Dev) (pkt : Packet) : Dev :=
  let src := pkt.src.toNat
  (List.range 8).foldl (fun d b =>
    let u := d.fltBay b
    if d.tagOf b != pkt.tag.toNat || d.bayState b == bayEmpty then d
    else if u.holder == some src then (d.putFltBay b { u with holder := none }).set (FLT_BAY_STATE.refill_hold b) 0
    else
      match u.refill with
      | some r =>
        if r.src != some src || d.get (FLT_BAY_STATE.refill b) != 1 then d
        else if pktNum pkt 25 1 != 0 then d.nextSource b
        else
          let v := pktNum pkt 28 8
          let n := ((d.hbmPages b).length + 16383) / 16384
          let keep := u.chunks.filter fun e => e.2.2 == v
          let r := { r with srcVersion := v, slotVersion := pktNum pkt 36 8, slotBase := pktNum pkt 44 8
                            left := (List.range n).filter fun c => !keep.any fun e => e.1 == c
                            live := pkt.payload.take 64, slotRec := (pkt.payload.drop 64).take 64 }
          ((d.putFltBay b { u with refill := some r, chunks := keep }).sets
            [(FLT_BAY_STATE.refill b, 2), (FLT_BAY_STATE.chunks_done b, keep.length)]).refillNext b
      | none => d) d

/-- REFILL_REPLY: R367. -/
def execRefillReply (s : State) : Host.Outcome State Fault Refusal :=
  onDev s fun d => d.control 0x15 fun d pkt => d.refillReply pkt

/-- A packet of a refill has been answered: with the last of its chunk the refill journal gains an entry (R367). -/
def Dev.refillAdvance (d : Dev) (b c : Nat) : Dev :=
  match (d.fltBay b).refill with
  | none => d
  | some r =>
    if r.left.head? != some c || (d.owing fun o => match o with | .refill b' c' _ => b' == b && c' == c | _ => false) then d
    else
      let u := d.fltBay b
      let d := d.putFltBay b { u with chunks := u.chunks ++ [(c, r.src.getD 0, r.srcVersion)]
                                      refill := some { r with left := r.left.tail } }
      (d.set (FLT_BAY_STATE.chunks_done b) (d.fltBay b).chunks.length).refillNext b

/-- Data read for a refill: listed pages are decrypted under the bay's snapshot key. -/
def Dev.refillData (d : Dev) (b va : Nat) (bytes : List Byte) : Dev :=
  match (d.fltBay b).refill with
  | none => d
  | some r =>
    let page := va / 4096 * 4096
    match d.listPlace b page, d.snapKey b with
    | some i, some k =>
      d.putBayBytes b va (bytes.zipIdx.map fun e =>
        e.1 ^^^ Config.keystreamByte k (2 ^ 32 * r.slotVersion + i) (va - page + e.2))
    | _, _ => d.putBayBytes b va bytes

/-! ### Packets that fail (R294, R295, R340) -/

/-- A TOKEN_REQ to the coordinator fails as target unreachable: until it is heard on the fabric again the request goes over the
management port (R385). -/
def Dev.tokenFails (d : Dev) : Dev :=
  let id := d.get PWR_THAW_STAT.coord_id
  let heard := d.pwr.heard.filter fun e => !(e.dev == id && e.path == 1)
  let d := { d with pwr := { d.pwr with heard := heard, asked := d.pwr.asked.map fun a => (a.1, 0) } }
  let path := if heard.any (fun e => e.dev == id) then 2 else 3
  if d.get PWR_THAW_STAT.path == 1 then d.set PWR_THAW_STAT.path path else d

/-- A packet fails with a code of R133: 1 refused, 2 bad, 4 target unreachable. What it belongs to takes the consequence. -/
def Dev.ownerFails (d : Dev) (o : Owner) (code : Nat) : Dev :=
  match o with
  | .none => d
  | .token => if code = 4 then d.tokenFails else d
  | .dma e id => d.dmaPacketFails e id code
  | .dmaRead e id _ => d.dmaPacketFails e id code
  | .host c | .hostRead c _ =>
    let d := d.forget fun o => match o with | .host c' => c' == c | .hostRead c' _ => c' == c | _ => false
    d.complete c (if code = 1 then stAccessDenied else if code = 2 then stBadCommand else stInternal) 0
  | .snap b _ => d.snapFail b
  | .coll b t s m =>
    if code = 2 then
      let d := (d.incSat (COL_BAY_COUNT1.count_mismatch b) 1).sets [(COL_BAY_EVENT.count_mismatch b, 1),
        (COL_BAY_STATUS.last_index b, t), (COL_BAY_STATUS.last_error b, 3)]
      d.endStepEarly b stBadCommand
    else d.memberLeaves b t s m
  | .refill b _ _ => d.nextSource b

/-- Packets of the resend area or waiting for it that meet a test fail as target unreachable (R294, R361). -/
def Dev.failPackets (d : Dev) (p : Packet → Bool) : Dev :=
  let l := (d.fab.sent.filter fun e => p e.pkt).map (·.owner) ++ (d.fab.waiting.filter fun e => p e.1).map (·.2)
  let d := ({ d with fab := { d.fab with waiting := d.fab.waiting.filter fun e => !p e.1 } } : Dev).releaseSent fun e => p e.pkt
  l.foldl (fun d o => d.ownerFails o 4) (d.incSat FAB_E2E_STATUS.unreachable l.length)

/-! ### Dead devices and fault notices (R360 to R363) -/

/-- The dead list with one more device; a full list overwrites its oldest entry. -/
def Dev.listDead (d : Dev) (dev time : Nat) : Dev :=
  let l := d.flt.dead ++ [dev]
  let l := if 256 < l.length then l.drop 1 else l
  let d := { d with flt := { d.flt with dead := l, deaths := d.flt.deaths ++ [(dev, d.clk.timeNs)] } }
  (d.sets [(FLT_STATUS.dead_count, l.length), (FLT_DEAD_LAST.dead_id, dev), (FLT_DEAD_LAST.time, time % 2 ^ 48)]).emit
    (.telemetry 5 [dev])

/-- A device is in the bay's replica set (R353). -/
def Dev.inReplicaSet (d : Dev) (b dev : Nat) : Bool :=
  (List.range (d.get (FLT_BAY_REPSET.len b))).any fun i =>
    d.bayNat b (d.get (FLT_BAY_REPSET.offset b) + 2 * i) 2 % 32768 == dev

/-- What a kind-0 notice for a device not yet listed does (R354, R361, R365, R369). -/
def Dev.deadEffects (d : Dev) (dev : Nat) : Dev :=
  let d := d.failPackets fun p => p.dst.toNat == dev && !p.broadcast && !p.multicast
  let d := d.deadMember dev
  (List.range 8).foldl (fun d b =>
    let d := (List.range 2).foldl (fun d i =>
      if d.sisterOf b i == some dev && d.bindState b i != biNone then d.setBind b i biGone else d) d
    let d := if (d.fltBay b).holder == some dev then
        (d.putFltBay b { d.fltBay b with holder := none }).set (FLT_BAY_STATE.refill_hold b) 0 else d
    let d := match (d.fltBay b).refill with
      | some r => if r.src == some dev then d.nextSource b else d
      | none => d
    if d.bayState b == bayRaised && d.inReplicaSet b dev then d.dropOut b else d) d

/-- On any notice each destination acknowledges the streams with gaps, and the resend timer starts (R362). -/
def Dev.noticeResend (d : Dev) : Dev :=
  let gaps := d.fab.rx.filter fun e => !e.2.beyond.isEmpty
  let d := gaps.foldl (fun d e => d.sendAck (e.1 / 8) (e.1 % 8)) d
  { d with flt := { d.flt with timers := d.flt.timers ++ [d.clk.timeNs] } }

/-- A device is named dead (R361), or this device is, which fences it (R363). -/
def Dev.nameDead (d : Dev) (dev time : Nat) : Dev :=
  if dev == d.myId then
    (List.range 8).foldl (fun d b => d.dropOut b) (d.set FLT_STATUS.fenced 1)
  else if d.isDead dev then d.incSat FLT_STATUS.dup_notices 1
  else (d.listDead dev time).deadEffects dev

/-- A FAULT_NOTICE of this device is broadcast to the whole system (R360); a notice of kind 1 names its reporter. The device acts on
it as on one received (R362). -/
def Dev.sendNotice (d : Dev) (kind dev port : Nat) : Dev :=
  let n := d.flt.noticeSeq
  let d := ({ d with flt := { d.flt with noticeSeq := (n + 1) % 2 ^ 32 } } : Dev).noticeResend
  d.broadcast 0 (d.mkControl 0 0x10 [(25, 1, kind), (26, 2, if kind = 1 then d.myId else dev), (28, 2, d.myId), (30, 1, port),
    (32, 8, d.gtime), (40, 4, n)])

/-- A device declares a peer dead in the domain (R360). -/
def Dev.declareDead (d : Dev) (dev port : Nat) : Dev :=
  if d.isDead dev then d else (d.nameDead dev d.gtime).sendNotice 0 dev port

/-- A received FAULT_NOTICE (R361 to R363). -/
def Dev.faultNotice (d : Dev) (pkt : Packet) : Dev :=
  let d := if pktNum pkt 25 1 = 0 then d.nameDead (pktNum pkt 26 2 % 32768) (pktNum pkt 32 8)
    else d.incSat FLT_STATUS.link_notices 1
  d.noticeResend

/-- FAULT_NOTICE: R361. -/
def execFaultNotice (s : State) : Host.Outcome State Fault Refusal :=
  onDev s fun d => d.onPacket opControl (some 0x10) fun d _ pkt => d.faultNotice pkt

/-- A held packet is sent again on a route chosen afresh. -/
def Dev.resend (d : Dev) (e : SentPkt) : Dev :=
  ({ d with fab := { d.fab with sent := d.fab.sent.map fun x => if x == e then { x with sentNs := d.clk.timeNs } else x } } : Dev).sendRouted
    e.pkt

/-- 6 µs after a notice, every packet sent before it and not acknowledged is sent again, but for dead targets (R362). -/
def Dev.faultTimer (d : Dev) : Dev :=
  match d.flt.timers with
  | [] => d
  | t :: rest =>
    if d.clk.timeNs < t + 6000 then d
    else
      let d := { d with flt := { d.flt with timers := rest } }
      (d.fab.sent.filter fun e => decide (e.sentNs < t) && !d.isDead e.pkt.dst.toNat).foldl (fun d e => d.resend e) d

/-- FAULT_RESEND_TIMER: R362. -/
def execFaultResendTimer (s : State) : Host.Outcome State Fault Refusal := onDev s fun d => d.faultTimer

/-! ### Drop-out and steps (R365, R366) -/

/-- Action 5: a bay whose edge has come drops out (R365). -/
def Dev.dropAtEdge (d : Dev) (b : Nat) : Dev :=
  match (d.fltBay b).dropEdge with
  | none => d
  | some e =>
    if d.tick < e then d
    else
      let d := d.putFltBay b { d.fltBay b with dropEdge := none }
      let d := d.sets [(FLT_BAY_STATE.dropped b, 1), (FLT_BAY_EVENT.dropped b, 1)]
      let d := d.leaveAll b true
      let d := match (d.bayU b).step with
        | some r => (d.putBay b { d.bayU b with step := some { r with preempted := true } }).endStepEarly b stFaultAbsorbed
        | none => d
      (List.range 8).foldl (fun d c =>
        let u := d.ctxU (8 * b + c)
        d.putCtx (8 * b + c) { u with pre := u.pre.map fun r => { r with early := some stFaultAbsorbed } }) d

/-- Software lets a dropped bay run STEPs again (R365). -/
def Dev.clearDropped (d : Dev) (b : Nat) : Dev := d.set (FLT_BAY_STATE.dropped b) 0

/-- A device leaves the dead list, and its slots are released (R355). -/
def Dev.deadClear (d : Dev) (dev : Nat) : Dev :=
  let d := d.dropSlots fun s => s.dev == dev
  let l := d.flt.dead.filter (· != dev)
  ({ d with flt := { d.flt with dead := l } } : Dev).set FLT_STATUS.dead_count l.length

/-- What FLT keeps of a bay goes when it is struck: its snapshot, its binds, its refill (R355, R357, R367). -/
def Dev.fltStrike (d : Dev) (b : Nat) : Dev :=
  let d := d.snapFail b
  let d := d.endSnapCmds (d.fltBay b).cmds stStruck 0
  let d := d.restoreEnd b stStruck 0
  let d := (d.sendUnbind b 0).sendUnbind b 1
  let d := match (d.fltBay b).holder with
    | some src => d.sendRefillReply src (d.tagOf b) 1 0 0 0 []
    | none => d
  let d := d.putFltBay b FltBay.reset
  ((d.wr (FLT_BAY_STATE.off b) (resetWord (FLT_BAY_STATE.off b))).wr (FLT_BAY_SNAPSTAT.off b)
    (resetWord (FLT_BAY_SNAPSTAT.off b))).wr (FLT_BAY_CADENCE.off b) (resetWord (FLT_BAY_CADENCE.off b))

end Sys2Proof.Machine
end

