-- ==== Sys2Proof/Machine/Sync.lean ====
section
/-! DEFINITION. Tick master election and synchronisation, the handshake record, discovery by port path
(spec/13_fabric_addressing_and_routing.md, R306 to R311, R319 to R324; spec/02_the_tick.md, R25, R36 to R38). -/

namespace Sys2Proof.Machine

/-! ### The handshake record (R281) -/

/-- The handshake record of a port, as one little-endian number of 48 bytes; `acc` is its match flag. -/
def Dev.record (d : Dev) (p : Nat) (acc : Bool) : Nat :=
  let flags := (d.get FAB_ID.id_valid) + 2 * d.get TCK_STATUS.master + 4 * d.get TCK_STATUS.synced + 8 * acc.toNat
  ofBytes (toBytes 1 1 ++ toBytes 1 flags ++ toBytes 2 0x0096 ++ toBytes 1 (d.get GLB_IDENT.stepping) ++ toBytes 1 p ++
    toBytes 1 (d.get (FABP_CFG.face p)) ++ toBytes 1 (d.get (FABP_STATUS.lane_mask p)) ++ toBytes 8 (d.get GLB_SERIAL.serial) ++
    toBytes 4 (d.get (GLB_FW_CORE.fw_level 0)) ++ toBytes 2 d.myId ++ toBytes 2 (d.get FAB_ID.system_id) ++
    toBytes 2 (d.get FAB_ID.domain_id) ++ toBytes 2 d.board.rack ++ toBytes 1 (d.get GLB_STRAPS.slot_id) ++
    toBytes 1 (d.get GLB_STRAPS.feed_id))

/-- n bytes of the peer's last record from byte lo. -/
def Dev.peerNum (d : Dev) (p lo n : Nat) : Nat :=
  (((List.range 6).foldl (fun v i => v + d.get (FABP_PEER.record p i) * 2 ^ (64 * i)) 0) >>> (8 * lo)) % 2 ^ (8 * n)

/-- The device ID of the peer of a DIRECT port, where its record has one. -/
def Dev.peerId (d : Dev) (p : Nat) : Option Nat :=
  if d.peerNum p 1 1 % 2 = 1 then some (d.peerNum p 20 2 % 32768) else none

/-- The 848 bytes of a DISCOVER_REPLY (R311), with the record of the port that it leaves on. -/
def Dev.discoverPayload (d : Dev) (a : Nat) : List Byte :=
  toBytes 48 (d.record a false) ++ (List.range 50).flatMap fun p =>
    toBytes 1 (d.portState p) ++ toBytes 1 (d.get (FABP_CFG.face p)) ++ toBytes 1 (d.get (FABP_CFG.mode p)) ++
      toBytes 1 (d.get (FABP_STATUS.lane_mask p)) ++ toBytes 1 (d.peerNum p 5 1) ++ toBytes 1 (d.peerNum p 6 1) ++ toBytes 2 0 ++
      toBytes 8 (d.peerNum p 8 8)

/-- The record of a port goes to its peer: in a HANDSHAKE flit, or on an ETHERNET port in a discovery packet to each peer that the
fabric manager names (R281, R283). -/
def Dev.sendRecord (d : Dev) (p : Nat) : Dev :=
  let r := d.record p (d.port p).accepted
  let d := d.updPort p fun u => { u with lastRecord := r, recordNs := d.clk.timeNs }
  if d.isEthernet p then
    (d.hbPeersOf p).foldl (fun d q =>
      d.toPort p (d.macOf p q) (d.mkControl q 0x05 [(25, 1, 0), (26, 1, 0)] (d.discoverPayload p))) d
  else d.emit (.flit p 0xB (toBytes 48 r))

/-- The record goes out again on every ACTIVE port after a change of FAB_ID (R307). -/
def Dev.resendRecords (d : Dev) : Dev :=
  (List.range 50).foldl (fun d p => if d.portState p == psActive then d.sendRecord p else d) d

/-! ### Election (R319, R320, R323) -/

/-- The announce interval in ns. -/
def Dev.announceNs (d : Dev) : Nat := 1000000 * d.get TCK_SYNC_CFG.announce_ms

/-- The master flag ends: synced is cleared, with its event (R36). -/
def Dev.clearSynced (d : Dev) : Dev :=
  if d.flag TCK_STATUS.synced then d.sets [(TCK_STATUS.synced, 0), (TCK_EVENT.sync_lost, 1)] else d

/-- A key as one number, in the order of R319. -/
def keyNum (prio noPps id : Nat) : Nat := 65536 * prio + 32768 * noPps + id

def Ann.key (a : Ann) : Nat := keyNum a.prio a.noPps a.id

/-- The device's own key, if it is a candidate; a candidate waits three announce intervals after synchronisation begins. -/
def Dev.ownKey (d : Dev) : Option Nat :=
  match d.fab.sync.begun with
  | some t =>
    if d.flag TCK_SYNC_CFG.master_en && d.get FAB_ID.domain_id != 0 && decide (t + 3 * d.announceNs ≤ d.clk.timeNs) then
      some (keyNum (d.get TCK_SYNC_CFG.master_prio) (1 - d.get GLB_STATUS.pps_present) d.myId)
    else none
  | none => none

/-- The announcements that count, by port and sender: heard within three intervals, at most 62 hops, on a live port. -/
def Dev.liveAnns (d : Dev) : List (Nat × Ann) :=
  if d.fab.sync.begun.isNone || d.get FAB_ID.domain_id == 0 then []
  else d.fab.sync.anns.filterMap fun e =>
    match e.2 with
    | some a =>
      let p := e.1 / 32768
      if decide (d.clk.timeNs ≤ a.ns + 3 * d.announceNs) && decide (a.dist ≤ 62) && d.portLive p &&
          !(d.port p).deadPeers.contains a.sender then some (p, a)
      else none
    | none => none

/-- The parent among announcements of the best key: the least distance, then the lower port. -/
def bestParent : List (Nat × Ann) → Option (Nat × Ann)
  | [] => none
  | x :: xs => some (xs.foldl (fun m y =>
      if keyNum y.2.prio y.2.noPps y.2.id < keyNum m.2.prio m.2.noPps m.2.id ||
        (y.2.key == m.2.key && (decide (y.2.dist < m.2.dist) || (y.2.dist == m.2.dist && decide (y.1 < m.1)))) then y else m) x)

/-- guard_short, where a follower's bound is longer than the domain's and the guard in effect is shorter than 8 times that bound,
3.2 µs (R23, R38; TCK_EVENT). -/
def Dev.checkGuard (d : Dev) : Dev :=
  let short := !d.flag TCK_STATUS.master && d.flag TCK_STATUS.skew_class && !d.flag TCK_PERIOD.skew_domain &&
    decide (10 * d.get TCK_PERIOD.period_us * d.get TCK_PERIOD.guard_pct < 3200)
  let was := d.fab.sync.short
  let d := { d with fab := { d.fab with sync := { d.fab.sync with short := short } } }
  if short && !was then ((d.set TCK_EVENT.guard_short 1).emit (.telemetry 6 [])).clearSynced else d

/-- The choice of master and parent (R320), with what the registers show of it (R323). -/
def Dev.chooseMaster (d : Dev) : Dev :=
  let best := bestParent d.liveAnns
  let own := match d.ownKey, best with
    | some k, some b => decide (k ≤ b.2.key)
    | some _, none => true
    | none, _ => false
  if own then
    let d := d.sets [(TCK_STATUS.master, 1), (TCK_STATUS.master_id, d.myId), (TCK_STATUS.skew_class, 0), (TCK_STATUS.synced, 1),
      (TCK_SYNC_STATUS.parent_port, 0x3F), (TCK_SYNC_STATUS.distance, 0), (TCK_SYNC_STATUS.path_non_tc, 0),
      (TCK_SYNC_STATUS.master_prio, d.get TCK_SYNC_CFG.master_prio), (TCK_SYNC_STATUS.master_pps, d.get GLB_STATUS.pps_present)]
    ({ d with fab := { d.fab with sync := { d.fab.sync with everSynced := true } } } : Dev).checkGuard
  else
    match best with
    | some (p, a) =>
      let path := a.nonTc || (d.isEthernet p && !d.bitOf TCK_TC_PORTS.tc p)
      let d := d.sets [(TCK_STATUS.master, 0), (TCK_STATUS.master_id, a.id), (TCK_STATUS.skew_class, path.toNat),
        (TCK_STATUS.pps_aligned, 0), (TCK_SYNC_STATUS.parent_port, p), (TCK_SYNC_STATUS.distance, a.dist + 1),
        (TCK_SYNC_STATUS.path_non_tc, path.toNat), (TCK_SYNC_STATUS.master_prio, a.prio), (TCK_SYNC_STATUS.master_pps, 1 - a.noPps)]
      ({ d with fab := { d.fab with sync := { d.fab.sync with parentId := a.sender } } } : Dev).checkGuard
    | none =>
      let d := d.sets [(TCK_STATUS.master, 0), (TCK_STATUS.master_id, 0), (TCK_STATUS.skew_class, 0), (TCK_STATUS.pps_aligned, 0),
        (TCK_SYNC_STATUS.parent_port, 0x3F), (TCK_SYNC_STATUS.distance, 0), (TCK_SYNC_STATUS.path_non_tc, 0),
        (TCK_SYNC_STATUS.master_prio, 0), (TCK_SYNC_STATUS.master_pps, 0)]
      d.clearSynced.checkGuard

/-- A received ANNOUNCE (R319, R320); a device of no domain accepts none. -/
def Dev.announce (d : Dev) (p : Nat) (pkt : Packet) : Dev :=
  if d.get FAB_ID.domain_id == 0 then d
  else
    let fl := pktNum pkt 25 1
    let a : Ann := { prio := pktNum pkt 26 1, noPps := if fl.testBit 1 then 0 else 1, id := pktNum pkt 28 2 % 32768,
                     dist := pktNum pkt 27 1, nonTc := fl.testBit 0, sender := pktNum pkt 30 2 % 32768, ns := d.clk.timeNs }
    let s := d.fab.sync
    let d := { d with fab := { d.fab with sync := { s with anns := Tab.put (fun _ => none) s.anns (32768 * p + a.sender) (some a) } } }
    d.chooseMaster

/-- ANNOUNCE: R319, R320. -/
def execAnnounce (s : State) : Host.Outcome State Fault Refusal :=
  onDev s fun d => d.onPacket opControl (some 1) fun d p pkt => d.announce p pkt

/-- The ANNOUNCE of this device: the best key it knows and its distance to that device (R319). -/
def Dev.announcePacket (d : Dev) : Packet :=
  let fl := d.get TCK_SYNC_STATUS.path_non_tc + 2 * d.get TCK_SYNC_STATUS.master_pps
  d.mkControl 0 0x01 [(25, 1, fl), (26, 1, d.get TCK_SYNC_STATUS.master_prio), (27, 1, d.get TCK_SYNC_STATUS.distance),
    (28, 2, d.get TCK_STATUS.master_id), (30, 2, d.myId), (32, 4, d.fab.sync.annSeq)]

/-- A best key is known: this device is master or has a parent. -/
def Dev.knowsKey (d : Dev) : Bool := d.flag TCK_STATUS.master || d.get TCK_SYNC_STATUS.parent_port != 0x3F

/-- An ANNOUNCE goes out on one ACTIVE port of each face whose peer is of the domain, and to the named peers of ETHERNET ports
(R319). -/
def Dev.sendAnnounce (d : Dev) : Dev :=
  let pkt := d.announcePacket
  let d := { d with fab := { d.fab with sync := { d.fab.sync with
    annNs := d.clk.timeNs, annSeq := (d.fab.sync.annSeq + 1) % 2 ^ 32 } } }
  let d := (List.range 7).foldl (fun d f =>
    match (d.faceLive f).find? fun p => d.peerNum p 24 2 == d.get FAB_ID.domain_id with
    | some p => d.toPort p 0 pkt
    | none => d) d
  (List.range 50).foldl (fun d p =>
    if d.isEthernet p && d.portLive p then (d.hbPeersOf p).foldl (fun d q => d.toPort p (d.macOf p q) pkt) d else d) d

/-- Every announce interval the choice of R320 is made again, so that a change of the device's own key counts, and the best key
goes out (R319). -/
def Dev.announceSend (d : Dev) : Dev :=
  let s := d.fab.sync
  if s.begun.isNone || d.get FAB_ID.domain_id == 0 || decide (d.clk.timeNs < s.annNs + d.announceNs) then d
  else
    let d := d.chooseMaster
    if d.knowsKey then d.sendAnnounce else d

/-- ANNOUNCE_SEND: R319. -/
def execAnnounceSend (s : State) : Host.Outcome State Fault Refusal := onDev s fun d => d.announceSend

/-- A key not heard for three announce intervals no longer counts, and the choice is made again (R320). -/
def Dev.ageOut (d : Dev) : Dev :=
  let s := d.fab.sync
  let keep := s.anns.filter fun e => match e.2 with
    | some a => decide (d.clk.timeNs ≤ a.ns + 3 * d.announceNs)
    | none => false
  ({ d with fab := { d.fab with sync := { s with anns := keep } } } : Dev).chooseMaster

/-- ANNOUNCE_AGE_OUT: R320. -/
def execAnnounceAgeOut (s : State) : Host.Outcome State Fault Refusal := onDev s fun d => d.ageOut

/-! ### Measurement (R321, R322, R36) -/

/-- The 32 bytes that tell a child the edges of its parent (R321); the skew domain stands in bit 6 of each guard byte, as in
TCK_PERIOD. -/
def Dev.edgePayload (d : Dev) : List Byte :=
  let per := d.get TCK_PERIOD.period_us
  let lastEdge := d.gtime + d.clk.nextEdgeNs - d.clk.timeNs - 1000 * per
  let (ct, cp, cg) := match d.jt.timing with
    | some t => (t.tick, t.period, t.guard + 64 * t.skew)
    | none => (0, 0, 0)
  toBytes 8 lastEdge ++ toBytes 6 d.tick ++ toBytes 2 per ++
    toBytes 1 (d.get TCK_PERIOD.guard_pct + 64 * d.get TCK_PERIOD.skew_domain) ++ toBytes 1 0 ++ toBytes 6 ct ++ toBytes 2 cp ++
    toBytes 1 cg ++ toBytes 5 0

/-- A measurement is due to a parent on a DIRECT port; to the named peers of ETHERNET ports goes a Sync and a SYNC_RESP with
the edges (R321, R322). -/
def Dev.syncMeasure (d : Dev) : Dev :=
  let s := d.fab.sync
  if s.begun.isNone || d.get FAB_ID.domain_id == 0 ||
      decide (d.clk.timeNs < s.measNs + 1000 * d.get TCK_SYNC_CFG.sync_interval_us) then d
  else
    let d := { d with fab := { d.fab with sync := { s with measNs := d.clk.timeNs } } }
    let p := d.get TCK_SYNC_STATUS.parent_port
    let d := if d.flag TCK_STATUS.master || p == 0x3F || !d.isDirect p then d
      else d.toPort p 0 (d.mkControl 0 0x02 [])
    (List.range 50).foldl (fun d p =>
      if d.isEthernet p && d.portLive p then
        (d.hbPeersOf p).foldl (fun d q =>
          (d.emit (.ptp p (d.macOf p q) (d.get TCK_SYNC_CFG.ptp_domain) 0 d.gtime)).toPort p (d.macOf p q) (d.mkControl q 0x03 [] d.edgePayload)) d
      else d) d

/-- SYNC_MEASURE: R321, R322. -/
def execSyncMeasure (s : State) : Host.Outcome State Fault Refusal := onDev s fun d => d.syncMeasure

/-- SYNC_REQ (R321): answered on the port it came on, with the parent's timestamps t2 and t3. -/
def execSyncReq (t2 t3 : BitVec 64) (s : State) : Host.Outcome State Fault Refusal :=
  onDev s fun d => d.onPacket opControl (some 2) fun d p pkt =>
    if d.isDirect p then
      d.toPort p 0 (d.mkControl pkt.src.toNat 0x03 [(28, 8, pktNum pkt 28 8), (36, 8, t2.toNat), (44, 8, t3.toNat)] d.edgePayload)
    else d.incSat FAB_ROUTE_STAT.ctl_drop 1

/-- No step runs in any bay. -/
def Dev.noStep (d : Dev) : Bool := (List.range 8).all fun b => (d.bayU b).step.isNone

/-- Global time moved by a correction. -/
def Dev.shiftTime (d : Dev) (o : Int) : Dev := d.set TCK_TIME.time_ns ((d.gtime : Int) + o).toNat

/-- One measurement of the offset to the parent (R36, R38): shown, judged against the bound, and corrected. -/
def Dev.measured (d : Dev) (o : Int) : Dev :=
  let bound : Int := if d.flag TCK_STATUS.skew_class then 400 else 40
  let inside := decide (o.natAbs ≤ bound.natAbs)
  let d := d.set TCK_OFFSET.offset_ns (o % 2 ^ 32).toNat
  let d := if inside then d.incSat TCK_SYNC_STATUS.in_bound 1 else d.set TCK_SYNC_STATUS.in_bound 0
  let out := if inside then 0 else d.fab.sync.outside + 1
  let d := { d with fab := { d.fab with sync := { d.fab.sync with outside := out } } }
  let d := if 8 ≤ out then d.clearSynced else d
  let d := if 8 ≤ d.get TCK_SYNC_STATUS.in_bound && !d.fab.sync.short then d.set TCK_STATUS.synced 1 else d
  if 1000 < o.natAbs then { d with fab := { d.fab with sync := { d.fab.sync with jump := some o } } }
  else
    let d := { d with fab := { d.fab with sync := { d.fab.sync with jump := none } } }
    let (n, d) := d.fresh
    let f := (Config.freqAdj n).toInt
    d.set TCK_OFFSET.freq_adj ((max (-20000) (min 20000 f)) % 65536).toNat

/-- The child takes period, guard and skew domain, and a pending change, from its parent; while it is not synced and runs no
step it takes the edges and the tick number too (R25, R36, R38, R321). -/
def Dev.takeEdges (d : Dev) (pay : List Byte) : Dev :=
  let f (lo n : Nat) : Nat := ofBytes ((pay.drop lo).take n)
  let d := if f 14 2 = 0 then d
    else
      let w := insField (insField (insField (d.rd TCK_PERIOD.off) 0 14 (f 14 2)) 16 6 (f 16 1 % 64)) 22 1 (f 16 1 / 64)
      if w = d.rd TCK_PERIOD.off then d
      else ((d.wrJ 0x50 TCK_PERIOD.off w).set TCK_EVENT.period_changed 1).checkGuard
  let d := if f 18 6 = 0 || decide (f 18 6 ≤ d.tick) then d
    else { d with jt := { d.jt with timing := some { period := f 24 2, guard := f 26 1 % 64, skew := f 26 1 / 64, tick := f 18 6 } } }
  if d.flag TCK_STATUS.synced || !d.noStep then d
  else
    let per := max 1 (1000 * d.get TCK_PERIOD.period_us)
    let k := (d.gtime - f 0 8) / per
    let next := f 0 8 + (k + 1) * per
    ({ d with clk := { d.clk with nextEdgeNs := d.clk.timeNs + (next - d.gtime), setClosed := false } }).set TCK_TICK.tick (f 8 6 + k)

/-- A measurement with its edges, where they have been told: the first ever moves global time in one jump (R25). -/
def Dev.syncTo (d : Dev) (o : Int) (pay : List Byte) : Dev :=
  let d := d.measured o
  let d := if d.fab.sync.everSynced then d
    else ({ d with fab := { d.fab with sync := { d.fab.sync with everSynced := true, jump := none } } } : Dev).shiftTime o
  if pay.isEmpty then d else d.takeEdges pay

/-- A received SYNC_RESP (R321, R322): on a DIRECT parent port it completes the measurement under way; on an ETHERNET parent port
it brings the edges, which are kept until the first measurement has given the time they are told in (R25). -/
def Dev.syncResp (d : Dev) (p : Nat) (pkt : Packet) (t4 : Nat) : Dev :=
  if d.flag TCK_STATUS.master || d.get TCK_SYNC_STATUS.parent_port != p then d
  else if d.isDirect p then
    match d.fab.sync.req with
    | some (q, t1) =>
      if q != p || pktNum pkt 28 8 != t1 then d
      else
        let t2 := pktNum pkt 36 8
        let t3 := pktNum pkt 44 8
        let o : Int := (((t2 : Int) - t1) - ((t4 : Int) - t3)) / 2
        (({ d with fab := { d.fab with sync := { d.fab.sync with req := none } } } : Dev).syncTo o) pkt.payload
    | none => d
  else if pkt.src.toNat == d.fab.sync.parentId then
    if d.fab.sync.everSynced then d.takeEdges pkt.payload
    else { d with fab := { d.fab with sync := { d.fab.sync with edges := pkt.payload } } }
  else d

/-- SYNC_RESP: R321; t4 is its arrival time. -/
def execSyncResp (t4 : BitVec 64) (s : State) : Host.Outcome State Fault Refusal :=
  onDev s fun d => d.onPacket opControl (some 3) fun d p pkt => d.syncResp p pkt t4.toNat

/-- SYNC (R322): a one-step Sync of the parent on an ETHERNET port, with t1, its correctionField and its arrival time t2; a
Delay_Req follows. -/
def execSyncMsg (port : FabPort) (t1 corr t2 : BitVec 64) (s : State) : Host.Outcome State Fault Refusal :=
  onDev s fun d =>
    if d.flag TCK_STATUS.master || d.get TCK_SYNC_STATUS.parent_port != port.val || !d.isEthernet port.val then d
    else
      ({ d with fab := { d.fab with sync := { d.fab.sync with ptp := some (t1.toNat + corr.toNat, t2.toNat),
                                                              delayT3 := some d.gtime } } } : Dev).emit
        (.ptp port.val (d.macOf port.val d.fab.sync.parentId) (d.get TCK_SYNC_CFG.ptp_domain) 1 d.gtime)

/-- DELAY_REQ (R322): answered to its source address with Delay_Resp, which carries the arrival time t4. -/
def execDelayReq (port : FabPort) (req : PtpReq) (s : State) : Host.Outcome State Fault Refusal :=
  onDev s fun d =>
    if d.isEthernet port.val && d.portLive port.val then
      d.emit (.ptp port.val req.src.toNat (d.get TCK_SYNC_CFG.ptp_domain) 9 req.t4.toNat)
    else d

/-- DELAY_RESP (R322): with t1, t2 and t3 it completes the measurement; each event message's correctionField is added to its
timestamp. -/
def Dev.delayResp (d : Dev) (p : Nat) (t4 corr : Nat) : Dev :=
  if d.flag TCK_STATUS.master || d.get TCK_SYNC_STATUS.parent_port != p || !d.isEthernet p then d
  else
    match d.fab.sync.ptp, d.fab.sync.delayT3 with
    | some (t1, t2), some t3 =>
      let o : Int := (((t4 : Int) - (t3 + corr)) - ((t2 : Int) - t1)) / 2
      let d := { d with fab := { d.fab with sync := { d.fab.sync with ptp := none, delayT3 := none } } }
      if d.fab.sync.everSynced then d.measured o else d.syncTo o d.fab.sync.edges
    | _, _ => d

/-- DELAY_RESP: R322. -/
def execDelayResp (port : FabPort) (t4 corr : BitVec 64) (s : State) : Host.Outcome State Fault Refusal :=
  onDev s fun d => d.delayResp port.val t4.toNat corr.toNat

/-- The next edge moved with a jump of global time, whose instants the edges stand at. -/
def Dev.shiftEdge (d : Dev) (o : Int) : Dev :=
  { d with clk := { d.clk with nextEdgeNs := max d.clk.timeNs ((d.clk.nextEdgeNs : Int) - o).toNat } }

/-- Action of an edge at which no step runs: a waiting correction of more than 1 µs is made in one jump, of global time and so of
the edges (R36). -/
def Dev.jumpAtEdge (d : Dev) : Dev :=
  match d.fab.sync.jump with
  | some o =>
    if d.noStep then (({ d with fab := { d.fab with sync := { d.fab.sync with jump := none } } } : Dev).shiftTime o).shiftEdge o
    else d
  | none => d

/-! ### PPS (R324, R491) -/

/-- A pulse: the master steers towards whole seconds, and is aligned after three pulses within 40 ns of one (R324). -/
def Dev.ppsPulse (d : Dev) : Dev :=
  let d := ({ d with fab := { d.fab with sync := { d.fab.sync with ppsNs := some d.clk.timeNs } } } : Dev).set GLB_STATUS.pps_present 1
  let d := d.chooseMaster
  if !d.flag TCK_STATUS.master then d
  else
    let r := d.gtime % 1000000000
    let good := if min r (1000000000 - r) ≤ 40 then d.fab.sync.ppsGood + 1 else 0
    let d := { d with fab := { d.fab with sync := { d.fab.sync with ppsGood := good } } }
    let (n, d) := d.fresh
    let f := (Config.freqAdj n).toInt
    d.sets [(TCK_STATUS.pps_aligned, (decide (3 ≤ good)).toNat),
      (TCK_OFFSET.freq_adj, ((max (-20000) (min 20000 f)) % 65536).toNat)]

/-- PPS_PULSE: R324. -/
def execPpsPulse (s : State) : Host.Outcome State Fault Refusal := onDev s fun d => d.ppsPulse

/-- Two seconds after the last pulse pps_present clears, and the key loses its preference (R491, R319). -/
def Dev.ppsAbsent (d : Dev) : Dev :=
  match d.fab.sync.ppsNs with
  | some t =>
    if d.clk.timeNs < t + 2000000000 then d
    else
      (({ d with fab := { d.fab with sync := { d.fab.sync with ppsNs := none, ppsGood := 0 } } } : Dev).sets
        [(GLB_STATUS.pps_present, 0), (TCK_STATUS.pps_aligned, 0)]).chooseMaster
  | none => d

/-- PPS_ABSENT: R491. -/
def execPpsAbsent (s : State) : Host.Outcome State Fault Refusal := onDev s fun d => d.ppsAbsent

/-! ### Discovery by port path (R310, R311) -/

/-- Byte 27 + i of a packet's port path replaced. -/
def setPath (spec : BitVec 288) (i v : Nat) : BitVec 288 :=
  let lo := 8 * (3 + i)
  BitVec.ofNat 288 (spec.toNat % 2 ^ lo + v * 2 ^ lo + (spec.toNat >>> (lo + 8)) * 2 ^ (lo + 8))

/-- The position of a source-routed packet replaced. -/
def setPos (spec : BitVec 288) (v : Nat) : BitVec 288 :=
  BitVec.ofNat 288 (spec.toNat % 2 ^ 16 + 2 ^ 16 * v + (spec.toNat >>> 24) * 2 ^ 24)

/-- A source-routed packet that arrived on a port: its target handles it, any other device sends it on (R310). -/
def Dev.sourceRoute (d : Dev) (a : Nat) (pkt : Packet) (target : Dev → Packet → Dev) : Dev :=
  let n := pktNum pkt 25 1
  let pos := pktNum pkt 26 1
  if pos = 0 || decide (n < pos) || decide (32 < n) then d.incSat FAB_ROUTE_STAT.ctl_drop 1
  else
    let next := pktNum pkt (27 + pos) 1
    let q := { pkt with spec := setPath pkt.spec (pos - 1) a }
    if pos = n then target d q
    else if decide (next < 50) && d.isDirect next && (d.portState next == psActive || d.portState next == psQuarantine) then
      d.toPort next 0 { q with spec := setPos q.spec (pos + 1) }
    else d.incSat FAB_ROUTE_STAT.ctl_drop 1

/-- The target of a DISCOVER answers along the reversed path (R311). -/
def Dev.discoverReply (d : Dev) (pkt : Packet) : Dev :=
  let n := pktNum pkt 25 1
  let path := (List.range n).map fun i => pktNum pkt (27 + i) 1
  let back := path.reverse.zipIdx.map fun e => (27 + e.2, 1, e.1)
  d.toPort (path.getLastD 0) 0 (d.mkControl pkt.src.toNat 0x05 ((25, 1, n) :: (26, 1, 1) :: back) (d.discoverPayload (path.getLastD 0)))

end Sys2Proof.Machine
end

