-- ==== Sys2Proof/Machine/Link.lean ====
section
/-! DEFINITION. Fabric ports: bringing up, handshake, link credits and retry, heartbeats, lane retirement
(spec/12_fabric_links.md, R279 to R289, R297, R299, R301; spec/15_fault_tolerance.md, R360, R370). -/

namespace Sys2Proof.Machine

/-- The number of bits set in a mask of 8 lanes. -/
def laneCount (m : Nat) : Nat := ((List.range 8).filter fun l => m.testBit l).length

/-! ### States (R279) -/

/-- A port enters a state: leaving ACTIVE and entering it are events, and queued packets of a port that is no longer live are
routed again (R279, R315). -/
def Dev.setPort (d : Dev) (p st : Nat) : Dev :=
  let old := d.portState p
  let d := (d.set (FABP_STATUS.state p) st).updPort p fun u => { u with stateNs := d.clk.timeNs }
  if st == psActive && old != psActive then
    ((d.sets [(FABP_EVENT.up p, 1), (FABP_STATUS.dead p, 0)]).updPort p fun u =>
      { u with hbNs := some d.clk.timeNs, hbPeers := [], deadPeers := [], hbSentNs := 0, returning := false, reqNs := none })
  else if old == psActive && st != psActive then ((d.set (FABP_EVENT.down p) 1).reroute p).chooseMaster
  else d

/-- The device is reached through a port: the peer of a DIRECT port, a named peer of an ETHERNET port. -/
def Dev.reaches (d : Dev) (p dev : Nat) : Bool :=
  if d.isDirect p then d.peerId p == some dev else if d.isEthernet p then (d.hbPeersOf p).contains dev else false

/-- An ACTIVE port still reaches a device that it has not declared dead. -/
def Dev.stillReaches (d : Dev) (p dev : Nat) : Bool := d.portLive p && d.reaches p dev && !(d.port p).deadPeers.contains dev

/-- A port declares its peer dead (R299): shown, counted, routed around; the device is dead in the domain when no ACTIVE port
still reaches it, and otherwise a notice of kind 1 follows where flits were lost (R360). -/
def Dev.declarePeer (d : Dev) (p : Nat) (dev : Option Nat) : Dev :=
  let lost := !(d.port p).retry.isEmpty
  let d := (d.sets [(FABP_EVENT.dead p, 1), (FABP_STATUS.dead p, 1)]).incSat (FABP_HB.dead_count p) 1
  let d := d.updPort p fun u => if d.isEthernet p then { u with deadPeers := u.deadPeers ++ dev.toList } else { u with hbNs := none }
  let d := (d.reroute p fun e => !d.isEthernet p || dev.any fun q => e.mac == d.macOf p q).chooseMaster
  match dev with
  | none => if lost then d.sendNotice 1 0 p else d
  | some x =>
    if (List.range 50).any fun q => d.stillReaches q x then if lost then d.sendNotice 1 x p else d
    else d.declareDead x p

/-- A port on its way back from WITHDRAWN that falls declares its peer dead at that moment (R299). -/
def Dev.fall (d : Dev) (p st : Nat) : Dev :=
  let u := d.port p
  let d := (d.setPort p st).updPort p fun u => { u with returning := false }
  if u.returning && !u.disabling then d.declarePeer p (d.peerId p) else d

/-- Lanes the board record retires on a port (R301). -/
def Dev.retiredLanes (d : Dev) (p : Nat) : List Nat := (d.board.lanes.filter fun e => e.1 == p).map (·.2)

/-- The FAB domain of a port (R12). -/
def fabDom (p : Nat) : Nat := if p < 25 then 17 else 18

/-- The ports of a FAB domain. -/
def domPorts (dom : Nat) : List Nat := (List.range 50).filter fun p => fabDom p == dom

/-- A FAB domain goes back to IDLE once every port of it is DISABLED with admin_en = 0 (R478). -/
def Dev.fabRest (d : Dev) (dom : Nat) : Dev :=
  if d.get (PWR_DOM.state dom) == 0 && !d.flag (PWR_DOM.moving dom) &&
      (domPorts dom).all fun p => d.portState p == psDisabled && !d.flag (FABP_CFG.admin_en p) then d.moveDomain 0x11 dom 1
  else d

/-- A port with admin_en = 1 and a mode leaves DISABLED once its FAB domain is ACTIVE, which PWR sees to; with admin_en = 0 an
ACTIVE port withdraws and any other is DISABLED (R279, R280, R301, R478). -/
def Dev.portAdmin (d : Dev) (p : Nat) : Dev :=
  let st := d.portState p
  if d.flag (FABP_CFG.admin_en p) then
    if st == psDisabled && (d.isDirect p || d.isEthernet p) then
      if d.get (PWR_DOM.state (fabDom p)) != 0 then d.moveDomain 0x11 (fabDom p) 0
      else (d.updPort p fun u => { u with disabling := false, want := none, retiring := none }).setPort p psDetect
    else d
  else if st == psDisabled then d
  else if st == psWithdrawn then d.updPort p fun u => { u with disabling := true }
  else if st == psActive then
    let d := d.updPort p fun u => { u with disabling := true }
    if d.isDirect p then
      (d.updPort p fun u => { u with want := some 0xFF, reqNs := some d.clk.timeNs }).emit (.flit p 0xC (toBytes 2 0xFF00))
    else d.setPort p psWithdrawn
  else ((d.updPort p fun u => { u with returning := false, disabling := false, want := none, hbNs := none }).setPort p
    psDisabled).fabRest (fabDom p)

/-- Signal is found in DETECT: on 8 lanes, or in DIRECT mode on 7; a lane that the board record retires, or is to retire, is
not used (R279, R301). -/
def Dev.signalDetect (d : Dev) (p lanes : Nat) : Dev :=
  if d.portState p != psDetect then d
  else
    let gone := d.retiredLanes p ++ (d.port p).toRecord.toList
    let use := (List.range 8).foldl (fun m l => if lanes.testBit l && !gone.contains l then m + 2 ^ l else m) 0
    let left := laneCount ((List.range 8).foldl (fun m l => if gone.contains l then m else m + 2 ^ l) 0)
    if left < 7 || (d.isEthernet p && decide (left < 8)) then d.setPort p psFailed
    else if laneCount use = 8 || (d.isDirect p && laneCount use = 7) then
      (d.updPort p fun u => { u with lanes := use }).setPort p psTrain
    else d

/-- PORT_SIGNAL_DETECT: R279. -/
def execPortSignalDetect (port : FabPort) (lanes : BitVec 8) (s : State) : Host.Outcome State Fault Refusal :=
  onDev s fun d => d.signalDetect port.val lanes.toNat

/-- LINK_TRAINING_DONE: R279; the count of consecutive timeouts ends. -/
def execLinkTrainingDone (port : FabPort) (s : State) : Host.Outcome State Fault Refusal :=
  onDev s fun d =>
    let p := port.val
    if d.portState p == psTrain then (d.set (FABP_STATUS.train_fail p) 0).setPort p psAlign
    else if d.portState p == psRetrain then d.setPort p psAlign
    else d

/-- TRAIN_TIMEOUT: R279, R280. -/
def execTrainTimeout (port : FabPort) (s : State) : Host.Outcome State Fault Refusal :=
  onDev s fun d =>
    let p := port.val
    if d.portState p != psTrain || decide (d.clk.timeNs < (d.port p).stateNs + 500000000) then d
    else
      let d := d.incSat (FABP_STATUS.train_fail p) 1
      d.setPort p (if 8 ≤ d.get (FABP_STATUS.train_fail p) then psFailed else psDetect)

/-- ALIGN_DONE: R279; the lanes with lock are the active lanes. -/
def execAlignDone (port : FabPort) (s : State) : Host.Outcome State Fault Refusal :=
  onDev s fun d =>
    let p := port.val
    if d.portState p != psAlign then d
    else
      let d := (d.set (FABP_STATUS.lane_mask p) (d.port p).lanes).setPort p psLinkInit
      if d.isDirect p then d.emit (.initFlits p (d.ownCredits p)) else d

/-- ALIGN_TIMEOUT: R279, R280. -/
def execAlignTimeout (port : FabPort) (s : State) : Host.Outcome State Fault Refusal :=
  onDev s fun d =>
    let p := port.val
    if d.portState p != psAlign || decide (d.clk.timeNs < (d.port p).stateNs + 2000000) then d else d.fall p psDetect

/-- INIT flits are exchanged (R279): credits are those the peer gives, and both sequences start anew. An ETHERNET port is ACTIVE,
and its record goes to the named peers (R283). -/
def Dev.linkInit (d : Dev) (p : Nat) (rsv : List Nat) : Dev :=
  if d.portState p != psLinkInit then d
  else if d.isEthernet p then (d.setPort p psActive).sendRecord p
  else
    let d := d.updPort p fun u =>
      { u with txSeq := 0, rxSeq := 0, unrep := 0, nakSent := false, retry := [], progressNs := d.clk.timeNs,
               peerRsv := rsv ++ [2048 - rsv.foldl (· + ·) 0], used := List.replicate 9 0, lastCum := List.replicate 9 0,
               freed := List.replicate 9 0, owed := false, buffer := [], accepted := false, matched := false }
    (d.setPort p psHandshake).sendRecord p

/-- INIT: R279. -/
def execInitFlits (port : FabPort) (counts : Vector (BitVec 8) 8) (s : State) : Host.Outcome State Fault Refusal :=
  onDev s fun d => d.linkInit port.val (counts.toList.map BitVec.toNat)

/-! ### Handshake (R281, R282) -/

/-- The checks of R282 as the bits of hs_fail; 0 accepts the record. -/
def Dev.recordFails (d : Dev) (p r : Nat) : Nat :=
  let f (lo n : Nat) : Nat := (r >>> (8 * lo)) % 2 ^ (8 * n)
  let face := d.get (FABP_CFG.face p)
  let pf := f 6 1
  let idsOk (a b : Nat) : Bool := a == b || a == 0 || b == 0
  let faceOk := (decide (face < 6) && decide (pf < 6) && pf == face ^^^ 1) || (face == 6 && pf == 6) || face == 7 || pf == 7
  let peersOk := face == 7 || (List.range 50).all fun q =>
    q == p || d.portState q != psActive || d.get (FABP_CFG.face q) != face || !d.isDirect q || d.peerNum q 8 8 == f 8 8
  (if f 2 2 = 0x0096 && f 0 1 = 1 then 0 else 1) + (if faceOk then 0 else 2) +
    (if idsOk (f 22 2) (d.get FAB_ID.system_id) && idsOk (f 24 2) (d.get FAB_ID.domain_id) then 0 else 4) +
    (if f 7 1 = d.get (FABP_STATUS.lane_mask p) then 0 else 8) + (if peersOk then 0 else 16)

/-- Two devices with one ID (R308). -/
def Dev.checkConflict (d : Dev) (r : Nat) : Dev :=
  let f (lo n : Nat) : Nat := (r >>> (8 * lo)) % 2 ^ (8 * n)
  if f 1 1 % 2 = 1 && f 20 2 % 32768 = d.myId && f 8 8 != d.get GLB_SERIAL.serial then
    (d.set FAB_ID.id_conflict 1).emit (.telemetry 7 [d.myId])
  else d

/-- A lane retired at this end is entered in the board record once the port is ACTIVE again (R301). -/
def Dev.recordLane (d : Dev) (p : Nat) : Dev :=
  match (d.port p).toRecord with
  | some l => (d.updPort p fun u => { u with toRecord := none }).fieldUpdate fun b => { b with lanes := b.lanes ++ [(p, l)] }
  | none => d

/-- The binds to a sister start again when its handshake record changes (R354). -/
def Dev.rebind (d : Dev) (r : Nat) : Dev :=
  let dev := (r >>> 160) % 32768
  if !(r.testBit 8) then d
  else (List.range 8).foldl (fun d b => (List.range 2).foldl (fun d i =>
    if d.bayState b == bayRaised && d.sisterOf b i == some dev then d.startBind b i else d) d) d

/-- A received handshake record (R281, R282, R308). -/
def Dev.handshake (d : Dev) (p r : Nat) : Dev :=
  let st := d.portState p
  if !d.isDirect p || !(st == psHandshake || st == psActive || st == psQuarantine) then d
  else
    let same := (List.range 6).all fun i => d.get (FABP_PEER.record p i) == r / 2 ^ (64 * i) % 2 ^ 64
    let d := (List.range 6).foldl (fun d i => d.set (FABP_PEER.record p i) (r / 2 ^ (64 * i))) d
    let d := d.checkConflict r
    let d := if same then d else d.rebind r
    if st != psHandshake then d
    else
      let bad := d.recordFails p r
      let d := (d.set (FABP_STATUS.hs_fail p) bad).updPort p fun u =>
        { u with accepted := bad == 0, matched := (r / 2 ^ 11) % 2 == 1 }
      if bad != 0 then (((d.set (FABP_EVENT.quarantine p) 1).fall p psQuarantine).sendRecord p)
      else
        let d := d.sendRecord p
        if (d.port p).matched then
          let d := (d.updPort p fun u => { u with returning := false }).setPort p psActive
          (d.recordLane p).drainQueue p (d.port p).queue.length
        else d

/-- HANDSHAKE: R282. -/
def execHandshake (port : FabPort) (record : BitVec 384) (s : State) : Host.Outcome State Fault Refusal :=
  onDev s fun d => d.handshake port.val record.toNat

/-- The record goes out every 10 µs in HANDSHAKE, and after a change while ACTIVE; a change also lets a quarantined port try
again (R279, R281). -/
def Dev.handshakeResend (d : Dev) (p : Nat) : Dev :=
  let u := d.port p
  let changed := d.record p u.accepted != u.lastRecord
  if !d.isDirect p then if d.isEthernet p && d.portState p == psActive && changed then d.sendRecord p else d
  else if d.portState p == psHandshake then
    if d.clk.timeNs < u.recordNs + 10000 then d else d.sendRecord p
  else if d.portState p == psActive && changed then d.sendRecord p
  else if d.portState p == psQuarantine && changed then (d.setPort p psHandshake).sendRecord p
  else d

/-- HANDSHAKE_RESEND: R281. -/
def execHandshakeResend (port : FabPort) (s : State) : Host.Outcome State Fault Refusal :=
  onDev s fun d => d.handshakeResend port.val

/-! ### Credits and retry (R286 to R289) -/

/-- The flits that a sequence covers leave the retry buffer; the rest stay. -/
def coverFlits (seq : Nat) (l : List Flit) : List Flit :=
  if l.any fun f => f.seq == seq then ((l.dropWhile fun f => f.seq != seq).drop 1) else l

/-- A received ACK_CREDIT (R286, R287, R288): flits are released, credits come back by the difference of cumulative counts. -/
def Dev.ackCredit (d : Dev) (p seq : Nat) (cum : List Nat) (rtt : Nat) : Dev :=
  if !d.isDirect p || !(d.portState p == psActive || d.portState p == psWithdrawn) then d
  else
    let u := d.port p
    let left := coverFlits seq u.retry
    let back := (cum.zip u.lastCum).map fun e => aheadOf 65536 e.1 e.2
    let used := (u.used.zip back).map fun e => e.1 - e.2
    let v : PortU := { u with retry := left, used := used, lastCum := cum }
    let v := if left.length < u.retry.length then
        { v with retry := left.map fun f => { f with resent := 0 }, progressNs := d.clk.timeNs }
      else v
    ((d.putPort p v).set (FABP_STATUS.rtt_ns p) rtt).drainQueue p u.queue.length

/-- ACK_CREDIT: R286 to R288. -/
def execAckCredit (port : FabPort) (seq : BitVec 12) (counts : Vector (BitVec 16) 8) (shared : BitVec 16) (rtt : BitVec 14)
    (s : State) : Host.Outcome State Fault Refusal :=
  onDev s fun d => d.ackCredit port.val seq.toNat (counts.toList.map BitVec.toNat ++ [shared.toNat]) rtt.toNat

/-- An ACK_CREDIT of this end (R286). -/
def Dev.sendCredit (d : Dev) (p : Nat) : Dev :=
  let u := d.port p
  let body := toBytes 2 (aheadOf 4096 u.rxSeq 1) ++ u.freed.flatMap fun n => toBytes 2 n
  (d.putPort p { u with unrep := 0, owed := false }).emit (.flit p 8 body)

/-- ACK_CREDIT_TIMER: R286; 100 ns after the first flit that no ACK_CREDIT has reported, or after the first credit given back and
not reported. -/
def execAckCreditTimer (port : FabPort) (s : State) : Host.Outcome State Fault Refusal :=
  onDev s fun d =>
    let u := d.port port.val
    if (u.unrep = 0 && !u.owed) || decide (d.clk.timeNs < u.unrepNs + 100) then d else d.sendCredit port.val

/-- A received NAK (R287): counted, and the flits from the one it names are sent again, in order. -/
def Dev.nak (d : Dev) (p seq : Nat) : Dev :=
  if !d.isDirect p || !(d.portState p == psActive || d.portState p == psWithdrawn) then d
  else
    let u := d.port p
    let rest := u.retry.dropWhile fun f => f.seq != seq
    let again := u.retry.take (u.retry.length - rest.length) ++ rest.map fun f => { f with resent := f.resent + 1 }
    let d := (d.incSat (FABP_ERR.retries p) 1).putPort p { u with retry := again }
    if rest.isEmpty then d else d.emit (.resend p seq rest.length)

/-- NAK: R287. -/
def execNak (port : FabPort) (seq : BitVec 12) (s : State) : Host.Outcome State Fault Refusal :=
  onDev s fun d => d.nak port.val seq.toNat

/-- An ACTIVE DIRECT port with four resends of a flit or 5 µs without progress, or with lost FEC lock, enters RETRAIN; its retry buffer is
discarded, with a notice of kind 1 where it held flits (R289, R360). -/
def Dev.retrain (d : Dev) (p : Nat) (fecLost : Bool) : Dev :=
  let u := d.port p
  let stuck := (u.retry.any fun f => decide (4 ≤ f.resent)) || (!u.retry.isEmpty && decide (u.progressNs + 5000 ≤ d.clk.timeNs))
  if !d.isDirect p || d.portState p != psActive || !(fecLost || stuck) then d
  else
    let d := (d.updPort p fun u => { u with retry := [], unrep := 0 }).setPort p psRetrain
    if u.retry.isEmpty then d else d.sendNotice 1 ((d.peerId p).getD 0) p

/-- RETRAIN: R289. -/
def execRetrain (port : FabPort) (fecLost : Bool) (s : State) : Host.Outcome State Fault Refusal :=
  onDev s fun d => d.retrain port.val fecLost

/-! ### Heartbeats (R299, R360) -/

/-- A received HEARTBEAT flit is counted and renews the liveness of the peer. -/
def Dev.heartbeat (d : Dev) (p : Nat) : Dev :=
  let st := d.portState p
  if !d.isDirect p || !(st == psActive || st == psHandshake || st == psWithdrawn) then d
  else
    let d := d.incWrap (FABP_HB.hb_rx p) 1
    if st == psActive then
      let d := d.updPort p fun u => { u with hbNs := some d.clk.timeNs }
      if d.flag (FABP_STATUS.dead p) then (d.set (FABP_STATUS.dead p) 0).chooseMaster else d
    else d

/-- HEARTBEAT: R299. -/
def execHeartbeat (port : FabPort) (_device : BitVec 15) (_count : BitVec 32) (s : State) : Host.Outcome State Fault Refusal :=
  onDev s fun d => d.heartbeat port.val

/-- Every 1,000 ns an ACTIVE port sends its heartbeat: a flit, or a packet to each named peer. -/
def Dev.heartbeatSend (d : Dev) (p : Nat) : Dev :=
  let u := d.port p
  if d.portState p != psActive || decide (d.clk.timeNs < u.hbSentNs + 1000) then d
  else
    let d := d.putPort p { u with hbSentNs := d.clk.timeNs, hbCount := (u.hbCount + 1) % 2 ^ 32 }
    if d.isDirect p then d.emit (.flit p 0xA (toBytes 2 d.myId ++ toBytes 4 u.hbCount ++ toBytes 1 p))
    else (d.hbPeersOf p).foldl (fun d q => d.toPort p (d.macOf p q) (d.mkControl q 0x07 [])) d

/-- HEARTBEAT_SEND: R299. -/
def execHeartbeatSend (port : FabPort) (s : State) : Host.Outcome State Fault Refusal :=
  onDev s fun d => d.heartbeatSend port.val

/-- HEARTBEAT_CONTROL: R299, on an ETHERNET port. -/
def execHeartbeatControl (s : State) : Host.Outcome State Fault Refusal :=
  onDev s fun d => d.onPacket opControl (some 7) fun d p pkt =>
    let src := pkt.src.toNat
    if !d.isEthernet p || d.portState p != psActive || !(d.hbPeersOf p).contains src then d
    else
      let d := (d.incWrap (FABP_HB.hb_rx p) 1).updPort p fun u =>
        { u with hbPeers := Tab.put (fun _ => 0) u.hbPeers src (d.clk.timeNs + 1), deadPeers := u.deadPeers.filter (· != src) }
      (if (d.port p).deadPeers.isEmpty then d.set (FABP_STATUS.dead p) 0 else d).chooseMaster

/-- 8,050 ns without a heartbeat (R299): on a DIRECT port of its peer, on an ETHERNET port of a named one, since it was ACTIVE. A port that is
WITHDRAWN or DISABLED, or on its way back from WITHDRAWN, makes no declaration; one in RETRAIN does. -/
def Dev.peerDead (d : Dev) (p : Nat) (peer : Option Nat) : Dev :=
  let u := d.port p
  let st := d.portState p
  if d.isDirect p then
    match u.hbNs with
    | some t =>
      if decide (d.clk.timeNs < t + 8050) || st == psWithdrawn || st == psDisabled || u.returning then d
      else d.declarePeer p (d.peerId p)
    | none => d
  else
    match peer with
    | some q =>
      match u.hbNs with
      | some t =>
        let seen := max t (Tab.get (fun _ => 0) u.hbPeers q - 1)
        if !d.isEthernet p || st == psWithdrawn || st == psDisabled || !(d.hbPeersOf p).contains q || u.deadPeers.contains q ||
            decide (d.clk.timeNs < seen + 8050) then d
        else d.declarePeer p (some q)
      | none => d
    | none => d

/-- PEER_DEAD: R299, R360. -/
def execPeerDead (port : FabPort) (peer : Option (BitVec 15)) (s : State) : Host.Outcome State Fault Refusal :=
  onDev s fun d => d.peerDead port.val (peer.map BitVec.toNat)

/-! ### Lane retirement (R301, R370) -/

/-- A RETIRE flit. -/
def Dev.sendRetire (d : Dev) (p code lane : Nat) : Dev := d.emit (.flit p 0xC (toBytes 1 code ++ toBytes 1 lane))

/-- Both ends have agreed: the port withdraws. -/
def Dev.withdraw (d : Dev) (p lane : Nat) : Dev :=
  (d.updPort p fun u => { u with retiring := if lane < 8 then some lane else none }).setPort p psWithdrawn

/-- A received RETIRE (R301): a request is accepted unless this end has one of its own and the lower serial; an accept or a
refusal answers this end's own. -/
def Dev.retire (d : Dev) (p code lane : Nat) : Dev :=
  let u := d.port p
  if !d.isDirect p then d
  else if code = 0 then
    if d.portState p == psActive then
      if u.reqNs.isSome && decide (d.get GLB_SERIAL.serial < d.peerNum p 8 8) then d.sendRetire p 2 lane
      else ((d.updPort p fun u => { u with reqNs := none }).sendRetire p 1 lane).withdraw p lane
    else if d.portState p == psWithdrawn then d.sendRetire p 1 lane
    else d.sendRetire p 2 lane
  else if u.want == some lane && d.portState p == psActive then
    if code = 1 then
      (d.updPort p fun u => { u with want := none, reqNs := none, toRecord := if lane < 8 then some lane else none }).withdraw p lane
    else d.updPort p fun u => { u with reqNs := none }
  else d

/-- RETIRE: R301. -/
def execRetire (port : FabPort) (code lane : BitVec 8) (s : State) : Host.Outcome State Fault Refusal :=
  onDev s fun d => d.retire port.val code.toNat lane.toNat

/-- A request that is not accepted within 10 µs, or that was refused, is sent again while the port is ACTIVE (R301). -/
def Dev.retireAgain (d : Dev) (p : Nat) : Dev :=
  let u := d.port p
  match u.want with
  | some l =>
    if d.portState p != psActive || (match u.reqNs with | some t => decide (d.clk.timeNs < t + 10000) | none => false) then d
    else (d.putPort p { u with reqNs := some d.clk.timeNs }).sendRetire p 0 l
  | none => d

/-- RETIRE_REQUEST_TIMEOUT: R301. -/
def execRetireRequestTimeout (port : FabPort) (s : State) : Host.Outcome State Fault Refusal :=
  onDev s fun d => d.retireAgain port.val

/-- The retry buffer of a WITHDRAWN port is empty (R301): it goes to DISABLED where admin_en was written 0, to FAILED for a second
lane or in ETHERNET mode, and otherwise comes back through ALIGN without the lane. -/
def Dev.drained (d : Dev) (p : Nat) : Dev :=
  let u := d.port p
  if d.portState p != psWithdrawn || !u.retry.isEmpty then d
  else if u.disabling then
    ((d.updPort p fun u => { u with disabling := false, retiring := none, want := none, hbNs := none }).setPort p
      psDisabled).fabRest (fabDom p)
  else if d.isEthernet p then (d.set (FABP_EVENT.lane_retired p) 1).setPort p psFailed
  else
    match u.retiring with
    | some l =>
      let d := d.set (FABP_EVENT.lane_retired p) 1
      let use := (List.range 8).foldl (fun m k => if k != l && (d.get (FABP_STATUS.lane_mask p)).testBit k then m + 2 ^ k else m) 0
      if laneCount use < 7 then ((d.updPort p fun u => { u with retiring := none }).recordLane p).fall p psFailed
      else (d.updPort p fun u => { u with lanes := use, retiring := none, returning := true }).setPort p psAlign
    | none => (d.updPort p fun u => { u with returning := true }).setPort p psAlign

/-- WITHDRAW_DRAINED: R301. -/
def execWithdrawDrained (port : FabPort) (s : State) : Host.Outcome State Fault Refusal :=
  onDev s fun d => d.drained port.val

/-- FLT retires a lane on which it found lasting errors (R301, R370): journaled; a DIRECT port asks its peer, an ETHERNET port
withdraws. -/
def Dev.laneRetire (d : Dev) (p l : Nat) : Dev :=
  let u := d.port p
  if !u.laneDue.contains l || d.portState p != psActive || d.jnlFull then d
  else
    let d := (d.jnlEvent 0x50 0x0007 (regAddr (FABP_CFG.off p)) l).updPort p fun u => { u with laneDue := u.laneDue.filter (· != l) }
    if d.isDirect p then
      (d.updPort p fun u => { u with want := some l, reqNs := some d.clk.timeNs }).sendRetire p 0 l
    else (d.fieldUpdate fun b => { b with lanes := b.lanes ++ [(p, l)] }).withdraw p l

/-- LANE_RETIRE: R301. -/
def execLaneRetire (port : FabPort) (lane : Fin 8) (s : State) : Host.Outcome State Fault Refusal :=
  onDev s fun d => d.laneRetire port.val lane.val

/-- A second of a lane above the rate is a counted event; secs consecutive ones are lasting (R370). -/
def Dev.laneSecond (d : Dev) (p l n : Nat) : Dev :=
  let r : Resource := .lane p l
  if n ≤ d.get FLT_LANE_THR.rate_thr then d.freeSuspect r
  else
    let c := match d.suspects.find? (fun s => s.res == r) with
      | some s => s.count + 1
      | none => 1
    if d.get FLT_LANE_THR.secs ≤ c then
      ((d.freeSuspect r).incSat FLT_SUSPECT.lasting 1).updPort p fun u => { u with laneDue := u.laneDue ++ [l] }
    else
      match d.suspects.find? (fun s => s.res == r) with
      | some _ => { d with suspects := d.suspects.map fun t => if t.res == r then { t with count := c } else t }
      | none =>
        let e : Suspect := { res := r, first := d.clk.timeNs, count := 1 }
        if d.suspects.length < 4096 then d.putSuspects (d.suspects ++ [e])
        else
          let oldest := d.suspects.foldl (fun (o : Suspect) s => if s.first < o.first then s else o) (d.suspects.headD e)
          (d.putSuspects ((d.suspects.erase oldest) ++ [e])).incWrap FLT_SUSPECT.evicted 1

/-- FEC_RATE_SECOND: R370; the port's FEC counts of the second are added up. -/
def execFecRateSecond (port : FabPort) (corrected : Vector (BitVec 32) 8) (uncorrected : BitVec 16) (s : State) :
    Host.Outcome State Fault Refusal :=
  onDev s fun d =>
    let p := port.val
    let l := corrected.toList.map BitVec.toNat
    let d := (d.incWrap (FABP_ERR.fec_corrected p) (l.foldl (· + ·) 0)).incSat (FABP_ERR.fec_uncorrected p) uncorrected.toNat
    l.zipIdx.foldl (fun d e => if (d.port p).laneDue.contains e.2 then d else d.laneSecond p e.2 e.1) d

/-- PFC_PAUSE (R297): a pause or release is honoured for the priorities of pfc_en. -/
def execPfcPause (port : FabPort) (mask : BitVec 8) (on : Bool) (s : State) : Host.Outcome State Fault Refusal :=
  onDev s fun d =>
    let p := port.val
    if !d.isEthernet p || d.portState p != psActive then d
    else
      let m := mask.toNat &&& d.get (FABP_ETH0.pfc_en p)
      let u := d.port p
      let now := if on then u.paused ||| m else u.paused &&& (255 - m)
      (d.putPort p { u with paused := now }).drainQueue p u.queue.length

end Sys2Proof.Machine
end

