-- ==== Sys2Proof/Machine/Route.lean ====
section
/-! DEFINITION. Received packets: taking them from the link, delivering or forwarding them, and end-to-end acknowledgement
(spec/12_fabric_links.md, R284 to R287, R293 to R298; spec/13_fabric_addressing_and_routing.md, R309, R312, R316, R317). -/

namespace Sys2Proof.Machine

/-! ### From the link (R286, R287) -/

/-- n flits are discarded: counted, and one NAK names the expected sequence (R287). -/
def Dev.flitErrors (d : Dev) (p n : Nat) : Dev :=
  let u := d.port p
  if n = 0 then d
  else
    let d := d.incSat (FABP_ERR.crc_err p) n
    if u.nakSent then d else (d.putPort p { u with nakSent := true }).emit (.flit p 9 (toBytes 2 u.rxSeq))

/-- n flits received in order: an ACK_CREDIT follows with the 64th unreported flit (R286). -/
def Dev.takeFlits (d : Dev) (p n : Nat) : Dev :=
  let u := d.port p
  let u := { u with rxSeq := (u.rxSeq + n) % 4096, nakSent := false,
                    unrepNs := if u.unrep = 0 ∧ !u.owed then d.clk.timeNs else u.unrepNs, unrep := u.unrep + n }
  let d := d.putPort p u
  if 64 ≤ u.unrep then d.sendCredit p else d

/-- A packet taken whole takes its place in the receive buffer, with its priority and its flits by the kind of their credits (R286,
R297). -/
def Dev.takeBuffer (d : Dev) (p prio : Nat) (flits : List Nat) : Nat × Dev :=
  let id := d.fab.bufSeq
  let d := d.updPort p fun u => { u with buffer := u.buffer ++ [{ id := id, prio := prio, flits := flits }] }
  (id, ({ d with fab := { d.fab with bufSeq := id + 1 } } : Dev).pfcCheck p)

/-! ### Delivery and forwarding (R309, R312, R316, R317) -/

/-- Control types with a meaning (R309, R341, R352 and the chapters they name); the others are reserved. -/
def knownCtl (t : Nat) : Bool := within t 1 8 || within t 0x10 0x16 || within t 0x20 0x23 || t == 0x30

/-- A broadcast received (R317): outside its scope or seen within 100 µs it goes no further; otherwise it is delivered once and
sent on once. -/
def Dev.takeBroadcast (d : Dev) (p : Nat) (pkt : Packet) (buf : Option Nat := none) : Dev :=
  let scope := pkt.dst.toNat
  let seen := d.fab.seen.filter fun e => decide (d.clk.timeNs ≤ e.2.2 + 100000)
  if scope != 0 && scope != d.get FAB_ID.domain_id then d
  else if seen.any fun e => e.1 == pkt.src.toNat && e.2.1 == pkt.seq.toNat then d
  else
    let seen := (seen ++ [(pkt.src.toNat, pkt.seq.toNat, d.clk.timeNs)])
    let seen := if 4096 < seen.length then seen.drop 1 else seen
    let d := ({ d with fab := { d.fab with seen := seen } } : Dev).deliver p pkt buf
    d.forward (fun d q => d.flood (some p) q buf) pkt

/-- A packet with reserved route flags set, or whose length is not that of its payload (R285, R295). -/
def badShape (pkt : Packet) : Bool := pkt.flagsRsv != 0 || pkt.len.toNat != pkt.payload.length

/-- A packet with a bad shape or a reserved op is refused where it names this device; an answer with a bad shape is dropped. -/
def Dev.refuseBad (d : Dev) (pkt : Packet) : Dev := if [opReadResp, opAck, opNack].contains pkt.op.toNat then d else d.nack pkt 3

/-- A packet without end-to-end fault: handled by its flags, its op and its control type. What needs a route does not pass a port
with face 7 (R277). -/
def Dev.takeWhole (d : Dev) (p : Nat) (pkt : Packet) (buf : Option Nat := none) : Dev :=
  let op := pkt.op.toNat
  let drop := d.incSat FAB_ROUTE_STAT.ctl_drop 1
  let t := ctlType pkt
  if op == opControl && !knownCtl t then drop
  else if op == opControl && decide (t < 0x10) then d.deliver p pkt buf
  else if !d.routes p then d
  else if pkt.broadcast then if op == opControl then d.takeBroadcast p pkt buf else drop
  else if pkt.multicast then
    if op == opControl || op == opColl then
      match d.hop pkt with
      | some q => let (d, here) := d.multicastOut q buf
                  if here then d.deliver p pkt buf else d
      | none => d.incSat FAB_ROUTE_STAT.hop_drop 1
    else drop
  else if pkt.dst.toNat == d.myId && d.flag FAB_ID.id_valid then
    if 7 ≤ op || badShape pkt then d.refuseBad pkt
    else d.deliver p pkt buf
  else d.forward (fun d q => d.sendRouted q buf) pkt

/-- A received packet is taken, and whatever has left the receive buffers is given back. -/
def Dev.takePkt (d : Dev) (p prio : Nat) (flits : List Nat) (pkt : Packet) : Dev :=
  let (id, d) := d.takeBuffer p prio flits
  (d.takeWhole p pkt (some id)).leaveBuffers

/-- The flits of a packet on a DIRECT port (R286, R287): flit i has the sequence of the HEAD plus i. Those before the expected one
are discarded, and from one with a CRC error on the rest are; with the last one in order the packet is taken. -/
def Dev.takeTrain (d : Dev) (p lseq first shared : Nat) (bad : Option Nat) (pkt : Packet) : Dev :=
  let n := flitsOf pkt
  let k := aheadOf 4096 (d.port p).rxSeq lseq
  if n ≤ k || decide (k < first) then d.flitErrors p (n - first)
  else
    let e := match bad with
      | some i => if k ≤ i then min i n else n
      | none => n
    let d := d.flitErrors p (k - first)
    let d := (if k < e then d.takeFlits p (e - k) else d).flitErrors p (n - e)
    let tc := pkt.tc.toNat
    let sh := min shared n
    if e < n then d
    else d.takePkt p 0 ((List.range 9).map fun i => if i = 8 then sh else if i = tc then n - sh else 0) pkt

/-- A MACsec frame is valid (R298): its association is marked and has a key, it proves authentic, and its number is not before the
replay window. -/
def Dev.secValid (d : Dev) (p : Nat) (t : SecTag) : Bool :=
  let a := t.an.toNat
  d.bitOf (FABP_SEC.rx_an_valid p) a && (Tab.get (fun _ => none) d.sec.macsec (6 * p + 2 + a)).isSome && t.authentic &&
    decide ((d.port p).rxPn.getD a 1 ≤ t.pn.toNat + d.get (FABP_SEC.replay_window p))

/-- A frame whose validation fails is dropped and counted (R298). -/
def Dev.secFail (d : Dev) (p : Nat) : Dev := (d.incSat (FABP_SECCNT.sec_fail p) 1).set (FABP_EVENT.sec_fail p) 1

/-- A frame on an ETHERNET port (R296, R298): counted with another EtherType, as is a protected one where
sec_en = 0; with sec_en = 1 taken only where it is valid. -/
def Dev.takeFrame (d : Dev) (p : Nat) (h : FrameHdr) (pkt : Packet) : Dev :=
  let foreign := d.incSat (FABP_HB.foreign_frames p) 1
  let mine := h.etype.toNat == d.get (FABP_ETH0.ethertype p)
  let take (d : Dev) : Dev := d.takePkt p h.pcp.toNat [flitsOf pkt] pkt
  if d.flag (FABP_SEC.sec_en p) then
    match h.sec with
    | none => if mine then d.secFail p else foreign
    | some t =>
      if !d.secValid p t then d.secFail p
      else
        let a := t.an.toNat
        let d := d.updPort p fun u => { u with rxPn := u.rxPn.modify a fun n => max n (t.pn.toNat + 1) }
        if mine then take d else d.incSat (FABP_HB.foreign_frames p) 1
  else if !mine || h.sec.isSome then foreign
  else take d

/-- A packet that reaches a port, or what the port finds wrong with it. A quarantined port passes only source-routed ones; a frame
with a bad FCS is dropped. -/
def Dev.packetReceive (d : Dev) (p : Nat) (unit : RxUnit) (pkt : Packet) (fault : Option RxFault) : Dev :=
  let st := d.portState p
  match unit with
  | .frame h => if !d.isEthernet p || st != psActive || fault.isSome then d else d.takeFrame p h pkt
  | .flits lseq first shared =>
    let routed := pkt.op.toNat == opControl && within (ctlType pkt) 4 7
    if !d.isDirect p || !(st == psActive || st == psWithdrawn || (st == psQuarantine && routed)) then d
    else match fault with
      | some .reservedKind => d.incSat (FABP_ERR.crc_err p) 1
      | some (.crc i) => d.takeTrain p lseq.toNat first shared (some i) pkt
      | some .fcs => d
      | none => d.takeTrain p lseq.toNat first shared none pkt

/-- PACKET_RECEIVE: R312. -/
def execPacketReceive (port : FabPort) (unit : RxUnit) (pkt : Packet) (fault : Option RxFault) (s : State) :
    Host.Outcome State Fault Refusal :=
  onDev s fun d => d.packetReceive port.val unit pkt fault

/-! ### Acknowledgements (R293 to R295) -/

/-- What belongs to packets that have been answered goes on: a host command ends with its last packet, a snapshot and a refill
advance (R293, R357, R367). -/
def Dev.ownersDone (d : Dev) (l : List Owner) : Dev :=
  l.foldl (fun d o => match o with
    | .host c | .hostRead c _ =>
      if d.owing fun o => match o with | .host c' => c' == c | .hostRead c' _ => c' == c | _ => false then d
      else d.complete c stOk 0
    | .snap b _ => d.snapAdvance b
    | .refill b c _ => d.refillAdvance b c
    | _ => d) d

/-- Packets that an acknowledgement covers leave the resend area. -/
def Dev.acknowledge (d : Dev) (p : SentPkt → Bool) : Dev :=
  let l := (d.fab.sent.filter p).map (·.owner)
  (d.releaseSent p).ownersDone l

/-- A sequence is covered by an E2E_ACK: received in order, or marked in the bitmap. -/
def ackCovers (hi map q : Nat) : Bool :=
  let o := aheadOf (2 ^ 32) q (hi + 1)
  decide (2 ^ 31 ≤ o) || (decide (o < 64) && map.testBit o)

/-- A received E2E_ACK (R293); after a fault notice the packets it shows missing are sent again (R362). -/
def Dev.e2eAck (d : Dev) (pkt : Packet) : Dev :=
  let hi := pktNum pkt 24 4
  let map := pktNum pkt 28 8
  let mine (e : SentPkt) : Bool := e.pkt.dst == pkt.src && e.pkt.tc == pkt.tc && !e.pkt.multicast
  let d := d.acknowledge fun e => mine e && e.pkt.op.toNat != opReadReq && ackCovers hi map e.pkt.seq.toNat
  if map = 0 || d.flt.timers.isEmpty then d
  else
    let top := Nat.log2 map
    (d.fab.sent.filter fun e => mine e && decide (aheadOf (2 ^ 32) e.pkt.seq.toNat (hi + 1) < top) &&
      !ackCovers hi map e.pkt.seq.toNat).foldl (fun d e => d.resend e) d

/-- E2E_ACK: R293. -/
def execE2eAck (s : State) : Host.Outcome State Fault Refusal := onDev s fun d => d.onPacket opAck none fun d _ pkt => d.e2eAck pkt

/-- The held packet that an answer names. -/
def Dev.answered (d : Dev) (pkt : Packet) : Option SentPkt :=
  d.fab.sent.find? fun e => e.pkt.dst == pkt.src && e.pkt.tc == pkt.tc && e.pkt.seq.toNat == pktNum pkt 24 4

/-- A packet ends with an error (R295). -/
def Dev.endsBad (d : Dev) (e : SentPkt) (status : Nat) : Dev :=
  (d.releaseSent fun x => x == e).ownerFails e.owner (if status = 3 then 2 else 1)

/-- E2E_NACK: R295; its packet ends and is not sent again. -/
def execE2eNack (s : State) : Host.Outcome State Fault Refusal :=
  onDev s fun d => d.onPacket opNack none fun d _ pkt =>
    match d.answered pkt with
    | some e => d.endsBad e pkt.status.toNat
    | none => d

/-- Data of a read reaches its place. -/
def Dev.readData (d : Dev) (o : Owner) (off : Nat) (bytes : List Byte) : Dev :=
  match o with
  | .dmaRead e _ va => match d.bayOfAg (e / 4) with
    | some b => d.putBayBytes b (va + off) bytes
    | none => d
  | .hostRead c va => d.putBayBytes c.bay (va + off) bytes
  | .refill b _ va => d.refillData b (va + off) bytes
  | _ => d

/-- Part of the data of a READ_REQ has come; with all of it the request is answered (R293). A part's address tells its place. -/
def Dev.readPart (d : Dev) (e : SentPkt) (off : Nat) : Dev :=
  let got := e.got ++ [off]
  if (cutPieces (pktNum e.pkt 24 4) 4096).all fun c => got.contains c.1 then d.acknowledge fun x => x == e
  else { d with fab := { d.fab with sent := d.fab.sent.map fun x => if x == e then { x with got := got } else x } }

/-- A remote read met an uncorrectable error: it delivers zeros and acts on its reader (R295, R115, R266). -/
def Dev.readLost (d : Dev) (e : SentPkt) (off n : Nat) : Dev :=
  let d := d.readData e.owner off (List.replicate n 0)
  match e.owner with
  | .dmaRead g _ _ => match d.bayOfAg (g / 4) with
    | some b => d.endStepEarly b stInternal
    | none => d
  | .hostRead c _ =>
    (d.forget fun o => match o with | .host c' => c' == c | .hostRead c' _ => c' == c | _ => false).complete c stInternal 0
  | .refill b _ _ => d.nextSource b
  | _ => d

/-- READ_RESP: R295. -/
def execReadResp (s : State) : Host.Outcome State Fault Refusal :=
  onDev s fun d => d.onPacket opReadResp none fun d _ pkt =>
    match d.answered pkt with
    | none => d
    | some e =>
      if e.pkt.op.toNat != opReadReq then d
      else
        let off := pkt.addr.toNat - e.pkt.addr.toNat
        match pkt.status.toNat with
        | 0 => (d.readData e.owner off pkt.payload).readPart e off
        | 4 => (d.readLost e off pkt.payload.length).readPart e off
        | st => d.endsBad e st

/-- E2E_ACK_COALESCE: R293; 1 µs after the first packet to acknowledge. -/
def execE2eAckCoalesce (src : BitVec 15) (tc : BitVec 3) (s : State) : Host.Outcome State Fault Refusal :=
  onDev s fun d =>
    let r := Tab.get (fun _ => RxStream.reset) d.fab.rx (8 * src.toNat + tc.toNat)
    if r.due = 0 || decide (d.clk.timeNs < r.firstNs + 1000) then d else d.sendAck src.toNat tc.toNat

/-- A packet not acknowledged in time is sent again, or fails as target unreachable after its last attempt (R294). -/
def Dev.e2eTimeout (d : Dev) (dst tc seq : Nat) : Dev :=
  match d.fab.sent.find? fun e => e.pkt.dst.toNat == dst && e.pkt.tc.toNat == tc && e.pkt.seq.toNat == seq with
  | none => d
  | some e =>
    if d.clk.timeNs < e.sentNs + 1000 * d.get FAB_E2E.e2e_timeout_us then d
    else if e.tries < d.get FAB_E2E.e2e_retries then
      let e' := { e with tries := e.tries + 1 }
      ({ d with fab := { d.fab with sent := d.fab.sent.map fun x => if x == e then e' else x } } : Dev).resend e'
    else ((d.releaseSent fun x => x == e).incSat FAB_E2E_STATUS.unreachable 1).ownerFails e.owner 4

/-- E2E_TIMEOUT: R294. -/
def execE2eTimeout (dst : BitVec 15) (tc : BitVec 3) (seq : BitVec 32) (s : State) : Host.Outcome State Fault Refusal :=
  onDev s fun d => d.e2eTimeout dst.toNat tc.toNat seq.toNat

end Sys2Proof.Machine
end

