-- ==== Sys2Proof/Machine/MgtCore.lean ====
section
/-! DEFINITION. The management port's queues, Horervar packets and management messages as frames
(spec/20_management_port.md, R458 to R466). -/

namespace Sys2Proof.Machine

/-- An address as a number of 48 bits, octet 0 lowest. -/
def groupMac : Nat := 0x0100009C7E03
def broadcastMac : Nat := 0xFFFFFFFFFFFF

def Dev.ownMac (d : Dev) : Nat := d.get (MGT_ADDR.mac 0)

/-! ### Queues (R459, R461) -/

def Dev.txq (d : Dev) (q : Nat) : List TxFrame := Tab.get (fun _ => []) d.mgt.tx q
def Dev.rxq (d : Dev) (q : Nat) : List Frame := Tab.get (fun _ => []) d.mgt.rx q

/-- A transmit queue replaced, with txq_pending. -/
def Dev.putTxq (d : Dev) (q : Nat) (l : List TxFrame) : Dev :=
  let d := { d with mgt := { d.mgt with tx := Tab.put (fun _ => []) d.mgt.tx q l } }
  d.set MGT_STATUS.txq_pending ((List.range 4).foldl (fun m q => if (d.txq q).isEmpty then m else m + 2 ^ q) 0)

def Dev.putRxq (d : Dev) (q : Nat) (l : List Frame) : Dev :=
  { d with mgt := { d.mgt with rx := Tab.put (fun _ => []) d.mgt.rx q l } }

/-- The tag that a transmit queue inserts (R458). -/
def Dev.txTag (d : Dev) (q : Nat) : Option (BitVec 3 × BitVec 12) :=
  if d.flag (MGT_TXQ.tag_en q) then some (BitVec.ofNat 3 (d.get (MGT_TXQ.pcp q)), BitVec.ofNat 12 (d.get (MGT_TXQ.vid q))) else none

/-- A frame of this device for a transmit queue; nothing is queued while the MAC is disabled. -/
def Dev.sendFrame (d : Dev) (q mac etype : Nat) (payload : List Byte) : Dev :=
  if !d.flag MGT_CFG.mac_en then d
  else
    let f : Frame := { dst := BitVec.ofNat 48 mac, src := BitVec.ofNat 48 d.ownMac, tag := d.txTag q,
                       etype := BitVec.ofNat 16 etype, payload := payload }
    d.putTxq q (d.txq q ++ [{ frame := f, attempts := 0 }])

/-- The frame the agent serves next: the head of the highest non-empty receive queue (R461). -/
def Dev.mgtHead (d : Dev) : Option (Nat × Frame) :=
  [3, 2, 1, 0].findSome? fun q => ((d.rxq q).head?).map fun f => (q, f)

/-! ### Horervar control packets as frames (R285, R462) -/

/-- The 60 bytes of a packet header. -/
def pktHeader (p : Packet) : List Byte :=
  toBytes 2 p.dst.toNat ++ toBytes 2 p.src.toNat ++ toBytes 1 (p.multicast.toNat + 2 * p.broadcast.toNat + 4 * p.det.toNat) ++
    toBytes 1 p.tc.toNat ++ toBytes 1 p.op.toNat ++ toBytes 1 p.status.toNat ++ toBytes 2 p.tag.toNat ++
    toBytes 2 p.payload.length ++ toBytes 4 p.seq.toNat ++ toBytes 6 p.addr.toNat ++ toBytes 1 p.hops.toNat ++ toBytes 1 0 ++
    toBytes 36 p.spec.toNat

/-- A packet read from the bytes of a frame; none where they are too short for what they say. -/
def pktOfBytes (l : List Byte) : Option Packet :=
  let f (lo n : Nat) : Nat := ofBytes ((l.drop lo).take n)
  let n := f 10 2 % 8192
  if l.length < 60 || decide (l.length < 60 + n) then none
  else some { dst := BitVec.ofNat 15 (f 0 2), src := BitVec.ofNat 15 (f 2 2), multicast := (f 4 1).testBit 0,
              broadcast := (f 4 1).testBit 1, det := (f 4 1).testBit 2, flagsRsv := BitVec.ofNat 5 (f 4 1 / 8), tc := BitVec.ofNat 3 (f 5 1), op := BitVec.ofNat 8 (f 6 1),
              status := BitVec.ofNat 8 (f 7 1), tag := BitVec.ofNat 12 (f 8 2), len := BitVec.ofNat 16 n, seq := BitVec.ofNat 32 (f 12 4),
              addr := BitVec.ofNat 48 (f 16 6), hops := BitVec.ofNat 8 (f 22 1), spec := BitVec.ofNat 288 (f 24 36),
              payload := (l.drop 60).take n }

/-- A control packet on the segment. -/
def Dev.sendSegment (d : Dev) (q mac : Nat) (p : Packet) : Dev :=
  d.sendFrame q mac (d.get MGT_CFG.hor_etype) (pktHeader p ++ p.payload)

/-! ### Management messages (R464) -/

/-- A management message: type, sequence, status and body. -/
structure Msg where
  type : Nat
  seq : Nat
  status : Nat
  body : List Byte
  deriving DecidableEq, Repr

/-- How a message reads: whole, wrong in version, type or length but parseable, or not parseable. -/
inductive MsgRead where
  | ok (m : Msg)
  | bad (type seq : Nat)
  | none
  deriving DecidableEq, Repr

/-- The lowest body length of a request type, and the highest; none for a reserved type (R464). -/
def bodyRange (type : Nat) : Option (Nat × Nat) :=
  match type with
  | 1 => some (4, 4)
  | 2 => some (16, 16)
  | 0x10 => some (0, 1400)
  | 0x20 => some (9, 1032)
  | _ => Option.none

/-- A message read from the payload of a frame; bytes beyond the body are the padding of a short frame. -/
def readMsg (l : List Byte) : MsgRead :=
  let f (lo n : Nat) : Nat := ofBytes ((l.drop lo).take n)
  let n := f 6 2
  if l.length < 8 then .none
  else if f 0 1 = 1 && decide (8 + n ≤ l.length) && (match bodyRange (f 1 1) with
      | some (lo, hi) => within n lo (hi + 1)
      | Option.none => false) then .ok { type := f 1 1, seq := f 2 2, status := f 4 2, body := (l.drop 8).take n }
  else .bad (f 1 1) (f 2 2)

/-- The bytes of a message. -/
def Msg.bytes (m : Msg) : List Byte :=
  toBytes 1 1 ++ toBytes 1 m.type ++ toBytes 2 m.seq ++ toBytes 2 m.status ++ toBytes 2 m.body.length ++ m.body

/-- An answer goes out: refusals are counted (R464). -/
def Dev.answer (d : Dev) (q : Nat) (to' : Nat) (m : Msg) : Dev :=
  let d := if m.status = 0 then d else (d.incSat MGT_MSGCNT.refused 1).set MGT_EVENT.refused 1
  d.sendFrame q to' (d.get MGT_CFG.mgmt_etype) m.bytes

/-- A control packet on the segment is taken: 0 yes, 1 dropped and counted, 2 not for this device (R462, R463, R317). Discovery
and assignment carry a path of length 0. -/
def Dev.segmentClass (d : Dev) (l : List Byte) : Nat :=
  match pktOfBytes l with
  | some p =>
    let t := ctlType p
    if p.op.toNat != opControl then 1
    else if 4 ≤ t && decide (t ≤ 6) then if pktNum p 25 1 = 0 then 0 else 1
    else if 0x20 ≤ t && decide (t ≤ 0x22) then
      if p.broadcast then if p.dst.toNat == 0 || p.dst.toNat == d.get FAB_ID.domain_id then 0 else 2
      else if p.dst.toNat == d.myId then 0 else 2
    else 1
  | none => 1

/-- What is at the head of the receive queues and can be served by no command leaves it: messages that no request type fits are
answered with status 5, or dropped and counted (R464); control packets of another type are dropped and counted, and those for
other devices dropped (R462, R463). -/
def Dev.agentFlush (d : Dev) : Nat → Dev
  | 0 => d
  | n + 1 =>
    match d.mgtHead with
    | some (q, f) =>
      let rest := d.putRxq q (d.rxq q).tail
      if f.etype.toNat != d.get MGT_CFG.mgmt_etype then
        match d.segmentClass f.payload with
        | 0 => d
        | 1 => (rest.incSat MGT_MSGCNT.ctl_drop 1).agentFlush n
        | _ => rest.agentFlush n
      else match readMsg f.payload with
        | .ok _ => d
        | .bad t s => (rest.answer 2 f.src.toNat { type := t, seq := s, status := 5, body := [] }).agentFlush n
        | .none => ((rest.incSat MGT_MSGCNT.refused 1).set MGT_EVENT.refused 1).agentFlush n
    | none => d

/-- The head frame has been served. -/
def Dev.served (d : Dev) (q : Nat) : Dev := (d.putRxq q (d.rxq q).tail).agentFlush 64

/-- A management message of a type at the head is served. -/
def Dev.onMessage (d : Dev) (type : Nat) (f : Dev → Frame → Msg → Dev) : Dev :=
  match d.mgtHead with
  | some (q, fr) =>
    if fr.etype.toNat != d.get MGT_CFG.mgmt_etype then d
    else match readMsg fr.payload with
      | .ok m => if m.type = type then f (d.served q) fr m else d
      | _ => d
  | none => d

/-- The control packet at the head of the receive queues, when it is one. -/
def Dev.segHead (d : Dev) : Option (Nat × Frame × Packet) :=
  match d.mgtHead with
  | some (q, fr) =>
    if fr.etype.toNat != d.get MGT_CFG.hor_etype then none else (pktOfBytes fr.payload).map fun p => (q, fr, p)
  | none => none

/-- A control packet of a type is taken: from the fabric where one has been delivered, else from the segment. The handler gets
the path (1 fabric, 2 segment) and on the segment the frame. -/
def Dev.onEither (d : Dev) (type : Nat) (acked : Bool) (f : Dev → Nat → Option Frame → Packet → Dev) : Dev :=
  if d.fab.inbox.any fun e => e.pkt.op.toNat == opControl && ctlType e.pkt == type then
    if acked then d.control type fun d p => f d 1 none p
    else d.onPacket opControl (some type) fun d _ p => f d 1 none p
  else
    match d.segHead with
    | some (q, fr, p) => if ctlType p = type then f (d.served q) 2 (some fr) p else d
    | none => d

end Sys2Proof.Machine
end

