-- ==== Sys2Proof/Machine/Power.lean ====
section
/-! DEFINITION. Power: the governor, calibration, levers, thaw tokens, domain states and emergencies
(spec/16_power_and_load_shaping.md; spec/22_electrical_and_package.md, R489, R490). Draws are in µW: a slew of 1 mW/ms is
1 µW in each 1 µs interval. -/

namespace Sys2Proof.Machine

def Dev.pwrRunning (d : Dev) : Bool := d.get (GLB_FW_CORE.state 1) == 0

def Dev.setPwr (d : Dev) (f : PwrU → PwrU) : Dev := { d with pwr := f d.pwr }

/-- env_w in µW. -/
def Dev.envUw (d : Dev) : Nat := 1000000 * d.get PWR_ENV.env_w

/-- What E_eff tends to: the smallest of the envelope, the thermal limit and, in POWER mode, 0.85 × env_w (R374, R392). -/
def Dev.effTarget (d : Dev) : Nat :=
  let e := min d.envUw (d.pwr.thermal.getD d.envUw)
  if d.get PWR_STATUS.mode = 1 then min e (850000 * d.get PWR_ENV.env_w) else e

/-- E_eff in force, shown. -/
def Dev.showEff (d : Dev) (e : Nat) : Dev := (d.setPwr fun u => { u with eff := e }).set PWR_STATUS.eff_env_w (e / 1000000)

/-- E_eff after an interval that may lower it by dn: raised, or lowered to no less than the present draw, it takes its target at
once; lowered below the draw it falls at the down-slew (R374). -/
def Dev.effNext (d : Dev) (dn : Nat) : Nat :=
  if d.pwr.eff ≤ d.effTarget || d.pwr.draw ≤ d.effTarget then d.effTarget else max d.effTarget (d.pwr.eff - dn)

/-- E_eff follows a change of its target. -/
def Dev.refreshEff (d : Dev) : Dev := d.showEff (d.effNext 0)

/-! ### Start-up stops (R480) -/

/-- The state that a domain is frosted to when start-up stops (R480 names none; log entry 153): OFF, but IDLE for MEM, which enters
OFF with a power-down alone (R13). -/
def frostState (dom : Nat) : Nat := if dom = 19 then 1 else 3

/-- Start-up stops with a cause: shown, and every domain already thawed is frosted. -/
def Dev.bootFail (d : Dev) (cause : Nat) : Dev :=
  if !d.boot.released || d.flag GLB_STATUS.ready || d.boot.halted then d
  else
    let d := { d with boot := { d.boot with halted := true } }
    let d := d.sets [(GLB_STATUS.boot_fail, 1), (GLB_STATUS.boot_cause, cause), (GLB_BOOTINFO.fail_step, d.boot.step), (HIF_READY.state, 2)]
    (List.range 20).foldl (fun d k => if k = 0 || decide (frostState k ≤ d.get (PWR_DOM.state k)) then d
      else d.moveDomain 0x11 k (frostState k)) d

/-! ### Holding load (R378) -/

/-- An AG has work: its bay has a step under way. -/
def Dev.agWorks (d : Dev) (n : Nat) : Bool :=
  match d.bayOfAg n with
  | some b => (d.bayU b).step.isSome
  | none => false

/-- Column groups of holding load spread evenly excess AGs, at most 96 on each; the arrays that rest follow the level (R83). -/
def Dev.spreadHold (d : Dev) (ags : List Nat) (total : Nat) : Dev :=
  let n := max 1 ags.length
  ags.zipIdx.foldl (fun d e =>
    let d := d.putAg e.1 { d.agU e.1 with hold := min 96 (total / n + (if e.2 < total % n then 1 else 0)) }
    (List.range 6).foldl (fun d x => d.gateIdle (6 * e.1 + x)) d) d

/-- The holding level of every AG for a holding load: first on ACTIVE AGs without work, then evenly on the others. -/
def Dev.setHold (d : Dev) (hold : Nat) : Dev :=
  let mx := 1000000 * d.get PWR_FROST.hold_max_w
  let total := if mx = 0 then 0 else min 1536 ((1536 * hold + mx - 1) / mx)
  let act := (List.range 16).filter fun n => d.get (PWR_DOM.state (1 + n)) == 0
  let free := act.filter fun n => !d.agWorks n
  let used := act.filter d.agWorks
  let off := (List.range 16).filter fun n => d.get (PWR_DOM.state (1 + n)) != 0
  let d := d.spreadHold off 0
  (d.spreadHold free (min total (96 * free.length))).spreadHold used (total - min total (96 * free.length))

/-! ### The governor (R375, R377) -/

/-- g in force: at least 1.10 while the calibration is at fault (R376). -/
def PwrU.gainNow (u : PwrU) : Nat := if u.calFault then max u.gain 72090 else u.gain

/-- The rise that a token window allows in all: the free step, or the token held for it (R381). -/
def Dev.windowLimit (d : Dev) : Nat := max (62500 * d.get PWR_THAW_CFG.step_w) d.pwr.token

/-- A STEP with the force flag runs or waits for its work; the origin of its ring (R386). -/
def Dev.forcedBy (d : Dev) : Option Nat :=
  (List.range 8).findSome? fun b => match (d.bayU b).step with
    | some r => if (r.cmd.num 1 1).testBit 1 then some (1 + d.ringPort r.cmd.ring) else none
    | none => none

/-- The sum of an estimate is added to the newest of the last 10 ms. -/
def addRaw (raw : Nat) : List (Nat × Nat) → List (Nat × Nat)
  | [] => [(raw, 1)]
  | (s, n) :: r => (s + raw, n + 1) :: r

/-- One 1 µs interval: the draw estimate, rules 1 to 3 in their rank, and the holding load (R377, R378). `raw` is the
uncalibrated estimate of what the work at hand would draw, in µW. -/
def Dev.govern (d : Dev) (raw : Nat) : Dev :=
  let u := d.pwr
  let up := d.get PWR_SLEW_UP.slew
  let dn := d.get PWR_SLEW_DN.slew
  let eff := d.effNext dn
  let want := raw * u.gainNow / 65536
  let site := d.flag PWR_THAW_CFG.site_en
  let forced := d.forcedBy
  let left := d.windowLimit - u.rise
  let upper := min eff (if site && forced.isNone then u.draw + min up left else u.draw + up)
  let work := min want upper
  let pre := 1000000 * d.get PWR_TARGET.prethaw_w
  let floor := if d.get PWR_STATUS.mode = 0 then max (u.draw - dn) pre else 0
  let lower := min floor upper
  let fill := lower - work
  let hold := min fill (1000000 * d.get PWR_FROST.hold_max_w)
  let draw := work + hold
  let rise := u.rise + (draw - u.draw)
  let excess := if site && forced.isSome then rise - d.windowLimit else 0
  let lost := if d.get PWR_STATUS.mode = 0 then min (u.draw - dn) upper - draw else 0
  let held := decide (upper < want)
  let heldAgs := if held then (List.range 16).foldl (fun m n => if (d.agU n).startReq.isEmpty then m else m + 2 ^ n) 0 else 0
  let short := u.shortfall + lost
  let d := d.setPwr fun u =>
    { u with draw := draw, want := want, hold := hold, raws := addRaw raw u.raws, tickSum := u.tickSum + draw,
             tickHold := u.tickHold + hold, tickN := u.tickN + 1, tickHeld := u.tickHeld + (if eff < want then 1 else 0),
             heldAgs := u.heldAgs ||| heldAgs, rise := rise, forcedW := max u.forcedW excess,
             forcedBy := if excess = 0 then u.forcedBy else forced.getD u.forcedBy, shortfall := short % 1000000000000 }
  let d := if lost = 0 then d else (d.incSat PWR_FROST.shortfall_j (short / 1000000000000)).set PWR_EVENT.shortfall 1
  (d.showEff eff).setHold hold

/-- GOVERNOR_INTERVAL: R375, R377. -/
def execGovernorInterval (raw : BitVec 32) (s : State) : Host.Outcome State Fault Refusal := onDev s fun d => d.govern raw.toNat

/-! ### Modes (R392) -/

/-- POWER mode: rule 3 suspended, E_eff at most 0.85 × env_w at once; it needs PWR (R402). -/
def Dev.powerMode (d : Dev) : Dev :=
  if !d.pwrRunning then d
  else
    let d := d.setPwr fun u => { u with causeNs := d.clk.timeNs }
    if d.get PWR_STATUS.mode != 0 then d
    else
      let d := ((d.sets [(PWR_STATUS.mode, 1), (PWR_EVENT.power_emerg, 1)]).incSat PWR_THERM.emerg_count 1).emit (.telemetry 8 [1])
      (d.showEff (min d.pwr.eff d.effTarget)).emit .i3cInterrupt

/-- THERMAL mode, entered by the governor: the holding load drops, ACLK falls to 0.9 GHz and the thermal limit to the present
draw less a quarter. During start-up step 6 it stops start-up (R392, R477). -/
def Dev.thermalMode (d : Dev) : Dev :=
  if d.get PWR_STATUS.mode = 2 then d
  else
    let d := ((d.sets [(PWR_STATUS.mode, 2), (PWR_EVENT.thermal_emerg, 1), (PWR_STATUS.aclk_state, 3)]).incSat
      PWR_THERM.emerg_count 1).emit (.telemetry 8 [2])
    let d := d.setPwr fun u => { u with thermal := some (u.draw * 3 / 4), hold := 0, draw := u.draw - u.hold, clockUp := none,
                                        clockAgain := false }
    let d := ((d.showEff (min d.pwr.eff d.effTarget)).setHold 0).emit .i3cInterrupt
    if d.boot.step = 6 then d.bootFail 0x0B else d

/-- POWER_MODE_EXIT: R392, 1 s after the last cause. -/
def execPowerModeExit (s : State) : Host.Outcome State Fault Refusal :=
  onDev s fun d =>
    if d.get PWR_STATUS.mode != 1 || decide (d.clk.timeNs < d.pwr.causeNs + 1000000000) then d
    else (d.set PWR_STATUS.mode 0).refreshEff.emit (.telemetry 8 [0])

/-- THERMAL_MODE_EXIT: R392, after 100 ms below 100 °C. -/
def execThermalModeExit (s : State) : Host.Outcome State Fault Refusal :=
  onDev s fun d =>
    match d.pwr.coolNs with
    | some t =>
      if d.get PWR_STATUS.mode != 2 || decide (d.clk.timeNs < t + 100000000) then d
      else (d.set PWR_STATUS.mode 0).refreshEff.emit (.telemetry 8 [0])
    | none => d

/-- The 64 junction sensors are sampled (R391, R392). -/
def Dev.junctions (d : Dev) (l : List Nat) : Dev :=
  let tj := l.foldl max 0
  let d := d.sets [(PWR_THERM.tj_max, tj), (PWR_THERM.hot_sensor, (l.idxOf? tj).getD 0)]
  let d := d.setPwr fun u => { u with coolNs := if tj < 100 then some (u.coolNs.getD d.clk.timeNs) else none }
  if 110 ≤ tj then d.thermalMode else d

/-! ### Calibration (R376, R496) -/

/-- A calibration fault begins. -/
def Dev.calFails (d : Dev) : Dev := (d.setPwr fun u => { u with calFault := true, goodNs := none }).set PWR_EVENT.cal_fault 1

/-- r of R376 in 1/65,536; none before any interval has drawn. -/
def calRatio (measured : Nat) (raws : List (Nat × Nat)) : Option Nat :=
  let sum := raws.foldl (fun t e => t + e.1) 0
  let n := raws.foldl (fun t e => t + e.2) 0
  if sum = 0 then none else some (measured * n * 65536 / sum)

/-- A valid reading moves the gain towards r by an eighth, within 0.80 to 1.25. -/
def Dev.calibrate (d : Dev) (measured : Nat) : Dev :=
  let now := d.clk.timeNs
  match calRatio measured d.pwr.raws with
  | none => d.setPwr fun u => { u with validNs := now }
  | some r =>
    let g : Int := d.pwr.gain
    let g' := max 52429 (min 81920 (g + ((r : Int) - g) / 8))
    let d := d.setPwr fun u => { u with validNs := now, gain := g'.toNat }
    if r < 52429 || 81920 < r then d.calFails
    else if d.pwr.calFault then
      let t := d.pwr.goodNs.getD now
      d.setPwr fun u => if t + 100000000 ≤ now then { u with calFault := false, goodNs := none } else { u with goodNs := some t }
    else d

/-- Measured power 10 % above E_eff for 10 ms enters POWER mode. -/
def Dev.checkOverdraw (d : Dev) (measured : Nat) : Dev :=
  if measured * 10 ≤ d.pwr.eff * 11 then d.setPwr fun u => { u with overNs := none }
  else
    let t := d.pwr.overNs.getD d.clk.timeNs
    let d := d.setPwr fun u => { u with overNs := some t }
    if t + 10000000 ≤ d.clk.timeNs then d.powerMode else d

/-- Every 1 ms PWR reads the regulators; while it restarts it reads none (R376, R402). -/
def Dev.calRead (d : Dev) (measured : Option Nat) (status : Nat) : Dev :=
  if !d.pwrRunning then d
  else
    let d := match measured with
      | some m => (d.calibrate m).checkOverdraw m
      | none => d.setPwr fun u => { u with goodNs := none }
    let d := d.setPwr fun u => { u with raws := ((0, 0) :: u.raws).take 10 }
    if status = 0 then d else d.powerMode

/-- CALIBRATION_READ: R376; the measured power in µW where the reading is valid, and the regulators' STATUS_WORDs together. -/
def execCalibrationRead (measured : Option (BitVec 32)) (status : BitVec 16) (s : State) : Host.Outcome State Fault Refusal :=
  onDev s fun d => d.calRead (measured.map BitVec.toNat) status.toNat

/-- CALIBRATION_TIMEOUT: R376, after 100 ms without a valid reading. -/
def execCalibrationTimeout (s : State) : Host.Outcome State Fault Refusal :=
  onDev s fun d => if !d.pwrRunning || decide (d.clk.timeNs < d.pwr.validNs + 100000000) then d else d.calFails

/-- PMB_ALERT: R496; a fault or warning enters POWER mode, and CLEAR_FAULTS follows. -/
def execPmbAlert (status : BitVec 16) (s : State) : Host.Outcome State Fault Refusal :=
  onDev s fun d => if !d.pwrRunning || status = 0 then d else d.powerMode.emit (.pmbus 3 0)

/-- RAIL_UNDERVOLTAGE (R490): the rail's bit and POWER mode; below 85 % for more than 1 µs the results of the AG cannot be
trusted, and its bay's step ends with INTERNAL. -/
def execRailUndervoltage (rail : Fin 21) (deep : Bool) (s : State) : Host.Outcome State Fault Refusal :=
  onDev s fun d =>
    let d := ((d.setBit GLB_RAIL.uv rail.val).incSat GLB_RAIL.uv_count 1).powerMode
    if deep && decide (5 ≤ rail.val) then
      match d.bayOfAg (rail.val - 5) with
      | some b => d.endStepEarly b stInternal
      | none => d
    else d

/-! ### The envelope controller (R379, R380, R391) and clock states (R489) -/

/-- AG rail voltage of a clock state, mV. -/
def clockMv (st : Nat) : Nat := [750, 700, 650, 600].getD st 600

/-- One step tighter on the first lever that is not at its limit. -/
def Dev.tighten (d : Dev) : Dev :=
  let duty := d.get PWR_CAPPED.duty
  let cap := d.get PWR_CAPPED.hbm_cap
  let st := d.get PWR_STATUS.aclk_state
  if 1 < duty then d.set PWR_CAPPED.duty (duty - 1)
  else if 4 < cap then d.set PWR_CAPPED.hbm_cap (cap - 1)
  else if st < 3 then ((d.setPwr fun u => { u with clockUp := none, clockAgain := false }).set PWR_STATUS.aclk_state (st + 1)).emit
    (.pmbus 0x21 (clockMv (st + 1)))
  else d

/-- A higher clock state is asked for: the voltage first. -/
def Dev.askClock (d : Dev) : Dev :=
  (d.setPwr fun u => { u with clockUp := some d.clk.timeNs, clockAgain := false }).emit
    (.pmbus 0x21 (clockMv (d.get PWR_STATUS.aclk_state - 1)))

/-- One step looser on the last lever that is tightened. -/
def Dev.loosen (d : Dev) : Dev :=
  let duty := d.get PWR_CAPPED.duty
  let cap := d.get PWR_CAPPED.hbm_cap
  if d.get PWR_STATUS.aclk_state != 0 then if d.pwr.clockUp.isSome then d else d.askClock
  else if cap < 16 then d.set PWR_CAPPED.hbm_cap (cap + 1)
  else if duty < 16 then d.set PWR_CAPPED.duty (duty + 1)
  else d

/-- CLOCK_STATE_CONFIRM (R489): every AG rail reports the new voltage and ACLK rises, or 500 µs pass and the lower clock stays. -/
def execClockStateConfirm (confirmed : Bool) (s : State) : Host.Outcome State Fault Refusal :=
  onDev s fun d =>
    match d.pwr.clockUp with
    | some t =>
      if !d.pwrRunning then d
      else if confirmed then
        (d.setPwr fun u => { u with clockUp := none, clockAgain := false }).set PWR_STATUS.aclk_state (d.get PWR_STATUS.aclk_state - 1)
      else if d.clk.timeNs < t + 500000 then d
      else (d.setPwr fun u => { u with clockUp := none, clockAgain := true }).set PWR_EVENT.cal_fault 1
    | none => d

/-- The thermal limit of an edge (R391). -/
def Dev.throttle (d : Dev) : Dev :=
  let tj := d.get PWR_THERM.tj_max
  let thr := d.get PWR_ENV.throttle_c
  let pct := 10000 * d.get PWR_ENV.env_w
  if thr ≤ tj then
    let d := if d.pwr.throttling then d else d.set PWR_EVENT.throttle 1
    (d.setPwr fun u => { u with throttling := true, thermal := some (u.thermal.getD d.envUw - pct) }).incWrap PWR_THERM.throttle_ticks 1
  else
    let d := d.setPwr fun u => { u with throttling := false }
    if tj + 3 < thr then
      d.setPwr fun u => { u with thermal := u.thermal.bind fun t => if d.envUw ≤ t + pct then none else some (t + pct) }
    else d

/-- Action 4 of an edge (R379, R380, R391): the ending tick's estimate, the levers and the thermal limit; while PWR restarts it
changes nothing. -/
def Dev.pwrEdge (d : Dev) : Dev :=
  let u := d.pwr
  let clear (d : Dev) : Dev := d.setPwr fun u => { u with tickSum := 0, tickHold := 0, tickN := 0, tickHeld := 0, heldAgs := 0 }
  if !d.pwrRunning then clear d
  else
    let n := max 1 u.tickN
    let mean := u.tickSum / n
    let d := d.sets [(PWR_STATUS.draw_w, mean / 1000000), (PWR_STATUS.hold_w, u.tickHold / n / 1000000)]
    let d := d.throttle
    let d := d.refreshEff
    let excess := decide (u.eff * 98 < mean * 100) || decide (u.tickN * 5 < u.tickHeld * 100)
    let below := if mean * 100 < u.eff * 90 then u.below + 1 else 0
    let d := d.setPwr fun u => { u with below := below }
    let d := if u.clockAgain then d.askClock else d
    let d := if excess then d.tighten else if 10 ≤ below && !u.clockAgain then d.loosen else d
    let all := (List.range 16).foldl (fun m n => if d.get (PWR_DOM.state (1 + n)) == 0 then m + 2 ^ n else m) 0
    let mask := if d.get PWR_CAPPED.duty < 16 || d.get PWR_STATUS.aclk_state != 0 then all ||| u.heldAgs else u.heldAgs
    let d := d.set PWR_CAPPED.ag_capped mask
    clear (if mask = 0 then d else d.incWrap PWR_CAPPED.capped_ticks 1)

/-! ### Thaw tokens (R381 to R387) -/

/-- The slot of R381: bits [5:0] of the device ID, before one is assigned of the default ID, failing that of the serial, reversed. -/
def Dev.slot (d : Dev) : Nat :=
  let id := if d.flag FAB_ID.id_valid then d.myId else (d.board.defaultId).getD (d.get GLB_SERIAL.serial)
  (List.range 6).foldl (fun m i => if id.testBit i then m + 2 ^ (5 - i) else m) 0

/-- Tw in ns. -/
def Dev.windowNs (d : Dev) : Nat := max 1 (d.get PWR_THAW_CFG.tok_window_ticks * d.get TCK_PERIOD.period_us * 1000)

/-- The window that the present moment lies in. -/
def Dev.windowNow (d : Dev) : Nat :=
  let per := 1000 * d.get TCK_PERIOD.period_us
  let pos := d.tick * per + (per - (d.clk.nextEdgeNs - d.clk.timeNs))
  (pos - d.slot * d.windowNs / 64) / d.windowNs

/-- Coordinators heard in the last 30 ms. -/
def Dev.coordsHeard (d : Dev) : List Coord := d.pwr.heard.filter fun e => decide (d.clk.timeNs ≤ e.ns + 30000000)

/-- The device's own key as a coordinator. -/
def Dev.coordKey (d : Dev) : Option Nat :=
  if d.flag PWR_THAW_CFG.coord_en then some (32768 * d.get PWR_THAW_CFG.coord_prio + d.myId) else none

/-- The election of R382, with is_coord, coord_id and path. -/
def Dev.electCoord (d : Dev) : Dev :=
  let l := d.coordsHeard
  let key (e : Coord) : Nat := 32768 * e.prio + e.dev
  let best := l.foldl (fun (o : Option Nat) e => some (match o with | some k => min k (key e) | none => key e)) none
  let own := match d.coordKey, best with
    | some k, some b => decide (k < b)
    | some _, none => true
    | none, _ => false
  let d := d.set PWR_COORD.is_coord own.toNat
  let old := d.get PWR_THAW_STAT.coord_id
  let id := if own then d.myId else (best.getD old) % 32768
  let viaFab := l.any fun e => e.dev == id && e.path == 1
  let path := if !d.flag PWR_THAW_CFG.site_en then 0 else if own || viaFab then 1 else if best.isSome then 2 else 3
  let d := d.sets [(PWR_THAW_STAT.coord_id, id), (PWR_THAW_STAT.path, path), (PWR_THAW_STAT.slot, d.slot)]
  if id = old then d else d.setPwr fun u => { u with asked := u.asked.map fun a => (a.1, 0) }

/-- What domain wakes that wait would draw (R383, R389). -/
def Dev.wakeUw (d : Dev) : Nat :=
  (List.range 20).foldl (fun t k =>
    if d.flag (PWR_DOM.moving k) && d.get (PWR_DOM.req k) == 0 then t + (if k < 17 then 10000000 else if k < 19 then 100000000 else 40000000)
    else t) 0

/-- The demand of R383. -/
def Dev.demand (d : Dev) : Nat := max d.pwr.want (1000000 * d.get PWR_TARGET.prethaw_w) + d.wakeUw

/-- A TOKEN_REQ to the elected coordinator, excess the path in use (R383, R385). -/
def Dev.sendTokenReq (d : Dev) (windows flags forcedMw : Nat) : Dev :=
  if !d.pwrRunning then d
  else
    let n := d.pwr.reqSeq
    let dst := d.get PWR_THAW_STAT.coord_id
    let p := d.mkControl dst 0x21 [(25, 2, d.get PWR_THAW_CFG.site_id), (27, 2, d.myId), (29, 1, flags), (30, 1, d.slot),
      (32, 4, windows), (36, 4, forcedMw), (40, 4, n)]
    let d := d.setPwr fun u => { u with reqSeq := (n + 1) % 2 ^ 32 }
    match d.get PWR_THAW_STAT.path with
    | 1 => d.sendHeld p .token
    | 2 => d.sendSegment 3 groupMac p
    | _ => d

/-- A wait for tokens ends (R387). -/
def Dev.endTokenWait (d : Dev) : Dev :=
  let w := d.pwr.waited
  let d := (d.setPwr fun u => { u with waited := 0 }).sets [(PWR_THAW_STAT.waiting, 0), (PWR_THAW_STAT.windows_waited, 0)]
  if w = 0 then d
  else ((d.set PWR_THAW_COUNT.max_wait (max (d.get PWR_THAW_COUNT.max_wait) w)).set PWR_EVENT.thaw_wait 1).emit (.telemetry 9 [w])

/-- The token size of the elected coordinator in 1/16 W: its own where this device is it, else as announced (R382, R383). -/
def Dev.tokenSize (d : Dev) : Nat :=
  if d.flag PWR_COORD.is_coord then d.get PWR_SITE.tok_w
  else ((d.pwr.heard.find? fun e => e.dev == d.get PWR_THAW_STAT.coord_id).map (·.tokW)).getD (d.get PWR_SITE.tok_w)

/-- The request follows the demand (R383): sent when it begins, when its count changes, every 8 windows while it waits, and with
the cancel flag when it ends. -/
def Dev.renewRequest (d : Dev) (w : Nat) : Dev :=
  let u := d.pwr
  let need := d.flag PWR_THAW_CFG.site_en && decide (u.draw + 62500 * d.get PWR_THAW_CFG.step_w < d.demand)
  let size := max 1 (min (62500 * d.tokenSize) (d.get PWR_SLEW_UP.slew * d.windowNs / 1000))
  let count := (d.demand - u.draw + size - 1) / size
  match u.asked, need with
  | none, false => d
  | none, true =>
    ((d.setPwr fun u => { u with asked := some (count, w), waited := 0 }).sendTokenReq count 0 0).set PWR_THAW_STAT.waiting 1
  | some _, false => ((d.setPwr fun u => { u with asked := none }).sendTokenReq 0 2 0).endTokenWait
  | some (c, last), true =>
    if c = count && decide (w < last + 8) then d
    else (d.setPwr fun u => { u with asked := some (count, w) }).sendTokenReq count 0 0

/-- TOKEN_GRANTs of a coordinator for window w (R384): K to the first K requests, at most one each; a device that wants more goes
to the back. -/
def Dev.grantTokens (d : Dev) (w : Nat) : Dev :=
  let debt := d.get PWR_COORD.debt_mw
  let tok := d.get PWR_SITE.tok_w * 1000 / 16
  let k := d.tokensPerWindow debt
  let fault := d.tokensPerWindow 0 == 0
  let d := d.sets [(PWR_COORD.k_tokens, min k 1023), (PWR_COORD.debt_mw, debt - min debt (d.windowBudget / 16000000))]
  if !d.pwrRunning then d
  else if fault then d.set PWR_EVENT.budget_fault 1
  else
    let now := d.pwr.queue.take k
    let rest := d.pwr.queue.drop k ++ (now.filter fun e => decide (1 < e.2.2)).map fun e => (e.1, e.2.1, e.2.2 - 1)
    let d := (d.setPwr fun u => { u with queue := rest }).set PWR_COORD.queue rest.length
    now.foldl (fun d e =>
      if e.1 = d.myId then (d.setPwr fun u => { u with grants := u.grants ++ [(w, 1000 * tok)] }).incWrap PWR_THAW_COUNT.tokens 1
      else
        let p := d.mkControl e.1 0x22 [(25, 2, d.get PWR_THAW_CFG.site_id), (27, 2, d.myId), (32, 6, w), (38, 4, tok)]
        if e.2.1 = 2 then d.sendSegment 3 groupMac p else d.sendHeld p .none) d

/-- A token window begins (R381, R383, R384, R386). -/
def Dev.tokenWindow (d : Dev) : Dev :=
  let w := d.windowNow
  let u := d.pwr
  if w ≤ u.window then d
  else
    let d := if u.forcedW = 0 then d
      else
        let d := (((d.incSat PWR_THAW_COUNT.forced_windows 1).set PWR_EVENT.forced 1).jnlEventAfter u.forcedBy 0x0050
          (regAddr PWR_THAW_STAT.off) (u.forcedW / 1000000))
        d.sendTokenReq 0 1 (u.forcedW / 1000)
    let grant := (u.grants.find? fun g => g.1 == w).map (·.2)
    let d := d.setPwr fun u => { u with window := w, rise := 0, token := grant.getD 0, forcedW := 0
                                        grants := u.grants.filter fun g => decide (w < g.1) }
    let d := match grant, u.asked with
      | some _, some (c, last) =>
        (d.endTokenWait.setPwr fun u => { u with asked := if c ≤ 1 then none else some (c - 1, last) }).set PWR_THAW_STAT.waiting
          (decide (1 < c)).toNat
      | none, some _ => (d.setPwr fun u => { u with waited := u.waited + 1 }).incSat PWR_THAW_STAT.windows_waited 1
      | _, none => d
    let d := d.renewRequest w
    if d.flag PWR_COORD.is_coord then d.grantTokens (w + 1) else d

/-- TOKEN_WINDOW: R381. -/
def execTokenWindow (s : State) : Host.Outcome State Fault Refusal := onDev s fun d => d.tokenWindow

/-- A received COORD_ANNOUNCE of the site (R382). -/
def Dev.coordAnnounce (d : Dev) (path : Nat) (p : Packet) : Dev :=
  if pktNum p 26 2 != d.get PWR_THAW_CFG.site_id then d
  else
    let id := pktNum p 28 2 % 32768
    let e : Coord := { prio := pktNum p 25 1, dev := id, tokW := pktNum p 32 2, ns := d.clk.timeNs, path := path }
    (d.setPwr fun u => { u with heard := (d.coordsHeard.filter fun x => !(x.dev == id && x.path == path)) ++ [e] }).electCoord

/-- COORD_ANNOUNCE: R382. -/
def execCoordAnnounce (s : State) : Host.Outcome State Fault Refusal :=
  onDev s fun d => d.onEither 0x20 false fun d path _ p => d.coordAnnounce path p

/-- A coordinator broadcasts COORD_ANNOUNCE every 10 ms, on the fabric and on the segment (R382, R459, R463). -/
def Dev.coordSend (d : Dev) : Dev :=
  let d := d.electCoord
  if !d.pwrRunning || !d.flag PWR_COORD.is_coord || decide (d.clk.timeNs < d.pwr.coordNs + 10000000) then d
  else
    let n := d.pwr.coordSeq
    let d := d.setPwr fun u => { u with coordNs := d.clk.timeNs, coordSeq := (n + 1) % 2 ^ 32 }
    let p := d.mkControl 0 0x20 [(25, 1, d.get PWR_THAW_CFG.coord_prio), (26, 2, d.get PWR_THAW_CFG.site_id), (28, 2, d.myId),
      (30, 2, d.get PWR_THAW_CFG.tok_window_ticks), (32, 2, d.get PWR_SITE.tok_w), (34, 2, d.get PWR_THAW_CFG.step_w), (36, 4, n)]
    (d.broadcast 0 p).sendSegment 3 groupMac { p with broadcast := true }

/-- COORD_ANNOUNCE_SEND: R382. -/
def execCoordAnnounceSend (s : State) : Host.Outcome State Fault Refusal := onDev s fun d => d.coordSend

/-- COORDINATOR_LOST: R385; the election is made again of what was heard in the last 30 ms. -/
def execCoordinatorLost (s : State) : Host.Outcome State Fault Refusal :=
  onDev s fun d => (d.setPwr fun u => { u with heard := d.coordsHeard }).electCoord

/-- A received TOKEN_REQ (R384, R386): it enters the queue in order of first arrival, is cancelled, or reports a forced rise. -/
def Dev.tokenReq (d : Dev) (path : Nat) (p : Packet) : Dev :=
  if !d.flag PWR_COORD.is_coord || pktNum p 25 2 != d.get PWR_THAW_CFG.site_id then d
  else
    let dev := pktNum p 27 2 % 32768
    let fl := pktNum p 29 1
    let n := pktNum p 32 4
    let q := d.pwr.queue
    let d := if fl.testBit 0 then d.incSat PWR_COORD.debt_mw (pktNum p 36 4) else d
    let q' := if fl.testBit 1 then q.filter fun e => e.1 != dev
      else if n = 0 then q
      else if q.any fun e => e.1 == dev then q.map fun e => if e.1 == dev then (dev, path, n) else e
      else q ++ [(dev, path, n)]
    (d.setPwr fun u => { u with queue := q' }).set PWR_COORD.queue q'.length

/-- TOKEN_REQ: R384. -/
def execTokenReq (s : State) : Host.Outcome State Fault Refusal :=
  onDev s fun d => d.onEither 0x21 true fun d path _ p => d.tokenReq path p

/-- A received TOKEN_GRANT (R383): held for its window, or late. -/
def Dev.tokenGrant (d : Dev) (p : Packet) : Dev :=
  if pktNum p 25 2 != d.get PWR_THAW_CFG.site_id then d
  else
    let w := pktNum p 32 6
    if w ≤ max d.windowNow d.pwr.window then (d.incSat PWR_THAW_STAT.late_grants 1).set PWR_EVENT.late_grant 1
    else (d.setPwr fun u => { u with grants := u.grants ++ [(w, pktNum p 38 4 * 1000)] }).incWrap PWR_THAW_COUNT.tokens 1

/-- TOKEN_GRANT: R383. -/
def execTokenGrant (s : State) : Host.Outcome State Fault Refusal :=
  onDev s fun d => d.onEither 0x22 true fun d _ _ p => d.tokenGrant p

/-! ### Domains (R12 to R14, R389, R390, R393) -/

/-- A routing table uses a port (R14): a valid next hop names it or its face, or a valid multicast entry its face. That any
valid entry counts is the model's choice (log entry 152). -/
def Dev.portRouted (d : Dev) (p : Nat) : Bool :=
  let face := d.get (FABP_CFG.face p)
  ((List.range 256).any fun i => d.flag (FAB_NHA.valid i) &&
    (if d.flag (FAB_NHA.kind i) then d.get (FAB_NHA.target i) == p else d.get (FAB_NHA.target i) == face)) ||
  (List.range 256).any fun m => d.flag (FAB_MCT.valid m) && d.bitOf (FAB_MCT.faces m) face

/-- A port carries a trained link (R14): the states behind the alignment of its lanes (the model's choice, log entry 152). -/
def Dev.linkTrained (d : Dev) (p : Nat) : Bool :=
  [psActive, psLinkInit, psHandshake, psQuarantine, psRetrain, psWithdrawn].contains (d.portState p)

/-- A domain may take a state (R12, R13, R14). -/
def Dev.domainOk (d : Dev) (dom st : Nat) : Bool :=
  if dom = 0 then st == 0
  else if dom < 17 then decide (st < 2) || (match d.bayOfAg (dom - 1) with | some b => !d.bayBusy b | none => true)
  else if dom < 19 then
    st != 2 && (st != 3 || (domPorts dom).all fun p => !(d.linkTrained p && d.portRouted p))
  else decide (st < 2)

/-- A request of an origin to move a domain; the refused one changes nothing (R390). -/
def Dev.domainRequest (d : Dev) (origin dom st : Nat) : Dev :=
  if d.domainOk dom st then d.moveDomain origin dom st
  else
    (d.jnlRefused origin (PWR_DOM.off dom) 0 (d.rd (PWR_DOM.off dom)) (insField (d.rd (PWR_DOM.off dom)) 0 2 st)).sets
      [(PWR_DOM.refused dom, 1), (PWR_EVENT.dom_refused, 1)]

/-- The contents and pegs of an AG's slice are lost: zero, as the scrub leaves them (R13). -/
def Dev.agScrub (d : Dev) (n : Nat) : Dev :=
  let pegs (o : Nat) : Bool := decide (AG_PEG.off n 0 ≤ o) && decide (o ≤ AG_PEG.off n 4095)
  let slice (a : Nat) : Bool := decide (tileBase n ≤ a) && decide (a < tileBase n + 0xC000000)
  { d with regs := d.regs.filter fun e => !pegs e.1
           mem := { d.mem with loc := d.mem.loc.filter fun e => !slice e.1 } }

/-- An AG loses its logic's state, and in OFF its slice and pegs too (R13). -/
def Dev.agDown (d : Dev) (n : Nat) (off : Bool) : Dev :=
  let d := (List.range 6).foldl (fun d x => (d.stopArray (6 * n + x)).putArr (6 * n + x) ArrayU.reset) d
  let d := (List.range 6).foldl (fun d x => d.putVec (6 * n + x) VecU.reset) d
  let d := (List.range 4).foldl (fun d e => (d.putDma (4 * n + e) DmaU.reset).set (AG_DMA_STATUS.state n e) 0) d
  if off then d.agScrub n else d

/-- A MEM domain in OFF loses all HBM contents, the journal ring and the sister regions among them (R13); the early buffer lies
in AO (R481). -/
def Dev.hbmLost (d : Dev) : Dev :=
  { d with mem := { d.mem with loc := d.mem.loc.filter fun e => decide (0x8000000000 ≤ e.1) }
           flt := { d.flt with slots := [] }
           jnl := { d.jnl with lostBelow := if d.boot.early then max d.jnl.lostBelow d.jnl.earlyFrom else d.jnlSeq } }

/-- A domain reaches a state, with what it loses and starts (R13, R389, R478): an AG that leaves OFF is scrubbed. -/
def Dev.domainReach (d : Dev) (dom st : Nat) : Dev :=
  let was := d.get (PWR_DOM.state dom)
  let d := d.sets [(PWR_DOM.state dom, st), (PWR_DOM.moving dom, 0)]
  if dom = 0 then d
  else if dom < 17 then
    let d := if was = 3 then d.agScrub (dom - 1) else d
    if st < 2 then d else d.agDown (dom - 1) (st == 3)
  else if dom < 19 then
    let d := if d.boot.step = 9 then { d with boot := { d.boot with stepNs := d.clk.timeNs } } else d
    if st = 0 then (domPorts dom).foldl (fun d p => d.portAdmin p) d
    else (domPorts dom).foldl (fun d p => if d.portState p == psDisabled then d
      else (d.updPort p fun u => { u with hbNs := none, returning := false }).setPort p psDisabled) d
  else if st = 3 then d.hbmLost
  else d

/-- Draw of a domain without work in a state, µW (R389). -/
def domainUw (dom st : Nat) : Nat :=
  if dom = 0 then 60000000
  else if dom < 17 then [10000000, 7000000, 1500000, 0].getD st 0
  else if dom < 19 then [120000000, 20000000, 20000000, 0].getD st 0
  else [40000000, 12000000, 12000000, 0].getD st 0

/-- The holding load can take up what a domain's draw falls by (R388); before hold_max has been measured (R378) nothing is asked of
it, nor while rule 3 is suspended (R392). -/
def Dev.holdTakesUp (d : Dev) (dom st : Nat) : Bool :=
  let mx := 1000000 * d.get PWR_FROST.hold_max_w
  d.get PWR_STATUS.mode != 0 || mx == 0 || decide (d.pwr.hold + domainUw dom (d.get (PWR_DOM.state dom)) ≤ mx + domainUw dom st)

/-- DOMAIN_TRANSITION_DONE: R389, R390; requests wait while PWR restarts (R402), and a move that R13 or R14 forbids by now waits
(log entry 151), as does one whose fall the holding load cannot take up (R388). -/
def execDomainTransitionDone (dom : DomId) (s : State) : Host.Outcome State Fault Refusal :=
  onDev s fun d =>
    let st := d.get (PWR_DOM.req dom.val)
    if d.flag (PWR_DOM.moving dom.val) && d.pwrRunning && d.domainOk dom.val st && d.holdTakesUp dom.val st then
      d.domainReach dom.val st
    else d

/-- The thermal trip (R393): THERMTRIP_N, and AG, FAB and MEM domains OFF, with what they lose; recorded afterwards as one event. -/
def Dev.thermalTrip (d : Dev) : Dev :=
  if d.pwr.trip then d
  else
    let doms := (List.range 20).filter fun k => k != 0 && d.get (PWR_DOM.state k) != 3
    let d := (d.setPwr fun u => { u with trip := true, hold := 0 }).emit .thermtrip
    let d := doms.foldl (fun d k => d.domainReach k 3) d
    (d.jnlEventAfter 0x50 0x0051 (regAddr PWR_STATUS.off) (doms.foldl (fun m k => m + 2 ^ k) 0)).bootFail 0x0B

/-- THERMAL_TRIP: R393. -/
def execThermalTrip (s : State) : Host.Outcome State Fault Refusal := onDev s fun d => d.thermalTrip

end Sys2Proof.Machine
end

