-- ==== Sys2Proof/Machine/Sec.lean ====
section
/-! DEFINITION. SEC: seals and the export of the journal, key packages, owner records, IDE failures
(spec/18_security_and_journal.md, R418 to R424, R429 to R431). -/

namespace Sys2Proof.Machine

/-- SEC runs (R397: core 0). -/
def Dev.secRunning (d : Dev) : Bool := d.get (GLB_FW_CORE.state 0) == 0

/-- SEC can act on what makes a journal entry: it runs, and no full journal stalls it (R402, R430). -/
def Dev.secFree (d : Dev) : Bool := d.secRunning && !d.jnlFull

def Dev.setJnl (d : Dev) (f : Journal → Journal) : Dev := { d with jnl := f d.jnl }

/-! ### Seals (R429) -/

/-- The 4,096 bytes of a seal record: a context 6 signature block of signed length 0 (R411, R429). -/
def sealBytes (r : SealRec) : List Byte :=
  toBytes 4 0x42474953 ++ toBytes 2 1 ++ toBytes 2 1 ++ toBytes 8 (r.keys.getD 0 0) ++
    toBytes 8 (r.keys.getD 1 0) ++ toBytes 8 0 ++ toBytes 1 6 ++ List.replicate 31 0 ++ toBytes 48 r.digest ++
    toBytes 3373 r.sig ++ List.replicate 611 0

/-- IDs of the alias keys: those of the device's identity under the SEC image that runs (R413). -/
def Dev.aliasKeys (d : Dev) : List Nat :=
  (List.range 2).map (Config.aliasKeyId (d.board.keyIds.getD 0 0) (Config.imageDigest 0 (d.get (GLB_FW_CORE.fw_level 0))))

/-- Local address of the read window of a seal record (R429, R431). -/
def sealAddr (k : Nat) : Nat := 0x8100500000 + k % 256 * 4096

/-- Entries appended since the newest seal entry. -/
def Dev.unsealed (d : Dev) : Nat := d.jnlSeq - d.jnl.sealedSeq

/-- A seal entry is appended, and its record made (R429). -/
def Dev.seal (d : Dev) : Dev :=
  let k := d.jnl.seals.length
  let old := match d.jnl.seals with | r :: _ => r.seq | [] => 0
  let n := d.jnlSeq
  let prev := d.jnlPrev
  let e := d.jnlAppend 0x10 (addrWord (sealAddr k) 4 0 0) old d.unsealed
  let digest := match e.jnl.entries with | x :: _ => ofBytes (chainValue prev x) | [] => 0
  let keys := d.aliasKeys
  let r : SealRec := { index := k, seq := n, digest := digest, keys := keys, sig := Config.sealSignature (keys.getD 0 0) (keys.getD 1 0) digest }
  (e.setJnl fun j => { j with seals := r :: j.seals, sealedSeq := n + 1, lastSealNs := d.clk.timeNs, sealDue := false }).sets
    [(JNL_SEALED.seal_seq, n), (JNL_SEALED.seal_index, k), (JNL_EVENT.sealed, 1)]

/-- A seal has fallen due: 65,536 entries, or 1 s and an entry, since the one before (R429). -/
def Dev.sealTime (d : Dev) : Bool :=
  decide (65536 ≤ d.unsealed) || (decide (1 ≤ d.unsealed) && decide (d.jnl.lastSealNs + 1000000000 ≤ d.clk.timeNs))

/-- SEAL: R429; a seal that falls due while SEC restarts is made on return (R402). -/
def execSeal (s : State) : Host.Outcome State Fault Refusal :=
  onDev s fun d => if !d.sealTime then d else if d.secRunning then d.seal else d.setJnl fun j => { j with sealDue := true }

/-! ### What JNL_STATUS shows (R430) -/

/-- A joint commit waits for room: its edge has passed. -/
def Dev.commitsWait (d : Dev) : Bool := d.jnlFull && d.jt.armed.any fun a => decide (a.edge ≤ d.tick)

/-- Writers wait. -/
def Dev.writersWait (d : Dev) : Bool := !d.jnl.held.isEmpty || !d.jnl.queued.isEmpty || d.commitsWait

/-- JNL_STATUS as it stands now, and the time writers have waited. -/
def Dev.jnlShow (d : Dev) : Dev :=
  let now := d.clk.timeNs
  let d := match d.jnl.waitSince with
    | some t => (d.incSat JNL_STATUS.wait_us ((now - t) / 1000)).setJnl fun j =>
        { j with waitSince := if d.writersWait then some (t + (now - t) / 1000 * 1000) else none }
    | none => if d.writersWait then d.setJnl fun j => { j with waitSince := some now } else d
  d.sets [(JNL_STATUS.full, d.writersWait.toNat),
    (JNL_STATUS.export_stall, (d.jnlFull && d.flag JNL_CFG.export_en && decide (d.jnl.consumedSeq < d.jnl.sealedSeq)).toNat),
    (JNL_STATUS.free_k, min 4096 ((d.jnlCapacity - d.jnlUnreleased) / 1024))]

/-- Queued events are appended in order while the ring has room (R430). -/
def Dev.drainEvents (d : Dev) : Nat → Dev
  | 0 => d
  | n + 1 =>
    match d.jnl.queued with
    | e :: rest =>
      if d.jnlFull then d
      else ((d.setJnl fun j => { j with queued := rest }).jnlEvent e.origin e.code e.addr e.detail e.merged).drainEvents n
    | [] => d

/-! ### Export (R431) -/

/-- The host and the bus address of the export ring. -/
def Dev.exportPlace (d : Dev) : Option (Nat × Nat) :=
  match localKind (d.get JNL_EXPORT_BASE.export_base) with
  | .window p => some (p, d.get JNL_EXPORT_BASE.export_base % 2 ^ 37)
  | _ => none

/-- The export stops because a host write failed. -/
def Dev.exportFail (d : Dev) : Dev :=
  if d.flag JNL_CFG.export_en then (d.setJ 0x50 JNL_CFG.export_en 0).set JNL_EVENT.export_fail 1 else d

/-- Entry s of the journal. -/
def Dev.jnlAt (d : Dev) (s : Nat) : Option JEntry := if s < d.jnlSeq then d.jnl.entries[d.jnlSeq - 1 - s]? else none

/-- The seal record whose entry has sequence s. -/
def Dev.sealAt (d : Dev) (s : Nat) : Option SealRec := d.jnl.seals.find? fun r => r.seq == s

/-- At most n further entries are copied to the host ring, each seal record with its entry; the host ring's own room is
respected. -/
def Dev.exportCopy (d : Dev) (p base log2 : Nat) : Nat → Dev
  | 0 => d
  | n + 1 =>
    let s := max d.jnl.exportSeq d.jnl.lostBelow
    match d.jnlAt s with
    | none => d
    | some e =>
      if d.jnl.consumedSeq + 2 ^ log2 ≤ s then d
      else
        let d := d.putHostBytes p (base + 64 + s % 2 ^ log2 * 64) e.bytes
        let d := match d.sealAt s with
          | some r => d.putHostBytes p (base + 64 + 2 ^ log2 * 64 + r.index % 64 * 4096) (sealBytes r)
          | none => d
        let d := d.putHostBytes p (base + 8) (toBytes 8 (s + 1))
        (d.setJnl fun j => { j with exportSeq := s + 1 }).exportCopy p base log2 n

/-- The copy runs up to the newest entry. -/
def Dev.exportRun (d : Dev) : Dev :=
  if !d.flag JNL_CFG.export_en then d
  else match d.exportPlace with
    | none => d.exportFail
    | some (p, a) =>
      let n := 64 + 2 ^ d.get JNL_CFG.exp_log2 * 64 + 64 * 4096
      if d.untranslated p 0 a n then d.exportFail else d.exportCopy p a (d.get JNL_CFG.exp_log2) (d.jnlSeq - d.jnl.exportSeq)

/-- export_en has been written 1: the copy starts at the oldest entry of the ring. -/
def Dev.exportStart (d : Dev) : Dev :=
  let port := match d.exportPlace with | some (p, _) => p | none => 0
  (d.setJnl fun j => { j with exportSeq := d.jnlSeq - d.jnlCapacity, consumedSeq := d.jnlSeq - d.jnlCapacity,
                              exportPort := port }).exportRun

/-- The consumer sequence is read, and the copy goes on (R431). -/
def Dev.exportPoll (d : Dev) (readable : Bool) : Dev :=
  if !d.flag JNL_CFG.export_en then d
  else match d.exportPlace with
    | none => d.exportFail
    | some (p, a) =>
      if !readable || d.untranslated p 0 a 64 then d.exportFail
      else (d.setJnl fun j => { j with consumedSeq := ofBytes (d.hostBytes p a 8) }).exportRun

/-- EXPORT_POLL: R431. -/
def execExportPoll (readable : Bool) (s : State) : Host.Outcome State Fault Refusal := onDev s fun d => d.exportPoll readable

/-! ### SEC_CMD (R418 to R420) -/

/-- A command of SEC_CMD ends: reason 0 is done. -/
def Dev.secResult (d : Dev) (op reason : Nat) : Dev :=
  let d := d.sets [(SEC_CMDSTAT.last_op, op), (SEC_CMDSTAT.result, if reason = 0 then 2 else 3), (SEC_CMDSTAT.reason, reason),
    (SEC_EVENT.cmd_done, 1)]
  if reason = 1 then d.set SEC_EVENT.verify_fail 1 else d

/-- n bytes at SEC_CMDADDR, where they can be read. -/
def Dev.secSource (d : Dev) (n : Nat) : Option (List Byte) :=
  let a := d.get SEC_CMDADDR.src
  let ok := match localKind a with
    | .hbm => localKind (a + n - 1) == .hbm && d.rangeReach a n
    | .window p => localKind (a + n - 1) == .window p && !d.untranslated p 0 (a % 2 ^ 37) n
    | _ => false
  if a % 4096 == 0 && ok then some (d.localBytes a n) else none

/-- Snapshot keys held, shown. -/
def Dev.showKeys (d : Dev) : Dev := d.set SEC_STATUS.snap_keys d.snapKeys.length

/-- Why a key package is not installed, 0 where it is (R419, R420): kind, port and association or tag are read from it. -/
def Dev.packageReason (d : Dev) (pkg : List Byte) : Nat :=
  let kind := imgNat pkg 5 1
  let id := imgNat pkg 6 2
  if !(objectVerifies 5 d.board.ownerKeys pkg && d.flag SEC_STATUS.owned && imgNat pkg 0 4 == 0x474B504B && imgNat pkg 4 1 == 1 &&
      decide (kind ≤ 2) && imgNat pkg 1204 2892 == 0) then 1
  else if imgNat pkg 16 8 != d.get GLB_SERIAL.serial then 3
  else if imgNat pkg 8 8 < Tab.get (fun _ => 0) d.keySeq kind then 2
  else if (d.packageKeys kind pkg).isNone then 3
  else if kind = 0 then 5
  else if kind = 1 then
    if 50 ≤ id / 256 || 6 ≤ id % 256 then 6
    else if d.flag (FABP_SEC.sec_en (id / 256)) && id % 256 == d.get (FABP_SEC.tx_an (id / 256)) then 5 else 0
  else if (Tab.get (fun _ => none) d.snapKeys (id % 4096)).isNone && decide (64 ≤ d.snapKeys.length) then 5 else 0

/-- A MACsec key is installed in an association of a port, 0 and 1 to transmit and 2 to 5 to receive, whose packet numbers start anew
(R298, R419). -/
def Dev.installMacsec (d : Dev) (p a : Nat) (key : Option Nat) : Dev :=
  ({ d with sec := { d.sec with macsec := Tab.put (fun _ => none) d.sec.macsec (6 * p + a) key } } : Dev).updPort p fun u =>
    if a < 2 then { u with txPn := u.txPn.set a 1 } else { u with rxPn := u.rxPn.set (a - 2) 1 }

/-- A key package is installed or refused (R420). -/
def Dev.installPackage (d : Dev) : Dev :=
  match d.secSource 8192 with
  | none => d.secResult 1 6
  | some pkg =>
    let reason := d.packageReason pkg
    let kind := imgNat pkg 5 1
    let id := imgNat pkg 6 2
    if reason ≠ 0 then d.secResult 1 reason
    else
      let key := d.packageKeys kind pkg
      let d := d.acceptSeq kind pkg
      let d := if kind = 1 then d.installMacsec (id / 256) (id % 256) key
        else ({ d with snapKeys := Tab.put (fun _ => none) d.snapKeys (id % 4096) key } : Dev).showKeys
      (d.jnlEventAfter 0x10 0x0010 (regAddr SEC_CMD.off) (kind + (if kind = 1 then id else id % 4096) * 256)).secResult 1 0

/-- Every snapshot key and every installed MACsec key is zeroised (R418). -/
def Dev.zeroiseKeys (d : Dev) : Dev := ({ d with snapKeys := [], sec := { d.sec with macsec := [] } } : Dev).showKeys

/-- Why an owner record is refused, 0 where it is accepted (R418). -/
def Dev.ownerReason (d : Dev) (r : Config.OwnerRecord) (obj : List Byte) : Nat :=
  let enrol := r.kind == 0
  if !((List.range 8).all fun b => d.bayState b == bayEmpty) then 4
  else if enrol == d.flag SEC_STATUS.owned || (enrol && !d.flag SEC_STATUS.enrol_strap) then 4
  else if !objectVerifies 3 (if enrol then r.keys else d.board.ownerKeys) (obj.take r.length) then 1
  else if r.kind == 1 && r.keys != d.board.ownerKeys then 4
  else if !enrol && decide (r.epoch ≤ d.get (SEC_CTR.value 5)) then 2
  else 0

/-- SEC writes an accepted owner section: owner keys, settings and epoch (R415, R418). -/
def Dev.writeOwner (d : Dev) (r : Config.OwnerRecord) : Dev :=
  let release := r.kind == 3
  let keys := if release then [0, 0] else r.keys
  let d := { d with board := { d.board with
    ownerValid := !release, ownerKeys := keys, epoch := r.epoch, coords := r.coords, selfAssign := r.selfAssign,
    sysId := r.sysId, domId := r.domId, rack := r.rack,
    masterEn := r.masterEn, adminEn := r.adminEn, siteEn := r.siteEn, envW := r.envW, ownUpMax := r.upMax, ownDnMax := r.dnMax } }
  d.sets [(SEC_STATUS.owned, (!release).toNat), (SEC_OWNER0.owner_key_id, keys.getD 0 0), (SEC_OWNER1.owner_key_id, keys.getD 1 0),
    (SEC_CTR.value 5, r.epoch), (SEC_EVENT.owner_changed, 1)]

/-- An owner record is accepted or refused (R418). -/
def Dev.presentOwner (d : Dev) : Dev :=
  match d.secSource 65536 with
  | none => d.secResult 2 6
  | some obj =>
    match Config.ownerRecord obj with
    | none => d.secResult 2 1
    | some r =>
      let reason := d.ownerReason r obj
      if reason ≠ 0 then d.secResult 2 reason
      else
        let d := d.writeOwner r
        let d := if 2 ≤ r.kind then d.zeroiseKeys else d
        (d.jnlEventAfter 0x10 0x0011 (regAddr SEC_CMD.off) (r.kind + r.epoch % 2 ^ 24 * 256)).secResult 2 0

/-- SEC serves a command. -/
def Dev.secServe (d : Dev) (op : Nat) : Dev :=
  match op with
  | 1 => d.installPackage
  | 2 => d.presentOwner
  | _ => d.seal.secResult 3 0

/-- SEC can serve a command now: a seal needs no room but its own (R429, R430). -/
def Dev.secServes (d : Dev) (op : Nat) : Bool := if op = 3 then d.secRunning else d.secFree

/-- A write to SEC_CMD: refused while another waits or for a reserved op; it waits while SEC restarts or stalls (R402, R430). -/
def Dev.secCmd (d : Dev) (via : Via) (op : Nat) : Dev :=
  if !d.fw.secWait.isEmpty || !within op 1 4 then d.secResult op 5
  else if d.secServes op then d.secServe op
  else ({ d with fw := { d.fw with secWait := [(via, op)] } } : Dev).sets
    [(SEC_CMDSTAT.last_op, op), (SEC_CMDSTAT.result, 1), (SEC_CMDSTAT.reason, 0), (SEC_STATUS.busy, 1)]

/-- Field sections whose writing waited (R417). -/
def Dev.writeDue (d : Dev) : Nat → Dev
  | 0 => d
  | n + 1 =>
    if d.board.due = 0 || !d.secFree then d
    else ({ d with board := { d.board with due := d.board.due - 1 } } : Dev).writeField.writeDue n

/-- SEC takes up what waits: field sections, then the command. -/
def Dev.secResume (d : Dev) : Dev :=
  let d := d.writeDue d.board.due
  match d.fw.secWait with
  | e :: rest =>
    if d.secServes e.2 then (({ d with fw := { d.fw with secWait := rest } } : Dev).set SEC_STATUS.busy 0).secServe e.2 else d
  | [] => d

/-- SEC runs again: the seal that fell due, then what waits (R402, R417). -/
def Dev.secReturn (d : Dev) : Dev := (if d.jnl.sealDue then d.seal else d).secResume

/-! ### IDE (R424) -/

/-- A stream becomes insecure; the event's journal entry has no code in R501, so its code and
detail are open. -/
def Dev.ideFail (d : Dev) (p stream : Nat) : Dev :=
  let l := d.sec.insecure
  let d := { d with sec := { d.sec with insecure := if l.contains (p, stream) then l else l ++ [(p, stream)] } }
  (d.set SEC_EVENT.ide_fail 1).jnlEventAfter 0x50 (Config.ideEvent p stream % 65536) (regAddr SEC_EVENT.off)
    (Config.ideEvent p stream / 65536)

/-- IDE_FAIL: R424. -/
def execIdeFail (port : HostPort) (stream : Fin 9) (s : State) : Host.Outcome State Fault Refusal :=
  onDev s fun d => d.ideFail port.val stream.val

end Sys2Proof.Machine
end

