-- ==== Sys2Proof/Machine/Fw.lean ====
section
/-! DEFINITION. The firmware cores: restarts, staging, activation (spec/17_firmware.md, R397 to R409). -/

namespace Sys2Proof.Machine

/-- Cores: 0 SEC, 1 PWR, 2 SCH, 3 + g CCg (R397). -/
def coreKind (c : Nat) : Nat := min c 3

def Dev.coreState (d : Dev) (c : Nat) : Nat := d.get (GLB_FW_CORE.state c)

def Dev.setFw (d : Dev) (f : FwU → FwU) : Dev := { d with fw := f d.fw }

def FwImage.none : FwImage := { secVer := 0, level := 0, ifLevel := 0, ifMin := 0 }

/-- The bundle of role A or B. -/
def Dev.bundle (d : Dev) (roleB : Bool) : Bundle :=
  let k := if roleB then 1 - d.get GLB_FW_SLOTS.a_phys else d.get GLB_FW_SLOTS.a_phys
  d.board.slots.getD k { level := 0, images := [] }

/-- The image of a role for a core. -/
def Dev.imageOf (d : Dev) (roleB : Bool) (c : Nat) : FwImage := (d.bundle roleB).images.getD (coreKind c) FwImage.none

/-- The image that a core runs. -/
def Dev.runningImage (d : Dev) (c : Nat) : FwImage := d.imageOf (d.flag (GLB_FW_CORE.slot_b c)) c

/-! ### Restarts (R399 to R402) -/

/-- recent of a core: counted restarts in the last 60 s (R401). -/
def Dev.showRecent (d : Dev) (c : Nat) : Dev :=
  let l := (Tab.get (fun _ => []) d.fw.times c).filter fun t => decide (d.clk.timeNs < t + 60000000000)
  (d.setFw fun u => { u with times := Tab.put (fun _ => []) u.times c l }).set (GLB_FW_CORE.recent c) (min 255 l.length)

/-- A raise in progress is abandoned when SCH restarts; in an activation, one held at the end of phase 2 goes on afterwards
(R402, R406). -/
def Dev.abandonRaises (d : Dev) (activation : Bool) : Dev :=
  (List.range 8).foldl (fun d b =>
    match (d.bayU b).raise with
    | some _ => if activation && decide (d.get (SCH_BAY_RAISE.phase b) ≤ 2) then d else d.raiseFail b stInternal
    | none => d) d

/-- A core is restarted with a cause; the state shows RESTARTING, or ACTIVATING for cause 4 (R399, R400). -/
def Dev.beginRestart (d : Dev) (c cause : Nat) : Dev :=
  let d := (d.setFw fun u => { u with begun := Tab.put (fun _ => 0) u.begun c (1 + d.clk.timeNs) }).sets
    [(GLB_FW_CORE.state c, if cause = 4 then 2 else 1), (GLB_FW_CORE.last_cause c, cause), (GLB_FW_CORET.last_restart_tick c, d.tick)]
  let d := d.incSat (GLB_FW_CORE.restarts c) 1
  if c = 2 then
    let d := d.abandonRaises (cause == 4)
    (List.range 8).foldl (fun d b => d.restoreEnd b stInternal 0) d
  else d

/-- slot_b of a core and on_b. -/
def Dev.setSlot (d : Dev) (c : Nat) (b : Bool) : Dev :=
  let d := d.sets [(GLB_FW_CORE.slot_b c, b.toNat), (GLB_FW_CORE.fw_level c, (d.imageOf b c).level)]
  if b then d.setBit GLB_FW_SLOTS.on_b c else d.clearBit GLB_FW_SLOTS.on_b c

/-! ### Activation and revert (R405 to R408) -/

/-- The order in which cores are activated and restarted. -/
def coreOrder : List Nat := (List.range 16).map (3 + ·) ++ [2, 1, 0]

/-- The condition an activation of a core waits for, 0 for none (R406): a raise that stops at the end of phase 2 for it does
not count. -/
def Dev.waitReason (d : Dev) (c : Nat) : Nat :=
  let raising := (List.range 8).any fun b => d.bayState b == bayRaising && decide (3 ≤ d.get (SCH_BAY_RAISE.phase b))
  let restoring := (List.range 8).any fun b => (d.fltBay b).refill.isSome
  if c = 1 then if d.get PWR_STATUS.mode ≠ 0 then 1 else 0
  else if c = 0 then if raising then 2 else 0
  else if c = 2 then if raising then 2 else if restoring then 3 else 0
  else 0

/-- Raises that stopped at the end of phase 2 go on (R406). -/
def Dev.releaseRaises (d : Dev) : Dev :=
  if d.bitOf GLB_FW_CMDSTAT.pending 0 || d.bitOf GLB_FW_CMDSTAT.pending 2 || d.coreState 0 == 2 || d.coreState 2 == 2 then d
  else (List.range 8).foldl (fun d b =>
    match d.raising b 2 with
    | some r => if r.image.isEmpty then d else d.set (SCH_BAY_RAISE.phase b) 3
    | none => d) d

/-- The roles of the slots change once every core runs role B (R407). -/
def Dev.swapSlots (d : Dev) : Dev :=
  if d.get GLB_FW_SLOTS.on_b ≠ 2 ^ 19 - 1 then d
  else
    let a := 1 - d.get GLB_FW_SLOTS.a_phys
    let vers := (List.range 4).map fun k => max (d.get (SEC_CTR.value k)) (((d.bundle true).images.getD k FwImage.none).secVer)
    let la := (d.bundle true).level
    let lb := (d.bundle false).level
    let d := vers.zipIdx.foldl (fun d v => d.set (SEC_CTR.value v.2) v.1) d
    let d := (List.range 19).foldl (fun d c => d.set (GLB_FW_CORE.slot_b c) 0) d
    let d := d.sets [(GLB_FW_SLOTS.a_phys, a), (GLB_FW_SLOTS.b_valid, 0), (GLB_FW_SLOTS.on_b, 0), (GLB_FW_LEVELS.a_level, la),
      (GLB_FW_LEVELS.b_level, lb), (GLB_FW_EVENT.slots_swapped, 1)]
    (d.jnlEventAfter 0x10 0x0022 (regAddr GLB_FW_SLOTS.off) a).fieldUpdate fun b => { b with aPhys := a, rollback := vers }

/-- An activation or revert ends. -/
def Dev.endJob (d : Dev) (j : FwJob) : Dev :=
  let d := (d.setFw fun u => { u with job := none }).sets
    [(GLB_FW_CMDSTAT.result, 2), (GLB_FW_CMDSTAT.wait_reason, 0), (GLB_FW_EVENT.activated, 1)]
  (if j.toB then d.swapSlots else d).releaseRaises

/-- The activation or revert goes as far as it can: the first core of the pending mask, in order, starts once its condition
allows it and the core before it runs (R405, R406). -/
def Dev.jobRun (d : Dev) : Dev :=
  match d.fw.job with
  | none => d
  | some j =>
    match coreOrder.find? fun c => d.bitOf GLB_FW_CMDSTAT.pending c with
    | none => if j.now.isNone then d.endJob j else d.set GLB_FW_CMDSTAT.wait_reason 0
    | some c =>
      let r := d.waitReason c
      let r := if r = 0 && j.now.isSome then 4 else r
      if r ≠ 0 || !d.secFree then d.set GLB_FW_CMDSTAT.wait_reason r
      else
        let d := (d.setFw fun u => { u with job := some { j with now := some c } }).clearBit GLB_FW_CMDSTAT.pending c
        let d := (d.set (GLB_FW_CORE.fallback c) 0).setSlot c j.toB
        let d := d.beginRestart c 4
        d.set GLB_FW_CMDSTAT.wait_reason
          (match coreOrder.find? fun c => d.bitOf GLB_FW_CMDSTAT.pending c with
           | some k => let w := d.waitReason k
                       if w = 0 then 4 else w
           | none => 0)

/-- A restart op goes on: one core after the other, FAILED cores left as they are (R401, R409). -/
def Dev.restartRun (d : Dev) : Nat → Dev
  | 0 => d
  | n + 1 =>
    match d.fw.restarts with
    | [] => d
    | c :: rest =>
      let next (d : Dev) : Dev := d.setFw fun u => { u with restarts := rest }
      if d.coreState c = 3 then
        let d := next d
        if rest.isEmpty then d.set GLB_FW_CMDSTAT.result 2 else d.restartRun n
      else if d.coreState c = 0 then d.beginRestart c 5
      else d

/-- A core fails with cause 1, 2 or 3, its watchdog only while it runs; the fourth counted restart within 60 s falls back to role
A, or ends in FAILED (R399, R401). SEC's image that does not match its digest as it restarts is cause 3 (R400). -/
def Dev.coreFails (d : Dev) (c cause : Nat) : Dev :=
  if d.coreState c = 3 || (decide (d.coreState c ≠ 0) && cause == 1) then d
  else
    let d := d.showRecent c
    let old := Tab.get (fun _ => []) d.fw.times c
    let count (d : Dev) : Dev :=
      (d.setFw fun u => { u with times := Tab.put (fun _ => []) u.times c (d.clk.timeNs :: old) }).showRecent c
    if old.length < 3 then ((count d).beginRestart c cause).set GLB_FW_EVENT.restarted 1
    else if d.flag (GLB_FW_CORE.slot_b c) then
      (((count d).setSlot c false).beginRestart c 6).sets [(GLB_FW_CORE.fallback c, 1), (GLB_FW_EVENT.fallback, 1)]
    else (d.sets [(GLB_FW_CORE.state c, 3), (GLB_FW_CORE.last_cause c, cause), (GLB_FW_EVENT.failed, 1)]).restartRun 20

/-- WATCHDOG: R399. -/
def execWatchdog (core : CoreId) (s : State) : Host.Outcome State Fault Refusal := onDev s fun d => d.coreFails core.val 1

/-- FATAL_TRAP: R399. -/
def execFatalTrap (core : CoreId) (s : State) : Host.Outcome State Fault Refusal := onDev s fun d => d.coreFails core.val 2

/-- A core meets an uncorrectable error in its own memory, or in a line of reserved HBM, which is counted as any is (R266,
R399). -/
def Dev.coreMemory (d : Dev) (c : Nat) (lost : Option Nat) : Dev :=
  match lost with
  | none => d.coreFails c 3
  | some a =>
    if d.hbmReserved a && d.bitOf GLB_STATUS.stack_usable (a / 2 ^ 36) then (d.hbmError a .uncorrectable false).coreFails c 3 else d

/-- CORE_MEMORY_ERROR: R266, R399. -/
def execCoreMemoryError (err : CoreError) (s : State) : Host.Outcome State Fault Refusal :=
  onDev s fun d => d.coreMemory err.core.val (err.lost.map (·.toNat))

/-- Firmware operations go on where they wait. -/
def Dev.fwAdvance (d : Dev) : Dev := d.jobRun.releaseRaises

/-- A core's new image passes the interface check with those the other cores will run (R405). -/
def Dev.interfaceOk (d : Dev) (toB : Bool) (mask c : Nat) : Bool :=
  let new := d.imageOf toB c
  (List.range 19).all fun k =>
    k == c ||
      (let i := if mask.testBit k then d.imageOf toB k else d.runningImage k
       decide (new.ifMin ≤ i.ifLevel) && decide (i.ifMin ≤ new.ifLevel))

/-- A firmware command is refused. -/
def Dev.fwRefuse (d : Dev) (op reason : Nat) : Dev :=
  d.sets [(GLB_FW_CMDSTAT.last_op, op), (GLB_FW_CMDSTAT.result, 3), (GLB_FW_CMDSTAT.reason, reason)]

/-- The cores of a list that pass the interface check against what the rest will run, cores refused alone left out until no
further one fails (R405). -/
def Dev.passing (d : Dev) (toB : Bool) : Nat → List Nat → List Nat
  | 0, l => l
  | n + 1, l =>
    let l' := l.filter (d.interfaceOk toB (l.foldl (fun m c => m + 2 ^ c) 0))
    if l'.length = l.length then l else d.passing toB n l'

/-- An activation or revert begins: cores that fail the interface check, or that have FAILED, are refused alone. -/
def Dev.startJob (d : Dev) (origin op mask : Nat) (toB : Bool) : Dev :=
  let cores := (List.range 19).filter mask.testBit
  let good := d.passing toB 19 (cores.filter fun c => d.coreState c != 3)
  let bad := cores.filter fun c => !good.contains c
  let sum (l : List Nat) : Nat := l.foldl (fun m c => m + 2 ^ c) 0
  let d := d.sets [(GLB_FW_CMDSTAT.last_op, op), (GLB_FW_CMDSTAT.refused_mask, sum bad),
    (GLB_FW_CMDSTAT.reason, if bad.isEmpty then 0 else 3)]
  let d := if bad.isEmpty then d else d.set GLB_FW_EVENT.act_refused 1
  if good.isEmpty && !bad.isEmpty then d.set GLB_FW_CMDSTAT.result 3
  else ((d.sets [(GLB_FW_CMDSTAT.result, 1), (GLB_FW_CMDSTAT.pending, sum good)]).setFw fun u =>
    { u with job := some { toB := toB, origin := origin, now := none } }).fwAdvance

/-- A stage, activation or revert is in progress (R404). -/
def Dev.fwBusy (d : Dev) : Bool := d.flag GLB_FW_SLOTS.staging || d.fw.job.isSome

/-- ACTIVATE (R405). -/
def Dev.fwActivate (d : Dev) (origin mask : Nat) : Dev :=
  if !d.flag GLB_FW_SLOTS.b_valid then d.fwRefuse 2 4
  else if d.fwBusy || !d.fw.restarts.isEmpty then d.fwRefuse 2 5
  else d.startJob origin 2 mask true

/-- REVERT (R407): without a core of the mask that runs role B, b_valid is cleared. -/
def Dev.fwRevert (d : Dev) (origin mask : Nat) : Dev :=
  if d.fwBusy || !d.fw.restarts.isEmpty then d.fwRefuse 5 5
  else
    let m := mask &&& d.get GLB_FW_SLOTS.on_b
    if m = 0 then d.sets [(GLB_FW_CMDSTAT.last_op, 5), (GLB_FW_CMDSTAT.result, 2), (GLB_FW_CMDSTAT.reason, 0), (GLB_FW_SLOTS.b_valid, 0)]
    else d.startJob origin 5 m false

/-- CANCEL (R406): cores that have not started leave the pending mask; an activation whose core has FAILED ends. -/
def Dev.fwCancel (d : Dev) : Dev :=
  let d := d.sets [(GLB_FW_CMDSTAT.last_op, 3), (GLB_FW_CMDSTAT.reason, 0), (GLB_FW_CMDSTAT.pending, 0)]
  match d.fw.job with
  | some j =>
    let d := match j.now with
      | some c => if d.coreState c = 3 then d.setFw fun u => { u with job := some { j with now := none } } else d
      | none => d
    (d.set GLB_FW_CMDSTAT.result 1).fwAdvance
  | none => d.set GLB_FW_CMDSTAT.result 2

/-- RESTART (R409): refused while an activation is in progress; its cores follow those of a restart op that still runs. -/
def Dev.fwRestart (d : Dev) (mask : Nat) : Dev :=
  if d.fw.job.isSome then d.fwRefuse 4 5
  else
    let old := d.fw.restarts
    let l := old ++ coreOrder.filter mask.testBit
    let d := d.sets [(GLB_FW_CMDSTAT.last_op, 4), (GLB_FW_CMDSTAT.reason, 0), (GLB_FW_CMDSTAT.result, if l.isEmpty then 2 else 1)]
    let d := d.setFw fun u => { u with restarts := l }
    if old.isEmpty then d.restartRun 20 else d

/-! ### Staging (R403, R404) -/

/-- The source of a stage op: HBM, or a host window of the port it was written through. -/
def Dev.stageSourceOk (d : Dev) (via : Via) : Bool :=
  let a := d.get GLB_FW_STAGE0.src
  let n := d.get GLB_FW_STAGE1.len
  within n 4096 33554433 && a % 4096 == 0 &&
    (match localKind a, via with
     | .hbm, _ => a == d.get MGT_STAGE.stage_base || (localKind (a + n - 1) == .hbm && d.rangeReach a n)
     | .window p, .host q _ => p == q.val && localKind (a + n - 1) == .window p
     | _, _ => false)

/-- STAGE (R404): refused, or in progress; role B holds nothing valid from then on. -/
def Dev.fwStage (d : Dev) (via : Via) : Dev :=
  if d.get GLB_FW_SLOTS.on_b ≠ 0 then d.fwRefuse 1 7
  else if d.fwBusy then d.fwRefuse 1 5
  else if !d.stageSourceOk via then d.fwRefuse 1 6
  else (d.setFw fun u => { u with stage := some via }).sets
    [(GLB_FW_CMDSTAT.last_op, 1), (GLB_FW_CMDSTAT.result, 1), (GLB_FW_CMDSTAT.reason, 0), (GLB_FW_SLOTS.staging, 1),
     (GLB_FW_SLOTS.b_valid, 0)]

/-- The header of a bundle (R403): fixed fields, one entry of each kind, every image inside the bundle. -/
def bundleHeaderOk (l : List Byte) : Bool :=
  imgNat l 0 4 == 0x44425746 && imgNat l 4 2 == 1 && imgNat l 6 2 == 0x96 && imgNat l 12 2 == 4 && imgNat l 14 50 == 0 &&
    imgNat l 192 3904 == 0 &&
    (List.range 4).all (fun i =>
      let e := 64 + 32 * i
      imgNat l (e + 1) 3 == 0 && imgNat l (e + 24) 8 == 0 && imgNat l (e + 4) 4 % 4096 == 0 &&
        decide (imgNat l (e + 4) 4 + imgNat l (e + 8) 4 ≤ l.length)) &&
    (List.range 4).all fun k => (List.range 4).any fun i => imgNat l (64 + 32 * i) 1 == k

/-- The entry of an image kind. -/
def bundleEntry (l : List Byte) (k : Nat) : Nat :=
  64 + 32 * ((List.range 4).find? fun i => imgNat l (64 + 32 * i) 1 == k).getD 0

/-- An image of a bundle with its signature block. -/
def bundleImage (l : List Byte) (k : Nat) : List Byte :=
  (l.drop (imgNat l (bundleEntry l k + 4) 4)).take (imgNat l (bundleEntry l k + 8) 4)

/-- What a bundle's header says of an image. -/
def bundleInfo (l : List Byte) (k : Nat) : FwImage :=
  let e := bundleEntry l k
  { secVer := imgNat l (e + 12) 4, level := imgNat l (e + 16) 4, ifLevel := imgNat l (e + 20) 2, ifMin := imgNat l (e + 22) 2 }

/-- The first check of a bundle that fails, 0 for none (R404). -/
def Dev.bundleReason (d : Dev) (l : List Byte) : Nat :=
  if !bundleHeaderOk l then 6
  else if !((List.range 4).all fun k => objectVerifies 0 [] (bundleImage l k)) then 1
  else if !((List.range 4).all fun k => decide (d.get (SEC_CTR.value k) ≤ (bundleInfo l k).secVer)) then 2
  else 0

/-- A stage op fails: role B stays invalid, and the reason is recorded. -/
def Dev.stageFails (d : Dev) (reason : Nat) : Dev :=
  let d := (d.setFw fun u => { u with stage := none }).sets
    [(GLB_FW_SLOTS.staging, 0), (GLB_FW_CMDSTAT.result, 3), (GLB_FW_CMDSTAT.reason, reason), (GLB_FW_EVENT.stage_fail, 1)]
  if reason = 1 then d.set SEC_EVENT.verify_fail 1 else d

/-- Staging ends (R404): `programmed` says that every digest read back from the flash is right. -/
def Dev.stageDone (d : Dev) (programmed : Bool) : Dev :=
  match d.fw.stage with
  | none => d
  | some _ =>
    let a := d.get GLB_FW_STAGE0.src
    let n := d.get GLB_FW_STAGE1.len
    if !d.secFree then d
    else if (match localKind a with | .window p => d.untranslated p 0 (a % 2 ^ 37) n | _ => false) then d.stageFails 6
    else
      let l := if a = d.get MGT_STAGE.stage_base then (List.range n).map fun i => d.localByte (d.stagingAddr i) else d.localBytes a n
      let reason := d.bundleReason l
      if reason ≠ 0 then d.stageFails reason
      else if !programmed then d.stageFails 1
      else
        let b : Bundle := { level := imgNat l 8 4, images := (List.range 4).map (bundleInfo l) }
        let k := 1 - d.get GLB_FW_SLOTS.a_phys
        let d := { d with board := { d.board with slots := d.board.slots.set k b } }
        let d := (d.setFw fun u => { u with stage := none }).sets
          [(GLB_FW_SLOTS.staging, 0), (GLB_FW_SLOTS.b_valid, 1), (GLB_FW_LEVELS.b_level, b.level), (GLB_FW_CMDSTAT.result, 2),
           (GLB_FW_EVENT.staged, 1)]
        d.jnlEventAfter 0x10 0x0020 (regAddr GLB_FW_CMD.off) b.level

/-- STAGE_DONE: R404. -/
def execStageDone (programmed : Bool) (s : State) : Host.Outcome State Fault Refusal := onDev s fun d => d.stageDone programmed

/-- A write to GLB_FW_CMD (R409); a reserved op is refused. -/
def Dev.fwCmd (d : Dev) (via : Via) (op mask : Nat) : Dev :=
  match op with
  | 1 => d.fwStage via
  | 2 => d.fwActivate (viaOrigin via) mask
  | 3 => d.fwCancel
  | 4 => d.fwRestart mask
  | 5 => d.fwRevert (viaOrigin via) mask
  | _ => d.fwRefuse op 5

/-! ### A core returns (R402) -/

/-- What a core does on its return: a CC sets its tick peg and takes up held doorbells; SEC, PWR and SCH take up what waits. -/
def Dev.coreBack (d : Dev) (c : Nat) : Dev :=
  if c = 0 then d.secReturn
  else if c < 3 then d
  else
    let n := c - 3
    let d := match d.bayOfAg n with
      | some b => match (d.bayU b).step with
        | some r => (d.putAg n { d.agU n with pegDue := false }).set (AG_PEG.value n 0xFFF) (d.tick - r.startTick)
        | none => d
      | none => d
    (List.range 64).foldl (fun d r => if (d.bayAgs (r / 8)).head? = some n then d.takeHeldBells r else d) d

/-- A restarted core reports RUNNING (R402, R405). -/
def Dev.coreReturns (d : Dev) (c us : Nat) : Dev :=
  if !(d.coreState c == 1 || d.coreState c == 2) then d
  else
    let d := d.sets [(GLB_FW_CORE.state c, 0), (GLB_FW_CORET.last_restart_us c, us)]
    let d := (d.setFw fun u => { u with begun := Tab.put (fun _ => 0) u.begun c 0 }).coreBack c
    let d := match d.fw.job with
      | some j =>
        if j.now == some c then
          (d.setFw fun u => { u with job := some { j with now := none } }).jnlEventAfter 0x10 0x0021 (regAddr GLB_FW_CMD.off)
            (c + if j.toB then 256 else 0)
        else d
      | none => d
    let d := match d.fw.restarts with
      | k :: rest =>
        if k = c && d.get (GLB_FW_CORE.last_cause c) != 5 then d.restartRun 20
        else if k = c then
          let d := d.setFw fun u => { u with restarts := rest }
          if rest.isEmpty then d.set GLB_FW_CMDSTAT.result 2 else d.restartRun 20
        else d
      | [] => d
    d.fwAdvance

end Sys2Proof.Machine
end

