-- ==== Sys2Proof/Machine/HostCmd.lean ====
section
/-! DEFINITION. The host commands other than RAISE, STRIKE and RESTORE, and what happens to the PCIe ports
(spec/19_host_interface.md, R440 to R452; spec/10_bays_contexts_and_scheduling.md, R232 to R245). -/

namespace Sys2Proof.Machine

/-- NOP: R445. -/
def execNop (ring : RingId) (s : State) : Host.Outcome State Fault Refusal :=
  onDev s fun d => d.hostCmd ring.val 0 fun d c => d.complete c stOk 0

/-! ### STEP (R232, R39, R365) -/

/-- The context of a context ring. -/
def Cmd.ctx (c : Cmd) : Nat := c.ring % 8

/-- The bent of a bay was compiled for the period and guard in effect (R39). -/
def Dev.timingSuits (d : Dev) (b : Nat) : Bool :=
  (d.bayU b).periodUs == d.get TCK_PERIOD.period_us && (d.bayU b).guardPct == d.get TCK_PERIOD.guard_pct

/-- Why a STEP ends without running, if it does. -/
def Dev.stepRefusal (d : Dev) (c : Cmd) : Option Nat :=
  if !d.flag (SCH_CTX_CFG.en c.bay c.ctx) then some stBadCommand
  else if !d.timingSuits c.bay then some stNoResource
  else if d.flag (FLT_BAY_STATE.dropped c.bay) then some stFaultAbsorbed
  else none

/-- A STEP waits at the front of its ring until action 7 of an edge starts it; its context is READY meanwhile. -/
def Dev.stepCmd (d : Dev) (c : Cmd) : Dev :=
  match d.stepRefusal c with
  | some st => d.complete c st 0
  | none => d.makeReady c.ring

/-- STEP: R445, R232. -/
def execStep (ring : RingId) (s : State) : Host.Outcome State Fault Refusal :=
  onDev s fun d => d.hostCmd ring.val 3 fun d c => d.stepCmd c

/-! ### COPY and FILL (R445, R234, R447) -/

/-- A range of bay addresses touches the context area (R234). -/
def Dev.touchesArea (d : Dev) (b va n : Nat) : Bool :=
  let a := d.areaRange b
  a.2 != 0 && decide (va < a.1 + a.2) && decide (a.1 < va + n)

/-- A copy command as a descriptor of one row (R132). -/
def Cmd.copyDesc (c : Cmd) (op : Nat) : DmaDesc where
  op := op
  fence := false
  remSrc := (c.num 1 1).testBit 4
  remDst := (c.num 1 1).testBit 5
  dev := if op = 0 then c.num 32 2 % 32768 else 0
  waitPeg := 0
  waitSel := 0
  donePeg := 0xFFF
  src := c.num 8 8
  srcStride := 0
  dst := c.num 16 8
  dstStride := 0
  rowBytes := c.num 24 8
  rows := 1
  pattern := 0

/-- A COPY or FILL is a resident command: its tile-memory range touches the context area (R234). -/
def Dev.isResidentCmd (d : Dev) (c : Cmd) : Bool :=
  c.op == 3 ||
    ((c.op == 4 || c.op == 5) &&
      (let q := c.copyDesc (c.op - 4)
       (!q.remDst && d.touchesArea c.bay q.dst q.rowBytes) || (q.op == 0 && !q.remSrc && d.touchesArea c.bay q.src q.rowBytes)))

/-- A resident command may run: its context is resident and enabled, no switch is under way, and every earlier resident command
of its ring has completed (R234, R440). -/
def Dev.residentRuns (d : Dev) (c : Cmd) : Bool :=
  d.resident c.bay == some c.ctx && !d.flag (SCH_BAY_RUN.switching c.bay) && d.get (SCH_CTX_STATE.state c.bay c.ctx) != 6 &&
    !(d.ringU c.ring).started.any d.isResidentCmd

/-- Host-command engines at work: commands with packets that are not yet acknowledged (R445). -/
def Dev.hostEngines (d : Dev) : Nat :=
  let cmds := (d.fab.sent.map (·.owner) ++ d.fab.waiting.map (·.2)).filterMap fun o => match o with
    | .host c => some c
    | .hostRead c _ => some c
    | _ => none
  (cmds.foldl (fun (l : List Cmd) c => if l.contains c then l else l ++ [c]) []).length

/-- A COPY or FILL moves its bytes: within the bay at once, to or from another device on TC4. -/
def Dev.copyMove (d : Dev) (c : Cmd) (q : DmaDesc) : Dev :=
  let b := c.bay
  if q.remSrc then d.sendReads q.dev 4 (d.tagOf b) q.src q.rowBytes fun o => .hostRead c (q.dst + o)
  else if q.remDst then d.sendWrites q.dev 4 (d.tagOf b) q.dst (d.bayBytes b q.src q.rowBytes) (.host c)
  else
    let d := if q.op = 0 then d.copyLocal b q else d.putBayBytes b q.dst (patternBytes (c.num 32 8) 8 q.rowBytes)
    d.complete c stOk 0

/-- A COPY or FILL: refused for an address out of reach before any byte moves, else it runs when it may (R447, R234). -/
def Dev.copyCmd (d : Dev) (c : Cmd) (op : Nat) : Dev :=
  let q := c.copyDesc op
  let b := c.bay
  if !((q.remSrc || op == 1 || d.rowsOk b q.src 0 q.rowBytes 1) && (q.remDst || d.rowsOk b q.dst 0 q.rowBytes 1)) then
    d.complete c stAccessDenied 0
  else if d.isResidentCmd c && !d.flag (SCH_CTX_CFG.en b c.ctx) then d.complete c stBadCommand 0
  else if d.isResidentCmd c && !d.residentRuns c then d.makeReady c.ring
  else if 8 ≤ d.hostEngines && (q.remSrc || q.remDst) then d
  else
    let d := if d.isResidentCmd c then d.unready c.ring else d
    if (q.remSrc || q.remDst) && d.isDead q.dev then d.complete c stInternal 0
    else (d.startCmd c).copyMove c q

/-- COPY: R445. -/
def execCopy (ring : RingId) (s : State) : Host.Outcome State Fault Refusal :=
  onDev s fun d => d.hostCmd ring.val 4 fun d c => d.copyCmd c 0

/-- FILL: R445. -/
def execFill (ring : RingId) (s : State) : Host.Outcome State Fault Refusal :=
  onDev s fun d => d.hostCmd ring.val 5 fun d c => d.copyCmd c 1

/-! ### SNAPSHOT, FENCE, QUERY, TELEMETRY -/

/-- A SNAPSHOT is refused without snapshots or a place for them, else it waits for its snapshot (R445, R357). -/
def Dev.snapshotCmd (d : Dev) (c : Cmd) : Dev :=
  let b := c.bay
  let place := (List.range 2).any (fun i => d.bindGood b i) || d.flag (FLT_BAY_CFG.host_en b)
  if !(d.bayState b == bayRaised || d.bayState b == bayFrozen) || !d.flag (FLT_BAY_CFG.snap_en b) || !place then
    d.complete c stNoResource 0
  else (d.startCmd c).putFltBay b { d.fltBay b with cmds := (d.fltBay b).cmds ++ [c] }

/-- SNAPSHOT: R445. -/
def execSnapshot (ring : RingId) (s : State) : Host.Outcome State Fault Refusal :=
  onDev s fun d => d.hostCmd ring.val 6 fun d c => d.snapshotCmd c

/-- A FENCE starts only when every earlier command of its ring has completed (R440). -/
def Dev.fenceCmd (d : Dev) (c : Cmd) : Dev := if (d.ringU c.ring).started.isEmpty then d.complete c stOk 0 else d

/-- FENCE: R445. -/
def execFence (ring : RingId) (s : State) : Host.Outcome State Fault Refusal :=
  onDev s fun d => d.hostCmd ring.val 8 fun d c => d.fenceCmd c

/-- The register a QUERY reads (R446). -/
def queryReg (sel ctx b : Nat) : Nat :=
  match sel with
  | 0 => SCH_BAY_STATE.off b
  | 1 => SCH_CTX_STATE.off b ctx
  | 2 => SCH_BAY_STEPNO.off b
  | 3 => SCH_BAY_UPDATES.off b
  | 4 => SCH_BAY_TRAIN.off b
  | 5 => SCH_BAY_IRATIO.off b
  | 6 => SCH_BAY_VFLAG.off b
  | 7 => FLT_BAY_STATE.off b
  | 8 => TCK_TICK.off
  | _ => TCK_TIME.off

/-- QUERY: R446. -/
def execQuery (ring : RingId) (s : State) : Host.Outcome State Fault Refusal :=
  onDev s fun d => d.hostCmd ring.val 9 fun d c => d.complete c stOk (d.rd (queryReg (c.num 8 1) (c.num 9 1) c.bay)).toNat

/-- The registers of a telemetry block, in order (R446). -/
def telemetryRegs (scope b : Nat) : List Nat :=
  if scope = 0 then
    [SCH_BAY_STATE.off b, SCH_BAY_RES.off b, SCH_BAY_RUN.off b, SCH_BAY_IRATIO.off b, SCH_BAY_STEPNO.off b, SCH_BAY_UPDATES.off b,
      SCH_BAY_TRAIN.off b, SCH_BAY_TCOUNT.off b, SCH_BAY_VFLAG.off b, TCK_BAY_SLIP.off b, COL_BAY_COUNT0.off b,
      COL_BAY_COUNT1.off b, COL_BAY_COUNT2.off b, FLT_BAY_STATE.off b, FLT_BAY_SNAPSTAT.off b, FLT_BAY_CADENCE.off b,
      MEM_BAY_BW.off b] ++ (List.range 8).map fun c => SCH_CTX_STATE.off b c
  else
    [GLB_STATUS.off, PWR_STATUS.off, PWR_THERM.off, PWR_CAPPED.off, TCK_STATUS.off, TCK_OFFSET.off, FLT_STATUS.off, JNL_STATUS.off,
      SCH_RES_FREE.off, COL_STATUS.off] ++ (List.range 8).map fun s => MEM_STACK_STATUS.off s

/-- The block of the latest edge. -/
def Dev.telemetryBytes (d : Dev) (scope b : Nat) : List Byte :=
  (telemetryRegs scope b).flatMap fun o => toBytes 8 (Tab.get resetWord d.snap o).toNat

/-- Every byte of a local range can be reached by an admin-ring command of a port. -/
def Dev.localRangeOk (d : Dev) (port a n : Nat) : Bool :=
  (List.range n).all (fun i => d.localReach (a + i)) &&
    (match localKind a with | .window p => p == port && !d.untranslated p 0 (a % 2 ^ 37) n | _ => true)

/-- A TELEMETRY command writes its block (R445, R446). -/
def Dev.telemetryCmd (d : Dev) (c : Cmd) : Dev :=
  let bytes := d.telemetryBytes (c.num 8 1) c.bay
  let dst := c.num 16 8
  if c.isAdmin then
    if d.localRangeOk c.port dst bytes.length then (d.putLocalBytes dst bytes).complete c stOk d.snapTick
    else d.complete c stAccessDenied 0
  else if d.rowsOk c.bay dst 0 bytes.length 1 then (d.putBayBytes c.bay dst bytes).complete c stOk d.snapTick
  else d.complete c stAccessDenied 0

/-- TELEMETRY: R445, R446. -/
def execTelemetry (ring : RingId) (s : State) : Host.Outcome State Fault Refusal :=
  onDev s fun d => d.hostCmd ring.val 12 fun d c => d.telemetryCmd c

/-! ### PREEMPT and RESUME (R245) -/

/-- A PREEMPT suspends a context that runs no step at once, and waits for the edge otherwise. -/
def Dev.preemptCmd (d : Dev) (c : Cmd) : Dev :=
  let b := c.bay
  let k := 8 * b + c.num 8 1
  if !d.flag (SCH_CTX_CFG.en b (c.num 8 1)) then d.complete c stBadCommand 0
  else
    let st := d.get (SCH_CTX_STATE.state b (c.num 8 1))
    let d := (d.startCmd c).putCtx k { d.ctxU k with susReq := (d.ctxU k).susReq ++ [(c, d.openEdge)] }
    if st == 1 || st == 2 || st == 3 || st == 6 then d.suspend k [(c, d.openEdge)] else d

/-- PREEMPT: R245. -/
def execPreempt (ring : RingId) (s : State) : Host.Outcome State Fault Refusal :=
  onDev s fun d => d.hostCmd ring.val 10 fun d c => d.preemptCmd c

/-- A RESUME returns a SUSPENDED context to READY or IDLE. -/
def Dev.resumeCmd (d : Dev) (c : Cmd) : Dev :=
  let b := c.bay
  let x := c.num 8 1
  if !d.flag (SCH_CTX_CFG.en b x) then d.complete c stBadCommand 0
  else if d.get (SCH_CTX_STATE.state b x) == 6 then (d.settleCtx (8 * b + x)).complete c stOk 0
  else d.complete c stOk 0

/-- RESUME: R245. -/
def execResume (ring : RingId) (s : State) : Host.Outcome State Fault Refusal :=
  onDev s fun d => d.hostCmd ring.val 11 fun d c => d.resumeCmd c

/-! ### Ports (R432, R437, R448 to R452) -/

/-- A link comes up, once the port has left its reset (R448). -/
def Dev.linkUp (d : Dev) (p width rate : Nat) (flit : Bool) : Dev :=
  if !d.boot.released || !d.pcieUp.testBit p then d
  else (d.sets [(HIF_PORT_STATUS.link_up p, 1), (HIF_PORT_STATUS.width p, width), (HIF_PORT_STATUS.rate p, rate),
    (HIF_PORT_STATUS.flit p, flit.toNat)]).setBit HIF_EVENT.link_up p

/-- LINK_UP: R448. -/
def execLinkUp (port : HostPort) (width : BitVec 2) (rate : BitVec 3) (flit : Bool) (s : State) : Host.Outcome State Fault Refusal :=
  onDev s fun d => d.linkUp port.val width.toNat rate.toNat flit

/-- spdm_sessions: open secured sessions over all transports; saturates. -/
def Dev.showSessions (d : Dev) : Dev := d.set SEC_STATUS.spdm_sessions (min 7 (d.sec.sessions.foldl (fun n e => n + e.2) 0))

/-- The sessions, streams and TDIs of a port end (R449). -/
def Dev.endPortSecurity (d : Dev) (p : Nat) : Dev :=
  ({ d with sec := { d.sec with insecure := d.sec.insecure.filter fun e => e.1 != p
                                tdiLocked := d.sec.tdiLocked.filter fun e => e.1 != p
                                sessions := Tab.put (fun _ => 0) d.sec.sessions p 0
                                spdm := d.sec.spdm.filter fun e => match e.1 with | .doe q => q.val != p | _ => true } } : Dev).showSessions

/-- A snapshot of bay b writes to the host behind port p. -/
def Dev.snapsTo (d : Dev) (b p : Nat) : Bool :=
  (match (d.fltBay b).snap with | some s => s.dests.contains 2 | none => false) &&
    d.get (FLT_BAY_HOST.host_base b) / 2 ^ 46 % 2 == p

/-- Port p suffers a host loss (R449); `down` says that its link goes down with it. -/
def Dev.hostLost (d : Dev) (p : Nat) (down : Bool) : Dev :=
  let d := (d.setBit HIF_EVENT.host_loss p).incSat (HIF_PORT_STATUS.host_losses p) 1
  let d := if down then d.sets [(HIF_PORT_STATUS.link_up p, 0), (HIF_PORT_STATUS.width p, 0), (HIF_PORT_STATUS.rate p, 0),
    (HIF_PORT_STATUS.flit p, 0)] else d
  let d := (List.range 8).foldl (fun d b => if d.snapsTo b p then d.snapFail b else d) d
  let d := (d.ringsOf p none).foldl (fun d r => d.stopRing r) d
  let d := (List.range 8).foldl (fun d b => match (d.bayU b).raise with
    | some r => if r.cmd.ring = 64 + p then d.raiseFail b stStruck else d
    | none => d) d
  let d := d.clearApertures p none
  let d := ({ d with unmapped := d.unmapped.filter fun u => u.1 != p } : Dev).endPortSecurity p
  let d := match d.exportPlace with
    | some (q, _) => if q = p then d.exportFail else d
    | none => d
  let d := match d.fw.stage, localKind (d.get GLB_FW_STAGE0.src) with
    | some _, .window q => if q = p then d.stageFails 6 else d
    | _, _ => d
  (List.range 8).foldl (fun d b => d.putBay b { d.bayU b with lossSeen := (d.bayU b).lossSeen ||| 2 ^ p }) d

/-- HOST_LOSS: R449. -/
def execHostLoss (port : HostPort) (cause : LossCause) (s : State) : Host.Outcome State Fault Refusal :=
  onDev s fun d =>
    let down := cause == .perst || cause == .hotReset || cause == .linkDown
    let d := if cause == .perst && d.pcieUp.testBit port.val then { d with pcieUp := d.pcieUp - 2 ^ port.val } else d
    d.hostLost port.val down

/-- PERST_N goes high, or the port's reference clock starts (R448): the port may enter Detect and train. -/
def execPerstNDeassert (port : HostPort) (s : State) : Host.Outcome State Fault Refusal :=
  onDev s fun d => { d with pcieUp := d.pcieUp ||| 2 ^ port.val }

/-- A VF alone is reset (R452). -/
def Dev.vfReset (d : Dev) (p f : Nat) : Dev :=
  let d := (d.ringsOf p (some f)).foldl (fun d r => d.stopRing r) d
  let d := d.clearApertures p (some f)
  { d with unmapped := d.unmapped.filter fun u => !(u.1 == p && u.2.1 == f)
           sec := { d.sec with tdiLocked := d.sec.tdiLocked.filter fun e => e != (p, f) } }

/-- VF_FLR: R452. -/
def execVfFlr (port : HostPort) (vf : Fin 31) (s : State) : Host.Outcome State Fault Refusal :=
  onDev s fun d => d.vfReset port.val (vf.val + 1)

/-- TDI_ERROR: R452. -/
def execTdiError (port : HostPort) (vf : Fin 31) (s : State) : Host.Outcome State Fault Refusal :=
  onDev s fun d => (d.vfReset port.val (vf.val + 1)).set HIF_EVENT.tdi_error 1

/-- A range less another. -/
def cutRange (base len lo n : Nat) : List (Nat × Nat) :=
  if lo + n ≤ base || base + len ≤ lo then [(base, len)]
  else (if base < lo then [(base, lo - base)] else []) ++ (if lo + n < base + len then [(lo + n, base + len - (lo + n))] else [])

/-- An ATS invalidation ends a range's translation; `mapped` says that the host maps it again (R437). -/
def Dev.atsInvalidate (d : Dev) (p f base len : Nat) (mapped : Bool) : Dev :=
  let rest := d.unmapped.flatMap fun u =>
    if u.1 == p && u.2.1 == f then (cutRange u.2.2.1 u.2.2.2 base len).map fun r => (p, f, r.1, r.2) else [u]
  { d with unmapped := if mapped || len == 0 then rest else rest ++ [(p, f, base, len)] }

/-- ATS_INVALIDATION: R437. -/
def execAtsInvalidation (port : HostPort) (func : FuncId) (base len : BitVec 64) (mapped : Bool) (s : State) :
    Host.Outcome State Fault Refusal :=
  onDev s fun d => d.atsInvalidate port.val func.val base.toNat len.toNat mapped

end Sys2Proof.Machine
end

