-- ==== Sys2Proof/Machine/Mac.lean ====
section
/-! DEFINITION. The management MAC: filtering, steering, transmission, back-off, PLCA (spec/20_management_port.md, R454 to
R461, R468). -/

namespace Sys2Proof.Machine

def Dev.setMgt (d : Dev) (f : MgtU → MgtU) : Dev := { d with mgt := f d.mgt }

/-- PLCA is used: plca_en is 1 and node_id is not 255 (R457). -/
def Dev.plcaOn (d : Dev) : Bool := d.flag MGT_CFG.plca_en && d.get MGT_PLCA.node_id != 255

/-- The MAC has been enabled (R468): it starts in PLCA where that is used. -/
def Dev.macOn (d : Dev) : Dev :=
  (d.setMgt fun u => { u with beaconNs := d.clk.timeNs, turn := 0 }).sets
    [(MGT_STATUS.state, if d.plcaOn then 2 else 1), (MGT_STATUS.beacon_seen, 0),
     (MGT_STATUS.plca_coord, (d.plcaOn && d.get MGT_PLCA.node_id == 0).toNat)]

/-- Frames in the queues. -/
def Dev.framesHeld (d : Dev) : Nat := (List.range 4).foldl (fun n q => n + (d.txq q).length + (d.rxq q).length) 0

/-- The MAC has been disabled (R468): every queued frame is dropped and counted. -/
def Dev.macOff (d : Dev) : Dev :=
  (d.setMgt fun u => { u with tx := [], rx := [], onAir := none, backoff := none, turn := 0, delayed := [],
                              dropped := u.dropped + d.framesHeld }).sets
    [(MGT_STATUS.state, 0), (MGT_STATUS.beacon_seen, 0), (MGT_STATUS.plca_coord, 0), (MGT_STATUS.txq_pending, 0)]

/-! ### Receiving (R458, R460, R461) -/

/-- Bytes of a frame, FCS included. -/
def frameSize (f : Frame) : Nat := 18 + (if f.tag.isSome then 4 else 0) + f.payload.length

/-- The frame lies within the limits of R458. -/
def frameSizeOk (f : Frame) : Bool := decide (64 ≤ frameSize f) && decide (frameSize f ≤ if f.tag.isSome then 1522 else 1518)

/-- An address that the filter accepts (R460). -/
def Dev.addrOk (d : Dev) (a : Nat) : Bool :=
  (List.range 8).any (fun i => d.flag (MGT_ADDR.valid i) && d.get (MGT_ADDR.mac i) == a) ||
    (a == broadcastMac && d.flag MGT_RXSTEER.bcast_en)

/-- The receive queue of a frame (R461). -/
def Dev.steer (d : Dev) (f : Frame) : Nat :=
  match (List.range 4).find? fun j => d.flag (MGT_ETYPE.valid j) && d.get (MGT_ETYPE.ethertype j) == f.etype.toNat with
  | some j => d.get (MGT_ETYPE.queue j)
  | none =>
    let pcp := match f.tag with
      | some (p, _) => p.toNat
      | none => d.get MGT_RXSTEER.default_pcp
    d.get MGT_RXSTEER.pcp_map / 4 ^ pcp % 4

/-- The count of frames dropped for a full receive queue. -/
def fullQ (q : Nat) : RF := ⟨MGT_RXDROP.off, 16 * q, 16⟩

/-- A frame arrives; `bad` says that its FCS is wrong, that MGT_RX_ER was asserted or that it has two tags. -/
def Dev.frameReceive (d : Dev) (f : Frame) (bad : Bool) : Dev :=
  if !d.flag MGT_CFG.mac_en then d
  else if bad || !(frameSizeOk f) then d.incSat MGT_RXCNT.bad_frame 1
  else if !d.addrOk f.dst.toNat then d
  else
    let d := d.incWrap MGT_RXCNT.frames_rx 1
    if f.etype.toNat != d.get MGT_CFG.mgmt_etype && f.etype.toNat != d.get MGT_CFG.hor_etype then d.incSat MGT_RXCNT.foreign 1
    else
      let q := d.steer f
      if 16 ≤ (d.rxq q).length then (d.incSat (fullQ q) 1).set MGT_EVENT.rxq_full 1
      else (d.putRxq q (d.rxq q ++ [f])).agentFlush 64

/-- FRAME_RECEIVE: R458, R460, R461. -/
def execFrameReceive (frame : Frame) (bad : Bool) (s : State) : Host.Outcome State Fault Refusal :=
  onDev s fun d => d.frameReceive frame bad

/-! ### Transmitting (R456, R457, R459) -/

/-- The frame of the next attempt: the head of the highest non-empty transmit queue. -/
def Dev.txHead (d : Dev) : Option (Nat × TxFrame) := [3, 2, 1, 0].findSome? fun q => ((d.txq q).head?).map fun t => (q, t)

/-- The node has its turn: in PLCA mode it needs a transmit opportunity (R457). -/
def Dev.mayTransmit (d : Dev) : Bool :=
  d.flag MGT_CFG.mac_en && d.mgt.onAir.isNone && d.mgt.backoff.isNone &&
    (d.get MGT_STATUS.state != 2 || decide (0 < d.mgt.turn))

/-- An attempt: the frame goes out, or meets a collision. -/
def Dev.frameTransmit (d : Dev) (collides : Bool) : Dev :=
  if !d.mayTransmit then d
  else
    match d.txHead with
    | none => d
    | some (q, t) =>
      let d := d.setMgt fun u => { u with turn := u.turn - 1 }
      if collides then d.setMgt fun u => { u with onAir := some (q, t) }
      else ((d.putTxq q (d.txq q).tail).incWrap MGT_TXCNT.frames_tx 1).emit (.frame t.frame)

/-- FRAME_TRANSMIT: R459. -/
def execFrameTransmit (collides : Bool) (s : State) : Host.Outcome State Fault Refusal := onDev s fun d => d.frameTransmit collides

/-- A collision of the frame on the medium: a jam, then a back-off of r slot times, r drawn below 2^min(n, 10), or the frame is
dropped at the attempt limit or for a late collision (R456). -/
def Dev.collision (d : Dev) (late : Bool) : Dev :=
  match d.mgt.onAir with
  | none => d
  | some (q, t) =>
    let d := ((d.setMgt fun u => { u with onAir := none }).incSat MGT_TXCNT.collisions 1).emit .jam
    let d := if d.get MGT_STATUS.state = 2 then (d.incSat MGT_MSGCNT.plca_col 1).set MGT_EVENT.plca_col 1 else d
    let n := t.attempts + 1
    if late then ((d.putTxq q (d.txq q).tail).incSat MGT_TXCNT.late_col 1).set MGT_EVENT.late_col 1
    else if 16 ≤ n then ((d.putTxq q (d.txq q).tail).incSat MGT_TXCNT.excess_col 1).set MGT_EVENT.excess_col 1
    else
      let (k, d) := d.fresh
      let r := Config.randomDraw k % 2 ^ min n 10
      (d.putTxq q ({ t with attempts := n } :: (d.txq q).tail)).setMgt fun u => { u with backoff := some (d.clk.timeNs + 51200 * r) }

/-- COLLISION: R456, R457. -/
def execCollision (late : Bool) (s : State) : Host.Outcome State Fault Refusal := onDev s fun d => d.collision late

/-- A back-off ends once its time has passed. -/
def Dev.backoffExpiry (d : Dev) : Dev :=
  match d.mgt.backoff with
  | some t => if d.clk.timeNs < t then d else d.setMgt fun u => { u with backoff := none }
  | none => d

/-- BACKOFF_EXPIRY: R456. -/
def execBackoffExpiry (s : State) : Host.Outcome State Fault Refusal := onDev s fun d => d.backoffExpiry

/-- A beacon starts a PLCA cycle: node 0 sends it, any other node takes part again; the node may send one frame and its burst. -/
def Dev.plcaBeacon (d : Dev) : Dev :=
  if !d.flag MGT_CFG.mac_en || !d.plcaOn then d
  else
    let d := (d.setMgt fun u => { u with beaconNs := d.clk.timeNs, turn := 1 + d.get MGT_PLCA.burst_count }).set MGT_STATUS.state 2
    if d.get MGT_PLCA.node_id = 0 then d.emit .beacon else d.set MGT_STATUS.beacon_seen 1

/-- PLCA_BEACON: R457. -/
def execPlcaBeacon (s : State) : Host.Outcome State Fault Refusal := onDev s fun d => d.plcaBeacon

/-- No beacon for 10 ms: any node but 0 falls back to CSMA/CD. -/
def Dev.beaconLost (d : Dev) : Dev :=
  if d.get MGT_STATUS.state != 2 || d.get MGT_PLCA.node_id == 0 || decide (d.clk.timeNs < d.mgt.beaconNs + 10000000) then d
  else (d.setMgt fun u => { u with turn := 0 }).sets [(MGT_STATUS.state, 1), (MGT_STATUS.beacon_seen, 0), (MGT_EVENT.beacon_lost, 1)]

/-- BEACON_LOST: R457. -/
def execBeaconLost (s : State) : Host.Outcome State Fault Refusal := onDev s fun d => d.beaconLost

end Sys2Proof.Machine
end

