-- ==== Sys2Proof/Machine/Boot.lean ====
section
/-! DEFINITION. Start-up and reset (spec/21_startup.md, R470 to R485), the I3C page (R495). -/

namespace Sys2Proof.Machine

def Dev.setBoot (d : Dev) (f : BootU → BootU) : Dev := { d with boot := f d.boot }

/-- Start-up is under way and has not stopped. -/
def Dev.booting (d : Dev) : Bool := d.boot.released && !d.boot.halted && !d.flag GLB_STATUS.ready

/-- Start-up stops before step 5 with SEC running: the management MAC is enabled all the same (R468). -/
def Dev.stopWithMac (d : Dev) (cause : Nat) : Dev :=
  let d := d.bootFail cause
  if d.board.mfgValid && !d.flag MGT_CFG.mac_en then (d.setJ 0x10 MGT_CFG.mac_en 1).macOn else d

/-! ### Steps 3 and 4 (R474, R475) -/

/-- What is left of the board record where neither field-section copy verifies. -/
def Board.noField (b : Board) : Board :=
  { b with aPhys := 0, arrRepair := [], lines := [], extents := [], rows := [], lanes := [], chans := [], disabledAgs := 0,
           sisreg := 0 }

/-- The bundle that start-up loads: that of role A, or of the other slot (R474). -/
def Dev.bootBundle (d : Dev) : Bundle := d.bundle (d.flag GLB_BOOTINFO.alt_slot)

/-- SEC starts: identity, counters, and at power-on the genesis entry (R413, R416, R428). -/
def Dev.secStarts (d : Dev) : Dev :=
  let b := d.board
  let d := d.sets [(SEC_STATUS.puf_ok, 1), (SEC_STATUS.enrol_strap, (d.get GLB_BOOTINFO.boot_mode == 2).toNat),
    (SEC_IDENT.key_id, b.keyIds.getD 0 0), (SEC_IDENT2.key_id, b.keyIds.getD 1 0), (SEC_IDENT3.key_id, b.keyIds.getD 2 0)]
  let vals := (List.range 4).map (fun k => b.rollback.getD k 0) ++ [b.generation, b.epoch, 0, 0]
  let d := vals.zipIdx.foldl (fun d v => d.sets [(SEC_CTR.value v.2, v.1), (SEC_CTR.valid v.2, 1)]) d
  if d.jnl.entries.isEmpty then
    let (k, d) := d.fresh
    d.jnlAppend 0x10 0x0000058100200008 (Config.randomDraw k % 2 ^ 64) (d.get SEC_IDENT.key_id)
  else d

/-- Step 3 ends (R474). Bits 0, 1 and 3 of `verified`: the SEC image of role A and of the other slot, a field-section copy. -/
def Dev.romDone (d : Dev) (verified : Nat) : Dev :=
  let d := if verified.testBit 3 then d else ({ d with board := d.board.noField } : Dev).set GLB_BOOTINFO.field_default 1
  let d := d.set GLB_FW_SLOTS.a_phys d.board.aPhys
  let fresh (roleB : Bool) : Bool :=
    decide (d.board.rollback.getD 0 0 ≤ ((d.bundle roleB).images.getD 0 FwImage.none).secVer)
  if verified.testBit 0 && fresh false then d.secStarts
  else if verified.testBit 1 && fresh true then (d.set GLB_BOOTINFO.alt_slot 1).secStarts
  else d.bootFail 0x04

/-- The images of a bundle pass the rollback check and the interface check against each other (R405, R416). -/
def Dev.imagesOk (d : Dev) (b : Bundle) : Bool :=
  (List.range 4).all fun k =>
    let i := b.images.getD k FwImage.none
    decide (d.board.rollback.getD k 0 ≤ i.secVer) &&
      (List.range 4).all fun j => decide (i.ifMin ≤ (b.images.getD j FwImage.none).ifLevel)

/-- Step 4 ends (R475): every core runs its image of the boot slot. Bit 2 of `verified`: the signatures of the PWR, SCH and CC
images. -/
def Dev.coresStart (d : Dev) (verified : Nat) : Dev :=
  let b := d.bootBundle
  if !(verified.testBit 2 && d.imagesOk b) then d.stopWithMac 0x05
  else
    let d := (List.range 19).foldl (fun d c =>
      d.set (GLB_FW_CORE.fw_level c) (b.images.getD (coreKind c) FwImage.none).level) d
    d.sets [(GLB_FW_LEVELS.a_level, (d.bundle false).level), (GLB_FW_LEVELS.b_level, (d.bundle true).level)]

/-! ### Step 5: the board record (R476) -/

/-- Fields of one register written by SEC as one change. -/
def Dev.secFields (d : Dev) (off : Nat) (l : List (RF × Nat)) : Dev :=
  d.wrJ 0x10 off (l.foldl (fun v p => insField v p.1.lo p.1.w p.2) (d.rd off))

/-- A register set by SEC: its joint fields go to their shadows, any other field takes effect. -/
def Dev.secWrite (d : Dev) (off : Nat) (v : Reg64) : Dev :=
  match findReg off with
  | some (r, _) =>
    let jw := r.fields.filter fun f => f.acc == .jw
    if jw.isEmpty then d.wrJ 0x10 off v else jw.foldl (fun d f => d.setShadow off f.lo f.w (fieldOf v f.lo f.w) 0x10) d
  | none => d

/-- Repair maps: arrays through their joints, lines and extents in their tables, channels in their masks. -/
def Dev.applyRepairs (d : Dev) : Dev :=
  let b := d.board
  let d := b.arrRepair.foldl (fun d e =>
    let n := e.1 / 6
    let x := e.1 % 6
    (d.secWrite (AG_ARR_REPAIR.off n x) e.2).armJoint 0x10 (0x8FF000 + 0x100000 * n) (0x20 + x) 0) d
  let d := b.lines.foldl (fun d e =>
    let u := d.agU e.1
    let bank := lineBank e.2.1
    let used := max (Tab.get (fun _ => 0) u.sparesUsed bank) (e.2.2 + 1)
    (d.putAg e.1 { u with remapped := Tab.put (fun _ => 0) u.remapped e.2.1 (e.2.2 + 1)
                          sparesUsed := Tab.put (fun _ => 0) u.sparesUsed bank used }).set
      (AG_TM_STATUS.spares_min e.1) (min (d.get (AG_TM_STATUS.spares_min e.1)) (256 - used))) d
  let d := b.extents.foldl (fun d e =>
    let u := d.agU e.1
    (d.putAg e.1 { u with failed := u.failed ++ [e.2] }).set (AG_TM_STATUS.failed_extents e.1) (u.failed.length + 1)) d
  let d := b.chans.foldl (fun d c => d.setBit (MEM_STACK_STATUS.failed_chan (c / 32)) (c % 32)) d
  d.setJ 0x10 GLB_STATUS.ag_usable (0xFFFF - b.disabledAgs % 2 ^ 16)

/-- Owner settings, where the device has an owner section that verifies (R415, R418). -/
def Dev.applyOwner (d : Dev) : Dev :=
  let b := d.board
  let d := d.secFields SEC_STATUS.off [(SEC_STATUS.owned, b.ownerValid.toNat), (SEC_STATUS.record_ok, (!d.flag GLB_BOOTINFO.field_default).toNat)]
  if !b.ownerValid then d
  else
    let d := (d.setJ 0x10 SEC_OWNER0.owner_key_id (b.ownerKeys.getD 0 0)).setJ 0x10 SEC_OWNER1.owner_key_id (b.ownerKeys.getD 1 0)
    let d := (List.range 50).foldl (fun d p => d.setJ 0x10 (FABP_CFG.admin_en p) (b.adminEn.testBit p).toNat) d
    d.setJ 0x10 FAB_ID.self_assign b.selfAssign.toNat

/-- The joints that step 5 arms: TCK sync, PWR envelope, PWR thaw (R373, R396, R476). The slew limits in effect are held within
the maxima, without which the envelope joint would be refused. -/
def Dev.applyJoints (d : Dev) : Dev :=
  let b := d.board
  let cap := b.envCapW
  let up := if b.ownerValid then min b.upMax (b.ownUpMax.getD b.upMax) else b.upMax
  let dn := if b.ownerValid then min b.dnMax (b.ownDnMax.getD b.dnMax) else b.dnMax
  let d := d.secFields PWR_HWLIM.off
    [(PWR_HWLIM.env_cap_w, cap), (PWR_HWLIM.up_max, up), (PWR_HWLIM.dn_max, dn), (PWR_HWLIM.peak_w, b.peakW)]
  let env := if b.ownerValid then max 700 (min b.envW cap) else cap
  let put (d : Dev) (f : RF) (n : Nat) : Dev := d.setShadow f.off f.lo f.w n 0x10
  let d := put d PWR_ENV.env_w env
  let d := put d PWR_SLEW_UP.slew (min (d.get PWR_SLEW_UP.slew) up)
  let d := put d PWR_SLEW_DN.slew (min (d.get PWR_SLEW_DN.slew) dn)
  let d := d.armJoint 0x10 0x1FF000 1 0
  if !b.ownerValid then d
  else
    let d := (put d TCK_SYNC_CFG.master_en b.masterEn.toNat).armJoint 0x10 0x3800100 3 0
    (put d PWR_THAW_CFG.site_en b.siteEn.toNat).armJoint 0x10 0x1FF000 2 0

/-- The management port's address, PLCA, peer and filter settings, and mac_en; once loaded they stay over a warm reset (R468,
R484). -/
def Dev.applyMgmt (d : Dev) : Dev :=
  if d.flag (MGT_ADDR.valid 0) then d
  else
    let d := d.board.mgt.foldl (fun d e => d.secWrite e.1 e.2) d
    let d := d.setJ 0x10 (MGT_ADDR.valid 0) 1
    let d := if d.jt.shadows.any fun s => decide (0x3400000 ≤ s.off) && decide (s.off < 0x3600000) then d.armJoint 0x10 0x35FF000 1 0 else d
    (d.setJ 0x10 MGT_CFG.mac_en 1).macOn

/-- The failed slot takes role B where start-up runs from the other one (R474). -/
def Dev.applyAlt (d : Dev) : Dev :=
  if !d.flag GLB_BOOTINFO.alt_slot then d
  else
    let a := 1 - d.board.aPhys
    let d := d.sets [(GLB_FW_SLOTS.a_phys, a), (GLB_FW_SLOTS.b_valid, 0),
      (GLB_FW_LEVELS.a_level, (d.bundle true).level), (GLB_FW_LEVELS.b_level, (d.bundle false).level)]
    (d.jnlEventAfter 0x10 0x0022 (regAddr GLB_FW_SLOTS.off) a).fieldUpdate fun b => { b with aPhys := a }

/-- Where the management staging buffer will lie when every stack that the board record does not disable trains (R259, R467). -/
def Dev.plannedStaging (d : Dev) : Nat :=
  let e := d.set GLB_STATUS.stack_usable (255 - d.board.disabledStacks % 256)
  (e.setBoot fun u => { u with chans := (List.range 256).filter e.chanUsable }).stagingAddr 0

/-- Step 5 begins (R476). -/
def Dev.beginRecord (d : Dev) : Dev :=
  let b := d.board
  if !b.mfgValid then d.bootFail 0x07
  else
    let d := (d.setJ 0x10 GLB_IDENT.variant b.variant).setJ 0x10 GLB_SERIAL.serial b.serial
    let d := (d.applyRepairs.applyOwner.applyJoints).wrJ 0x10 FLT_SISREG.off b.sisreg
    let d := (List.range 50).foldl (fun d p => d.setJ 0x10 (FABP_ETH1.src_mac p) (Config.portMac b.macBase p)) d
    let d := d.set MGT_STAGE.stage_base d.plannedStaging
    d.applyMgmt.applyAlt

/-! ### Steps 6 to 12 (R477 to R479) -/

/-- AGs that start-up thaws. -/
def Dev.usableAgs (d : Dev) : List Nat := (List.range 16).filter fun n => d.bitOf GLB_STATUS.ag_usable n

/-- Step 6 begins: the thaw of MEM, FAB and AG domains (R477). -/
def Dev.beginThaw (d : Dev) : Dev :=
  let d := if d.get (PWR_DOM.state 19) = 0 then d else d.moveDomain 0x11 19 0
  let d := [17, 18].foldl (fun d k => if d.get (PWR_DOM.state k) = 3 then d.moveDomain 0x11 k 1 else d) d
  d.usableAgs.foldl (fun d n => if d.get (PWR_DOM.state (1 + n)) = 0 then d else d.moveDomain 0x11 (1 + n) 0) d

/-- Step 6 may end: every domain has reached its state. -/
def Dev.thawed (d : Dev) : Bool :=
  d.get (PWR_DOM.state 19) == 0 && d.get (PWR_DOM.state 17) != 3 && d.get (PWR_DOM.state 18) != 3 &&
    d.usableAgs.all fun n => d.get (PWR_DOM.state (1 + n)) == 0

/-- Tile memory is scrubbed (R13, R483). -/
def Dev.scrubTiles (d : Dev) : Dev := { d with mem := { d.mem with loc := d.mem.loc.filter fun e => decide (e.1 < 0x8000000000) } }

/-- The repair maps of a stack that passed training: sPPR first, then the remap tables (R271). -/
def Dev.applyRowMaps (d : Dev) (s : Nat) : Dev :=
  (d.board.rows.filter fun e => e.1 * rowBytesHbm / 2 ^ 36 == s).foldl (fun d e =>
    let ch := hbmChannel (e.1 * rowBytesHbm)
    if e.2 = 0 then ({ d with sppr := d.sppr ++ [(ch, Config.hbmBank e.1)] } : Dev).incSat (MEM_STACK_ERR.sppr_used s) 1
    else ({ d with remaps := Tab.put (fun _ => 0) d.remaps ch (max (Tab.get (fun _ => 0) d.remaps ch) e.2) } : Dev).incSat
      (MEM_STACK_ERR.remap_used s) 1) d

/-- HBM training ends for every stack that the board record does not disable (R274, R271). -/
def Dev.hbmTrained (d : Dev) (trained : Nat) (attempts codes : List Nat) : Dev :=
  if !(d.booting && d.boot.step == 7) || d.boot.hbmDone then d
  else
    let good := (List.range 8).filter fun s => trained.testBit s && !d.board.disabledStacks.testBit s
    let d := ({ d with sppr := [], remaps := [] } : Dev).setBoot fun u => { u with hbmDone := true }
    let d := (List.range 8).foldl (fun d s =>
      if d.board.disabledStacks.testBit s then d.set (MEM_STACK_STATUS.fail_code s) 1
      else
        let d := d.set (MEM_STACK_STATUS.attempts s) (attempts.getD s 0)
        if trained.testBit s then
          (d.applyRowMaps s).sets [(MEM_STACK_STATUS.trained s, 1), (MEM_STACK_STATUS.usable s, 1), (MEM_STACK_STATUS.fail_code s, 0)]
        else d.set (MEM_STACK_STATUS.fail_code s) (codes.getD s 0)) d
    let d := d.set GLB_STATUS.stack_usable (good.foldl (fun m s => m + 2 ^ s) 0)
    if good.isEmpty then d.bootFail 0x08
    else
      let full := good.filter fun s => decide (0 < attempts.getD s 0)
      if full.isEmpty then d
      else
        let f := d.fresh
        let upd (e : Nat × Nat) : Nat := if full.contains e.2 then Config.hbmSettings f.1 e.2 else e.1
        f.2.fieldUpdate fun r => { r with hbmSet := r.hbmSet.zipIdx.map upd }

/-- HBM_TRAINING_DONE: R274. -/
def execHbmTrainingDone (trained : BitVec 8) (attempts : Vector (BitVec 2) 8) (codes : Vector (BitVec 4) 8) (s : State) :
    Host.Outcome State Fault Refusal :=
  onDev s fun d => d.hbmTrained trained.toNat (attempts.toList.map BitVec.toNat) (codes.toList.map BitVec.toNat)

/-- Step 7 ends: the reserved contents have their places, by the stacks that trained, and the early journal is in the ring (R259,
R481). -/
def Dev.memReady (d : Dev) : Dev :=
  let d := d.setBoot fun u => { u with early := false, chans := (List.range 256).filter d.chanUsable }
  (d.set MGT_STAGE.stage_base (d.stagingAddr 0)).showFree

/-- Ports with admin_en = 1. -/
def Dev.adminPorts (d : Dev) : List Nat := (List.range 50).filter fun p => d.flag (FABP_CFG.admin_en p)

/-- Step 9 begins: the fabric trains; a port whose lanes held their lock over a warm reset goes to ALIGN (R478, R483). -/
def Dev.beginFabric (d : Dev) : Dev :=
  d.adminPorts.foldl (fun d p =>
    let d := d.portAdmin p
    if (d.port p).trained && d.portState p == psDetect then (d.setPort p psAlign).updPort p fun u => { u with trained := false }
    else d) d

/-- Step 9 may end: every port is ACTIVE, QUARANTINE or FAILED, or 600 ms have passed since the last FAB move. -/
def Dev.fabricUp (d : Dev) : Bool :=
  d.adminPorts.all (fun p => d.portState p == psActive || d.portState p == psQuarantine || d.portState p == psFailed) ||
    (d.adminPorts.all (fun p => d.get (PWR_DOM.state (fabDom p)) == 0) && decide (d.boot.stepNs + 600000000 ≤ d.clk.timeNs))

/-- The provisional or self-assigned device ID (R306). -/
def Dev.takeId (d : Dev) : Dev :=
  let b := d.board
  let dflt := b.defaultId.getD 0
  let self := b.ownerValid && b.selfAssign
  let v := insField (insField (d.rd FAB_ID.off) 0 15 dflt) 15 1 self.toNat
  let v := if self then insField (insField v 16 16 b.sysId) 32 16 b.domId else v
  (d.wrJ 0x50 FAB_ID.off v).resendRecords

/-- Step 11 may end (R479). -/
def Dev.tickReady (d : Dev) : Bool :=
  d.get FAB_ID.domain_id == 0 || d.flag TCK_STATUS.master || d.flag TCK_STATUS.synced || decide (d.boot.stepNs + 100000000 ≤ d.clk.timeNs)

/-- µs since AO release or the last warm reset. -/
def Dev.bootUs (d : Dev) : Nat := (d.clk.timeNs - d.clk.resetNs) / 1000

/-- Step 12: the device is ready (R473). -/
def Dev.becomeReady (d : Dev) : Dev :=
  let d := d.sets [(GLB_STATUS.ready, 1), (HIF_READY.state, 1)]
  (d.jnlEventAfter 0x10 0x0061 (regAddr GLB_STATUS.off) (d.bootUs % 2 ^ 32)).emit (.telemetry 10 [d.bootUs])

/-- Step n begins. -/
def Dev.beginStep (d : Dev) (n : Nat) : Dev :=
  let d := d.setBoot fun u => { u with step := n, stepNs := d.clk.timeNs }
  match n with
  | 3 => if d.get GLB_BOOTINFO.boot_mode = 3 then d.bootFail 0x09 else d
  | 5 => d.beginRecord
  | 6 => d.beginThaw
  | 9 => d.beginFabric
  | 11 => { d with fab := { d.fab with sync := { d.fab.sync with begun := some d.clk.timeNs } } }
  | _ => d

/-- ACLK is not locked 2 ms after AO release (R16). -/
def Dev.lockLate (d : Dev) : Bool :=
  d.boot.noLock || (!d.flag GLB_STATUS.aclk_lock && decide (d.clk.resetNs + 2000000 ≤ d.clk.timeNs))

/-- Step n may end; step 5 not before ACLK has locked or had its 2 ms (R16, R476). -/
def Dev.stepCanEnd (d : Dev) (n : Nat) : Bool :=
  match n with
  | 5 => d.jt.armed.isEmpty && (d.flag GLB_STATUS.aclk_lock || d.lockLate)
  | 6 => d.thawed
  | 7 => d.boot.hbmDone
  | 9 => d.fabricUp
  | 11 => d.tickReady
  | _ => true

/-- What the end of step n does, with what its firmware found. -/
def Dev.stepDoes (d : Dev) (n verified holdMax : Nat) : Dev :=
  match n with
  | 3 => d.romDone verified
  | 4 => d.coresStart verified
  | 5 => if d.lockLate then d.bootFail 0x01 else d
  | 6 => d.scrubTiles.set PWR_FROST.hold_max_w holdMax
  | 7 => d.memReady
  | 10 => d.takeId
  | 12 => d.becomeReady
  | _ => d

/-- Causes with which ROM and SEC stop steps 3 and 4 of themselves. -/
def stopCauses (n : Nat) : List Nat := if n = 3 then [0x02, 0x03, 0x0A, 0x0C] else if n = 4 then [0x06] else []

/-- The step in progress ends: boot_step and its time are shown, and the next step begins (R472, R473). -/
def Dev.startupStep (d : Dev) (aclk : Bool) (verified cause holdMax : Nat) : Dev :=
  let n := d.boot.step
  let d := if aclk && d.boot.released && !d.lockLate then d.set GLB_STATUS.aclk_lock 1 else d
  if !d.booting || !within n 2 13 then d
  else if n = 2 && d.get GLB_BOOTINFO.boot_mode = 3 then d.bootFail 0x09
  else if (stopCauses n).contains cause then if n = 4 then d.stopWithMac cause else d.bootFail cause
  else if !d.stepCanEnd n then d
  else
    let d := d.stepDoes n verified holdMax
    if d.boot.halted then d
    else
      let d := d.sets [(GLB_STATUS.boot_step, n), (GLB_BOOT_TIME.end_us n, d.bootUs)]
      if n = 12 then d
      else if n = 7 && d.get GLB_BOOTINFO.boot_mode = 1 then d.setBoot fun u => { u with halted := true }
      else d.beginStep (n + 1)

/-- STARTUP_STEP_COMPLETE: R473. -/
def execStartupStepComplete (aclk : Bool) (verified : BitVec 4) (cause : BitVec 8) (holdMax : BitVec 10) (s : State) :
    Host.Outcome State Fault Refusal :=
  onDev s fun d => d.startupStep aclk verified.toNat cause.toNat holdMax.toNat

/-- AO release: time 0 of start-up, straps sampled, step 1 over (R470, R471); tick 0 begins (R25). -/
def Dev.aoRelease (d : Dev) (feed slot mode : Nat) (refA : Bool) : Dev :=
  if d.boot.released then d
  else
    let d := { d with clk := { d.clk with resetNs := d.clk.timeNs, setClosed := false
                                          nextEdgeNs := d.clk.timeNs + 1000 * d.get TCK_PERIOD.period_us }
                      boot := { d.boot with released := true } }
    let d := d.sets [(GLB_STRAPS.feed_id, feed), (GLB_STRAPS.slot_id, slot), (GLB_BOOTINFO.boot_mode, mode),
      (GLB_STATUS.pcie_ref_sel, (!refA).toNat), (GLB_STATUS.boot_step, 1)]
    d.beginStep 2

/-- AO_RELEASE: R470, R471. -/
def execAoRelease (feed : BitVec 4) (slot : BitVec 6) (mode : BitVec 2) (refA : Bool) (s : State) : Host.Outcome State Fault Refusal :=
  onDev s fun d => d.aoRelease feed.toNat slot.toNat mode.toNat refA

/-- ACLK_LOCK_TIMEOUT: R16; start-up stops at the end of step 5. -/
def execAclkLockTimeout (s : State) : Host.Outcome State Fault Refusal :=
  onDev s fun d =>
    if !d.boot.released || d.flag GLB_STATUS.aclk_lock || decide (d.clk.timeNs < d.clk.resetNs + 2000000) then d
    else d.setBoot fun u => { u with noLock := true }

/-! ### Resets (R482 to R485) -/

/-- Power-on reset: everything but the flash and what lies outside the device returns to its reset value (R482). -/
def Dev.powerOn (d : Dev) : Dev :=
  { Dev.reset with
    board := { d.board with due := 0 }
    mem := { Dev.reset.mem with hostA := d.mem.hostA, hostB := d.mem.hostB }
    clk := { Clock.reset with freeCtr := d.clk.freeCtr }
    pcieUp := d.pcieUp
    out := d.out }

/-- POWER_ON_RESET: R470, R482. -/
def execPowerOnReset (s : State) : Host.Outcome State Fault Refusal := onDev s fun d => d.powerOn

/-- Registers that a warm reset keeps (R484): PWR, the journal, the management port, the tick unit but for what it shows of
its synchronisation and of bays, PCIe port status, the sister region and, of GLB, identity, straps, counts and slots. Counts since power-on stay too. -/
def warmKeeps (off : Nat) : Bool :=
  within off 0x100000 0x200000 || within off 0x400000 0x800000 || within off 0x3400000 0x3600000 ||
    (within off 0x3800000 0x3900000 && off != TCK_STATUS.off && off != TCK_OFFSET.off && off != TCK_SYNC_STATUS.off &&
      !within off (TCK_BAY_SLIP.off 0) (TCK_BAY_SLIP.off 8)) ||
    within off 0x3600000 0x3600020 || off == FLT_SISREG.off ||
    [GLB_IDENT.off, GLB_SERIAL.off, GLB_STATUS.off, GLB_BAD_ACCESS.off, GLB_BOOTINFO.off, GLB_RAIL.off, GLB_STRAPS.off,
      GLB_FW_SLOTS.off, GLB_FW_LEVELS.off].contains off

/-- What the ports keep: lanes that held their lock (R483). -/
def Dev.warmPorts (d : Dev) : Tab PortU :=
  (List.range 50).foldl (fun t p =>
    if within (d.portState p) psLinkInit (psActive + 1) || d.portState p == psWithdrawn || d.portState p == psQuarantine then
      Tab.put (fun _ => PortU.reset) t p { PortU.reset with lanes := (d.port p).lanes, trained := true } else t) []

/-- A warm reset takes effect (R483, R484): start-up resumes at step 3. -/
def Dev.warmNow (d : Dev) (code origin : Nat) : Dev :=
  let d := if d.flag GLB_FW_SLOTS.staging then d.set GLB_FW_SLOTS.b_valid 0 else d
  let d := (List.range 8).foldl (fun d b => if d.bayState b == bayEmpty then d else d.releasePages b) d
  let d := if d.get (PWR_DOM.state 19) = 0 then (d.setJ 0x50 (PWR_DOM.req 19) 1).sets [(PWR_DOM.state 19, 1), (PWR_DOM.moving 19, 0)] else d
  let d := [0, 1].foldl (fun d p => d.hostLost p false) d
  let e : Dev := { Dev.reset with
    regs := d.regs.filter fun r => warmKeeps r.1
    clk := { d.clk with resetNs := d.clk.timeNs }
    jnl := { d.jnl with held := [], earlyFrom := d.jnlSeq }
    mem := { d.mem with loc := d.mem.loc.filter fun m => decide (m.1 < 0x8000000000) }
    dirty := d.dirty
    keySeq := d.keySeq
    board := { d.board with due := 0 }
    fab := { FabU.reset with ports := d.warmPorts }
    flt := { FltU.reset with slots := d.flt.slots }
    pwr := { d.pwr with trip := false }
    mgt := d.mgt
    boot := { Dev.reset.boot with released := true, noLock := d.boot.noLock }
    pcieUp := d.pcieUp
    i3cAddr := d.i3cAddr
    i3cPage := d.i3cPage
    out := d.out }
  let e := e.sets [(GLB_STATUS.boot_step, 2), (GLB_STATUS.ready, 0), (GLB_STATUS.boot_fail, 0), (GLB_STATUS.boot_cause, 0),
    (GLB_STATUS.ag_usable, 0), (GLB_STATUS.stack_usable, 0), (GLB_BOOTINFO.alt_slot, 0), (GLB_BOOTINFO.field_default, 0),
    (GLB_BOOTINFO.fail_step, 0), (GLB_BOOTINFO.early_full, 0), (GLB_BOOTINFO.last_reset, code), (HIF_READY.state, 0),
    (GLB_FW_SLOTS.staging, 0), (GLB_FW_SLOTS.on_b, 0)]
  let e := (List.range 16).foldl (fun e n => e.set (AG_TM_ERR.retired n) (d.get (AG_TM_ERR.retired n))) e
  let e := (List.range 19).foldl (fun e c => e.set (GLB_FW_CORE.restarts c) (d.get (GLB_FW_CORE.restarts c))) e
  let e := e.set FLT_SUSPECT.lasting (d.get FLT_SUSPECT.lasting)
  ((e.incSat GLB_BOOTINFO.warm_count 1).jnlEventAfter origin 0x0060 (regAddr GLB_RESET.off) code).beginStep 3

/-- The hottest junction is below 100 °C. -/
def Dev.cool (d : Dev) : Bool := decide (d.get PWR_THERM.tj_max < 100)

/-- A warm reset is asserted; while the thermal trip is latched it waits until the junctions are cool (R483). -/
def Dev.warmReset (d : Dev) (code origin : Nat) : Dev :=
  if !d.boot.released then d
  else if d.pwr.trip && !d.cool then d.setBoot fun u => { u with warmWait := some (u.warmWait.getD (code, origin)) }
  else d.warmNow code origin

/-- A warm reset that waited takes effect. -/
def Dev.warmCheck (d : Dev) : Dev :=
  match d.boot.warmWait with
  | some (code, origin) => if d.cool then d.warmNow code origin else d
  | none => d

/-- WRST_N_ASSERT: R483. -/
def execWrstNAssert (s : State) : Host.Outcome State Fault Refusal := onDev s fun d => d.warmReset 1 0x50

/-- JUNCTION_SAMPLE: R391; a warm reset that waits for the junctions to cool follows (R483). -/
def execJunctionSample (temps : Vector (BitVec 8) 64) (s : State) : Host.Outcome State Fault Refusal :=
  onDev s fun d => (d.junctions (temps.toList.map BitVec.toNat)).warmCheck

/-! ### I3C (R495) -/

/-- I3C_PAGE_REFRESH: R495. -/
def execI3cPageRefresh (s : State) : Host.Outcome State Fault Refusal :=
  onDev s fun d =>
    { d with i3cPage := [GLB_STATUS.off, PWR_STATUS.off, PWR_THERM.off, TCK_TICK.off].flatMap fun o => toBytes 8 (d.rd o).toNat }

/-- I3C_DYNAMIC_ADDRESS: R495. -/
def execI3cDynamicAddress (addr : BitVec 7) (s : State) : Host.Outcome State Fault Refusal :=
  onDev s fun d => { d with i3cAddr := addr.toNat }

end Sys2Proof.Machine
end

