-- ==== Sys2Proof/Machine/RegWrite.lean ====
section
/-! DEFINITION. The register path: who may write when, what each register does, and what waits for room in the journal
(spec/01_device_organisation.md, R3 to R8; R192, R390, R430, R434, R438, R448, R499). -/

namespace Sys2Proof.Machine

/-! ### Reading -/

/-- The paths that R448 holds off before the device is ready: hosts, the management port and the fabric. -/
def viaOutside : Via → Bool
  | .host .. | .mgmt | .fabric => true
  | _ => false

/-- A read or write of a register is not yet open to a path (R448); `write` excludes all but GLB_FW. -/
def Dev.notYet (d : Dev) (via : Via) (off : Nat) (write : Bool) : Bool :=
  !d.flag GLB_STATUS.ready && viaOutside via &&
    !(if write then within off 0x1000 0x2000 else decide (off < 0x100000) || off == HIF_READY.off)

/-- A word of the journal's read windows (R431); an entry lost with the ring (R13) reads as none (log entry 154). -/
def Dev.jnlWindow (d : Dev) (off : Nat) : Reg64 :=
  if within off 0x600000 0x800000 then
    let slot := (off - 0x600000) / 64
    let n := d.jnlSeq
    -- the newest sequence of this slot
    let s := n - 1 - (n - 1 - slot) % 32768
    if slot < n && decide (n ≤ s + 32768) then
      match if s < d.jnl.lostBelow then none else d.jnlAt s with
      | some e => BitVec.ofNat 64 (ofBytes ((e.bytes.drop ((off - 0x600000) % 64)).take 8))
      | none => BitVec.allOnes 64
    else BitVec.allOnes 64
  else
    match d.jnl.seals.take 256 |>.find? fun r => r.index % 256 == (off - 0x500000) / 4096 && decide (d.jnl.lostBelow ≤ r.seq) with
    | some r => BitVec.ofNat 64 (ofBytes (((sealBytes r).drop ((off - 0x500000) % 4096)).take 8))
    | none => BitVec.allOnes 64

/-- The 64-bit register at an offset as a path reads it: WO fields and undefined offsets read zero, the journal's windows show
entries and seals (R3, R6, R19, R431, R448). -/
def Dev.readWord (d : Dev) (via : Via) (off : Nat) : Reg64 :=
  if d.notYet via off false then 0
  else if within off 0x500000 0x800000 then d.jnlWindow off
  else match findReg off with
    | some _ => d.rd off
    | none => 0

/-- A read of a register: of another size or alignment it gives all ones and is counted (R3). -/
def Dev.regRead (d : Dev) (via : Via) (off size : Nat) : Nat × Dev :=
  if !((size == 4 || size == 8) && off % size == 0) then (2 ^ (8 * size) - 1, d.badAccess via off false)
  else
    let d := d.jnlShow
    (fieldOf (d.readWord via (off - off % 8)) (8 * (off % 8)) (8 * size), d)

/-! ### Registers whose writes do more -/

/-- The bytes written hold bit b of the word. -/
def holdsBit (lo n b : Nat) : Bool := decide (8 * lo ≤ b) && decide (b < 8 * (lo + n))

/-- JOINT_COMMIT (R192). -/
def Dev.writeJoint (d : Dev) (via : Via) (blk : Nat) (att : Reg64) : Dev :=
  d.jointOp (viaOrigin via) blk (fieldOf att 0 8) (fieldOf att 8 2) (fieldOf att 16 16)

/-- JOINT_COMMIT registers. -/
def isJointCommit (off : Nat) : Bool :=
  [0x3800100, 0x3FF000, 0x1FFF000, 0x2FFF000, 0x33FF000, 0x3FFF000, 0x37FF000, 0x35FF000, 0x1FF000].contains off || isAgBlk off

/-- PWR_DOMd (R390): a request for a state, and the clearing of refused. -/
def Dev.writeDom (d : Dev) (via : Via) (dom lo n : Nat) (att : Reg64) : Dev :=
  let off := PWR_DOM.off dom
  let req := fieldOf att 0 2
  let d := d.writeFields (viaOrigin via) off lo n (insField att 0 2 (d.get (PWR_DOM.req dom)))
  if !holdsBit lo n 0 then d
  else if req = d.get (PWR_DOM.req dom) && (d.get (PWR_DOM.state dom) == req || d.flag (PWR_DOM.moving dom)) then d
  else d.domainRequest (viaOrigin via) dom req

/-- A ring's CFG (R438, R442): en = 1 starts the ring or is refused, en = 0 stops it; one change entry for the whole word. -/
def Dev.writeRing (d : Dev) (via : Via) (r lo n : Nat) (att : Reg64) : Dev :=
  let off := ringBase r
  let want := fieldOf att 0 1
  let was := d.get (RC.en r)
  if !holdsBit lo n 0 || want = was then d.writeFields (viaOrigin via) off lo n att
  else if want = 1 then
    -- what the SW fields of the same write become decides whether the ring may start
    if ((d.wr off (insField att 0 1 0)).ringBad r) then
      ((d.writeFields (viaOrigin via) off lo n (insField att 0 1 0)).jnlRefused (viaOrigin via) off 0 (d.rd off) att).set (RS.cfgRefused r) 1
    else (d.writeFields (viaOrigin via) off lo n att).ringStart r
  else (d.writeFields (viaOrigin via) off lo n att).ringStop r

/-- HIF_RINGr_OWN (R434, R452): through PF0 alone, and not while the owner's TDI is locked; the current value counts as not
written (R7). -/
def Dev.writeOwn (d : Dev) (via : Via) (r lo n : Nat) (att : Reg64) : Dev :=
  let off := HIF_RING_OWN.off r
  let pf0 := match via with | .host _ f => f.val == 0 | _ => false
  if pf0 && !d.sec.tdiLocked.contains (d.ringPort r, d.ringFunc r) then d.writeFields (viaOrigin via) off lo n att
  else if holdsBit lo n 0 && fieldOf att 0 6 != fieldOf (d.rd off) 0 6 then
    (if d.swStopped off then d else d.staticErr off).jnlRefused (viaOrigin via) off 0 (d.rd off) att
  else d

/-- HIF_BAYb_CTL (R451): thaw, through PF0 of a port that serves the bay, of a FROZEN bay. -/
def Dev.writeThaw (d : Dev) (via : Via) (b lo n : Nat) (att : Reg64) : Dev :=
  let off := HIF_BAY_CTL.off b
  let ok := match via with | .host p f => f.val == 0 && d.serves b p.val | _ => false
  if !holdsBit lo n 0 || fieldOf att 0 1 = 0 || d.bayState b != bayFrozen then d
  else if !ok then d.jnlRefused (viaOrigin via) off 0 (d.rd off) att
  else (d.jnlChange (viaOrigin via) off 0 0 att).putBay b { d.bayU b with thawEdge := some d.openEdge }

/-- FABp_CFG (R279, R301, R478). -/
def Dev.writePort (d : Dev) (via : Via) (p lo n : Nat) (att : Reg64) : Dev :=
  (d.writeFields (viaOrigin via) (FABP_CFG.off p) lo n att).portAdmin p

/-- FAB_ID (R307): after a change the handshake record goes out again. -/
def Dev.writeId (d : Dev) (via : Via) (lo n : Nat) (att : Reg64) : Dev :=
  let e := d.writeFields (viaOrigin via) FAB_ID.off lo n att
  if fieldOf (d.rd FAB_ID.off) 0 48 = fieldOf (e.rd FAB_ID.off) 0 48 then e else e.resendRecords

/-- FLT_DEAD_CLR (R355, R361). -/
def Dev.writeDeadClr (d : Dev) (via : Via) (lo n : Nat) (att : Reg64) : Dev :=
  let d := d.writeFields (viaOrigin via) FLT_DEAD_CLR.off lo n att
  if holdsBit lo n 0 then d.deadClear (fieldOf att 0 15) else d

/-- FLT_SISREG (R355): kept in the board record. -/
def Dev.writeSisreg (d : Dev) (via : Via) (lo n : Nat) (att : Reg64) : Dev :=
  let e := d.writeFields (viaOrigin via) FLT_SISREG.off lo n att
  let v := e.rd FLT_SISREG.off
  if v = d.rd FLT_SISREG.off then e else (e.fieldUpdate fun b => { b with sisreg := v }).showFree

/-- A command register: the write is journaled as a change, or as a refusal where the command is refused (R8). -/
def Dev.command (d : Dev) (via : Via) (off : Nat) (att : Reg64) (refused : Dev → Bool) (run : Dev → Dev) : Dev :=
  run (if refused (run d) then d.jnlRefused (viaOrigin via) off 0 0 att else d.jnlChange (viaOrigin via) off 0 0 att)

/-- GLB_FW_CMD (R404 to R409); the fabric may not write it. -/
def Dev.writeFwCmd (d : Dev) (via : Via) (lo n : Nat) (att : Reg64) : Dev :=
  if !holdsBit lo n 0 then d
  else d.command via GLB_FW_CMD.off att (fun d => d.get GLB_FW_CMDSTAT.result == 3) fun d =>
    d.fwCmd via (fieldOf att 0 4) (fieldOf att 4 19)

/-- SEC_CMD (R418 to R420, R429). -/
def Dev.writeSecCmd (d : Dev) (via : Via) (lo n : Nat) (att : Reg64) : Dev :=
  if !holdsBit lo n 0 then d
  else d.command via SEC_CMD.off att (fun d => d.get SEC_CMDSTAT.result == 3) fun d => d.secCmd via (fieldOf att 0 4)

/-- JNL_CFG (R431): while export is enabled exp_log2 stays, and an attempt to change it is counted. -/
def Dev.writeJnlCfg (d : Dev) (via : Via) (lo n : Nat) (att : Reg64) : Dev :=
  let on := d.flag JNL_CFG.export_en
  let log2 := d.get JNL_CFG.exp_log2
  let d := if on && holdsBit lo n 1 && fieldOf att 1 5 != log2 then d.badAccess via JNL_CFG.off true else d
  let d := d.writeFields (viaOrigin via) JNL_CFG.off lo n (if on then insField att 1 5 log2 else att)
  if !on && d.flag JNL_CFG.export_en then d.exportStart else d

/-- JNL_EXPORT_BASE (R431): while export is enabled a write is discarded and counted. -/
def Dev.writeJnlBase (d : Dev) (via : Via) (lo n : Nat) (att : Reg64) : Dev :=
  if d.flag JNL_CFG.export_en then d.badAccess via JNL_EXPORT_BASE.off true
  else d.writeFields (viaOrigin via) JNL_EXPORT_BASE.off lo n att

/-- GLB_RESET (R499). -/
def Dev.writeReset (d : Dev) (via : Via) (lo n : Nat) (att : Reg64) : Dev :=
  if !holdsBit lo n 16 || fieldOf att 16 1 = 0 then d
  else if fieldOf att 0 16 != 0x5752 then d.badAccess via GLB_RESET.off true
  else (d.jnlChange (viaOrigin via) GLB_RESET.off 0 0 att).warmReset 2 (viaOrigin via)

/-- MGT_CFG (R468). -/
def Dev.writeMgtCfg (d : Dev) (via : Via) (lo n : Nat) (att : Reg64) : Dev :=
  let was := d.flag MGT_CFG.mac_en
  let d := d.writeFields (viaOrigin via) MGT_CFG.off lo n att
  let now := d.flag MGT_CFG.mac_en
  if was == now then d else if now then d.macOn else d.macOff

/-- The index of an offset in an array of registers. -/
def indexIn (off base stride count : Nat) : Option Nat :=
  if base ≤ off && (off - base) % stride == 0 && decide ((off - base) / stride < count) then some ((off - base) / stride) else none

/-- The ring whose CFG register lies at an offset. -/
def ringAt (off : Nat) : Option Nat :=
  match indexIn off 0x3620000 0x40 64 with
  | some r => some r
  | none => (indexIn off 0x3610000 0x40 2).map (64 + ·)

/-- A write to a register that has an effect of its own, by offset; none for any other register. -/
def Dev.specialWrite (d : Dev) (via : Via) (off lo n : Nat) (att : Reg64) : Option Dev :=
  if isJointCommit off then some (if holdsBit lo n 0 then d.writeJoint via off att else d)
  else if off == GLB_FW_CMD.off then some (d.writeFwCmd via lo n att)
  else if off == SEC_CMD.off then some (d.writeSecCmd via lo n att)
  else if off == GLB_RESET.off then some (d.writeReset via lo n att)
  else if off == JNL_CFG.off then some (d.writeJnlCfg via lo n att)
  else if off == JNL_EXPORT_BASE.off then some (d.writeJnlBase via lo n att)
  else if off == MGT_CFG.off then some (d.writeMgtCfg via lo n att)
  else if off == FAB_ID.off then some (d.writeId via lo n att)
  else if off == FLT_DEAD_CLR.off then some (d.writeDeadClr via lo n att)
  else if off == FLT_SISREG.off then some (d.writeSisreg via lo n att)
  else match indexIn off (AG_PEG_ADD.off 0) 0x100000 16 with
  | some g => some (if holdsBit lo n 0 then d.pegAdd (viaOrigin via) g (fieldOf att 0 12) (fieldOf att 16 16) else d)
  | none => match indexIn off (PWR_DOM.off 0) 8 20 with
  | some k => some (d.writeDom via k lo n att)
  | none => match indexIn off (FABP_CFG.off 0) 0x10000 50 with
  | some p => some (d.writePort via p lo n att)
  | none => match indexIn off (HIF_BAY_CTL.off 0) 0x20 8 with
  | some b => some (d.writeThaw via b lo n att)
  | none => match indexIn off (HIF_RING_OWN.off 0) 0x40 64 with
  | some r => some (d.writeOwn via r lo n att)
  | none => (ringAt off).map fun r => d.writeRing via r lo n att

/-- What a write of `size` bytes does once the path has taken it (R3, R18, R19). -/
def Dev.regEffect (d : Dev) (via : Via) (off size value : Nat) : Dev :=
  let base := off - off % 8
  if !((size == 4 || size == 8) && off % size == 0) || (findReg base).isNone then d.badAccess via off true
  else if via == .fabric && within base 0x1000 0x2000 then d.jnlRefused (viaOrigin via) base 0 (d.rd base) (BitVec.ofNat 64 value)
  else
    match d.specialWrite via base (off % 8) size (mergeBytes (d.shadowWord base) (off % 8) size value) with
    | some e => e
    | none => d.regWriteCore via off size value

/-! ### The path (R430, R434, R448) -/

/-- A VF reaches its own rings' pages alone; any other path reaches the whole register space (R434). -/
def Dev.pathReaches (d : Dev) (via : Via) (off : Nat) : Bool :=
  match via with
  | .host p f => f.val == 0 || (within off 0x3620000 0x3621000 && decide ((off - 0x3620000) % 0x40 < 0x20) &&
      d.ringPort ((off - 0x3620000) / 0x40) == p.val && d.ringFunc ((off - 0x3620000) / 0x40) == f.val)
  | _ => true

/-- A write takes effect, or waits while the journal has no room for an entry it makes; while writes wait, later ones queue
behind them: the path holds 1,024, and those behind wait at their ports, which return no credits (R430). -/
def Dev.orHold (d : Dev) (w : HeldWrite) (f : Dev → Dev) : Dev :=
  let e := f d
  if !d.jnlFull && d.jnl.held.isEmpty then e
  else if e.jnlSeq = d.jnlSeq && d.jnl.held.isEmpty then e
  else d.setJnl fun j => { j with held := j.held ++ [w] }

/-- A write by a path: discarded and counted before the device is ready (R448), not seen where the path has no access. -/
def Dev.throughPath (d : Dev) (via : Via) (off size value : Nat) (f : Dev → Dev) : Dev :=
  if d.notYet via off true then d.badAccess via off true
  else if !d.pathReaches via off then d
  else d.orHold { via := via, off := off, size := size, value := value } f

/-- A register write. -/
def Dev.regWrite (d : Dev) (via : Via) (off size value : Nat) : Dev :=
  d.throughPath via off size value fun d => d.regEffect via off size value

/-- Writes that waited take effect in order while the journal has room. -/
def Dev.drainWrites (d : Dev) : Nat → Dev
  | 0 => d
  | n + 1 =>
    match d.jnl.held with
    | w :: rest =>
      if d.jnlFull then d
      else ((d.setJnl fun j => { j with held := rest }).regEffect w.via w.off w.size w.value).drainWrites n
    | [] => d

/-! ### The commands -/

/-- REGISTER_WRITE: R6. -/
def execRegisterWrite (via : Via) (off : BitVec 26) (size : Nat) (value : Reg64) (s : State) : Host.Outcome State Fault Refusal :=
  onDev s fun d => d.regWrite via off.toNat size value.toNat

/-- ARM: R192. -/
def execArm (via : Via) (block : JBlock) (joint : BitVec 8) (token : BitVec 16) (s : State) : Host.Outcome State Fault Refusal :=
  onDev s fun d => d.throughPath via (jblockOff block) 8 (jointWord joint.toNat 0 token.toNat).toNat fun d =>
    d.jointOp (viaOrigin via) (jblockOff block) joint.toNat 0 token.toNat

/-- DISARM: R192. -/
def execDisarm (via : Via) (block : JBlock) (joint : BitVec 8) (token : BitVec 16) (s : State) : Host.Outcome State Fault Refusal :=
  onDev s fun d => d.throughPath via (jblockOff block) 8 (jointWord joint.toNat 1 token.toNat).toNat fun d =>
    d.jointOp (viaOrigin via) (jblockOff block) joint.toNat 1 token.toNat

/-- JOINT_REVERT: R192. -/
def execJointRevert (via : Via) (block : JBlock) (joint : BitVec 8) (token : BitVec 16) (s : State) :
    Host.Outcome State Fault Refusal :=
  onDev s fun d => d.throughPath via (jblockOff block) 8 (jointWord joint.toNat 2 token.toNat).toNat fun d =>
    d.jointOp (viaOrigin via) (jblockOff block) joint.toNat 2 token.toNat

/-- PEG_ADD: R120, R125. -/
def execPegAdd (via : Via) (ag : AgId) (peg : BitVec 12) (amount : BitVec 16) (s : State) : Host.Outcome State Fault Refusal :=
  onDev s fun d => d.throughPath via (AG_PEG_ADD.off ag.val) 8 (pegAddWord peg.toNat amount.toNat).toNat fun d =>
    d.pegAdd (viaOrigin via) ag.val peg.toNat amount.toNat

/-- The register with one field set as a 64-bit write attempts it. -/
def Dev.wordWith (d : Dev) (f : RF) (n : Nat) : Reg64 := insField (d.rd f.off) f.lo f.w n

/-- DOMAIN_REQUEST: R390. -/
def execDomainRequest (via : Via) (dom : DomId) (req : BitVec 2) (s : State) : Host.Outcome State Fault Refusal :=
  onDev s fun d => d.throughPath via (PWR_DOM.off dom.val) 8 req.toNat fun d =>
    d.writeDom via dom.val 0 8 (BitVec.ofNat 64 req.toNat)

/-- PRETHAW_TARGET: R387. -/
def execPrethawTarget (via : Via) (watts : BitVec 16) (s : State) : Host.Outcome State Fault Refusal :=
  onDev s fun d => d.throughPath via PWR_TARGET.off 8 watts.toNat fun d =>
    d.writeFields (viaOrigin via) PWR_TARGET.off 0 8 (BitVec.ofNat 64 watts.toNat)

/-- BAY_THAW: R451. -/
def execBayThaw (via : Via) (bay : BayId) (s : State) : Host.Outcome State Fault Refusal :=
  onDev s fun d => d.throughPath via (HIF_BAY_CTL.off bay.val) 8 1 fun d => d.writeThaw via bay.val 0 8 1

/-- RING_ENABLE: R438. -/
def execRingEnable (via : Via) (ring : RingId) (s : State) : Host.Outcome State Fault Refusal :=
  onDev s fun d => d.throughPath via (ringBase ring.val) 8 (d.wordWith (RC.en ring.val) 1).toNat fun d =>
    d.writeRing via ring.val 0 8 (d.wordWith (RC.en ring.val) 1)

/-- RING_DISABLE: R442. -/
def execRingDisable (via : Via) (ring : RingId) (s : State) : Host.Outcome State Fault Refusal :=
  onDev s fun d => d.throughPath via (ringBase ring.val) 8 (d.wordWith (RC.en ring.val) 0).toNat fun d =>
    d.writeRing via ring.val 0 8 (d.wordWith (RC.en ring.val) 0)

/-- PORT_ENABLE: R279. -/
def execPortEnable (via : Via) (port : FabPort) (s : State) : Host.Outcome State Fault Refusal :=
  onDev s fun d => d.throughPath via (FABP_CFG.off port.val) 8 (d.wordWith (FABP_CFG.admin_en port.val) 1).toNat fun d =>
    d.writePort via port.val 0 8 (d.wordWith (FABP_CFG.admin_en port.val) 1)

/-- PORT_DISABLE: R301. -/
def execPortDisable (via : Via) (port : FabPort) (s : State) : Host.Outcome State Fault Refusal :=
  onDev s fun d => d.throughPath via (FABP_CFG.off port.val) 8 (d.wordWith (FABP_CFG.admin_en port.val) 0).toNat fun d =>
    d.writePort via port.val 0 8 (d.wordWith (FABP_CFG.admin_en port.val) 0)

/-- DEAD_CLR: R355. -/
def execDeadClr (via : Via) (dev : BitVec 15) (s : State) : Host.Outcome State Fault Refusal :=
  onDev s fun d => d.throughPath via FLT_DEAD_CLR.off 8 dev.toNat fun d => d.writeDeadClr via 0 8 (BitVec.ofNat 64 dev.toNat)

/-- UNFENCE: R363. -/
def execUnfence (via : Via) (s : State) : Host.Outcome State Fault Refusal :=
  onDev s fun d => d.throughPath via FLT_STATUS.off 8 (2 ^ 9) fun d => d.writeFields (viaOrigin via) FLT_STATUS.off 0 8 (2 ^ 9)

/-- CLEAR_DROPPED: R365. -/
def execClearDropped (via : Via) (bay : BayId) (s : State) : Host.Outcome State Fault Refusal :=
  onDev s fun d => d.throughPath via (FLT_BAY_STATE.off bay.val) 8 1 fun d =>
    d.writeFields (viaOrigin via) (FLT_BAY_STATE.off bay.val) 0 8 1

/-- The word of a GLB_FW_CMD write. -/
def fwWord (op mask : Nat) : Reg64 := BitVec.ofNat 64 (op + mask * 16)

/-- A GLB_FW_CMD write with an op and a mask. -/
def Dev.fwWrite (d : Dev) (via : Via) (op mask : Nat) : Dev :=
  d.throughPath via GLB_FW_CMD.off 8 (fwWord op mask).toNat fun d =>
    if via = .fabric then d.jnlRefused (viaOrigin via) GLB_FW_CMD.off 0 0 (fwWord op mask) else d.writeFwCmd via 0 8 (fwWord op mask)

/-- STAGE: R404. -/
def execStage (via : Via) (s : State) : Host.Outcome State Fault Refusal := onDev s fun d => d.fwWrite via 1 0

/-- ACTIVATE: R405. -/
def execActivate (via : Via) (mask : BitVec 19) (s : State) : Host.Outcome State Fault Refusal :=
  onDev s fun d => d.fwWrite via 2 mask.toNat

/-- CANCEL: R406. -/
def execCancel (via : Via) (s : State) : Host.Outcome State Fault Refusal := onDev s fun d => d.fwWrite via 3 0

/-- RESTART: R409. -/
def execRestart (via : Via) (mask : BitVec 19) (s : State) : Host.Outcome State Fault Refusal :=
  onDev s fun d => d.fwWrite via 4 mask.toNat

/-- REVERT: R407. -/
def execRevert (via : Via) (mask : BitVec 19) (s : State) : Host.Outcome State Fault Refusal :=
  onDev s fun d => d.fwWrite via 5 mask.toNat

/-- A SEC_CMD write with an op. -/
def Dev.secWriteCmd (d : Dev) (via : Via) (op : Nat) : Dev :=
  d.throughPath via SEC_CMD.off 8 op fun d => d.writeSecCmd via 0 8 (BitVec.ofNat 64 op)

/-- INSTALL_KEY_PACKAGE: R420. -/
def execInstallKeyPackage (via : Via) (s : State) : Host.Outcome State Fault Refusal := onDev s fun d => d.secWriteCmd via 1

/-- PRESENT_OWNER_RECORD: R418. -/
def execPresentOwnerRecord (via : Via) (s : State) : Host.Outcome State Fault Refusal := onDev s fun d => d.secWriteCmd via 2

/-- SEAL_NOW: R429. -/
def execSealNow (via : Via) (s : State) : Host.Outcome State Fault Refusal := onDev s fun d => d.secWriteCmd via 3

/-- EXPORT_ENABLE: R431. -/
def execExportEnable (via : Via) (s : State) : Host.Outcome State Fault Refusal :=
  onDev s fun d => d.throughPath via JNL_CFG.off 8 (d.wordWith JNL_CFG.export_en 1).toNat fun d =>
    d.writeJnlCfg via 0 8 (d.wordWith JNL_CFG.export_en 1)

/-- MAC_ENABLE: R468. -/
def execMacEnable (via : Via) (s : State) : Host.Outcome State Fault Refusal :=
  onDev s fun d => d.throughPath via MGT_CFG.off 8 (d.wordWith MGT_CFG.mac_en 1).toNat fun d =>
    d.writeMgtCfg via 0 8 (d.wordWith MGT_CFG.mac_en 1)

/-- MAC_DISABLE: R468. -/
def execMacDisable (via : Via) (s : State) : Host.Outcome State Fault Refusal :=
  onDev s fun d => d.throughPath via MGT_CFG.off 8 (d.wordWith MGT_CFG.mac_en 0).toNat fun d =>
    d.writeMgtCfg via 0 8 (d.wordWith MGT_CFG.mac_en 0)

/-- WARM_RESET: R499. -/
def execWarmReset (via : Via) (key : BitVec 16) (s : State) : Host.Outcome State Fault Refusal :=
  onDev s fun d => d.throughPath via GLB_RESET.off 8 (key.toNat + 2 ^ 16) fun d =>
    d.writeReset via 0 8 (BitVec.ofNat 64 (key.toNat + 2 ^ 16))

end Sys2Proof.Machine
end

