-- ==== Sys2Proof/Machine/Mgmt.lean ====
section
/-! DEFINITION. Discovery and assignment, management messages, SPDM requests
(spec/13_fabric_addressing_and_routing.md, R307, R310, R311; spec/18_security_and_journal.md, R421 to R423;
spec/20_management_port.md, R462 to R467). -/

namespace Sys2Proof.Machine

/-! ### Discovery (R310, R311, R463) -/

/-- A DISCOVER that came as a frame is answered to its source address, with a path of length 0 and the record of port 0. -/
def Dev.segmentReply (d : Dev) (mac : Nat) (pkt : Packet) : Dev :=
  d.sendSegment 1 mac (d.mkControl pkt.src.toNat 0x05 [(25, 1, 0)] (d.discoverPayload 0))

/-- A DISCOVER on the segment: answered at once where it was sent to the unicast address, otherwise after a random delay of up
to 10 ms (R463). -/
def Dev.segmentDiscover (d : Dev) (fr : Frame) (pkt : Packet) : Dev :=
  if fr.dst.toNat == d.ownMac then d.segmentReply fr.src.toNat pkt
  else
    let (n, d) := d.fresh
    d.setMgt fun u => { u with delayed := u.delayed ++ [(d.clk.timeNs + Config.randomDraw n % 10000001, fr.src.toNat, pkt)] }

/-- A control packet of a type: from the fabric where one has been delivered, else at the head of the receive queues. -/
def Dev.onDiscovery (d : Dev) (type : Nat) (fabric : Dev → Nat → Packet → Dev) (segment : Dev → Frame → Packet → Dev) : Dev :=
  if d.fab.inbox.any fun e => e.pkt.op.toNat == opControl && ctlType e.pkt == type then d.onPacket opControl (some type) fabric
  else
    match d.segHead with
    | some (q, fr, p) => if ctlType p = type then segment (d.served q) fr p else d
    | none => d

/-- DISCOVER: R311. -/
def execDiscover (s : State) : Host.Outcome State Fault Refusal :=
  onDev s fun d => d.onDiscovery 4 (fun d a pkt => d.sourceRoute a pkt fun d q => d.discoverReply q) Dev.segmentDiscover

/-- A DISCOVER_REPLY from the fabric: sent on along its path, at whose end it reaches the manager (R310). On an ETHERNET port it
brings the record of a peer, which may show two devices with one ID (R283, R308). -/
def Dev.fabricReply (d : Dev) (a : Nat) (pkt : Packet) : Dev :=
  if d.isEthernet a then d.checkConflict (ofBytes (pkt.payload.take 48))
  else d.sourceRoute a pkt fun d q => d.emit (.toManager q)

/-- DISCOVER_REPLY: R310; at its target it reaches the manager. -/
def execDiscoverReply (s : State) : Host.Outcome State Fault Refusal :=
  onDev s fun d => d.onDiscovery 5 Dev.fabricReply fun d _ pkt => d.emit (.toManager pkt)

/-- The delay of the oldest DISCOVER that is due has passed (R463). -/
def Dev.delayedReply (d : Dev) : Dev :=
  match takeFirst (fun (e : Nat × Nat × Packet) => decide (e.1 ≤ d.clk.timeNs)) d.mgt.delayed with
  | some (e, rest) => (d.setMgt fun u => { u with delayed := rest }).segmentReply e.2.1 e.2.2
  | none => d

/-- DISCOVER_REPLY_DELAY: R463. -/
def execDiscoverReplyDelay (s : State) : Host.Outcome State Fault Refusal := onDev s fun d => d.delayedReply

/-! ### Assignment (R307) -/

/-- The entry of MGT_PEER with a source address. -/
def Dev.peerIndex (d : Dev) (mac : Nat) : Option Nat :=
  (List.range 4).find? fun i => d.flag (MGT_PEER.valid i) && d.get (MGT_PEER.mac i) == mac

/-- The management agent takes a write, staging data or an assignment from a source (R465). -/
def Dev.permitted (d : Dev) (mac : Nat) (secured : Bool) : Bool :=
  (d.peerIndex mac).isSome && (!d.flag MGT_CFG.auth || secured)

/-- The source of an ASSIGN may assign: FAB_MGR has no valid entry, or names it (R307). -/
def Dev.mayAssign (d : Dev) (pkt : Packet) : Bool :=
  (!d.flag FAB_MGR.mgr0_valid && !d.flag FAB_MGR.mgr1_valid) || d.isManager pkt.src.toNat

/-- The word an ASSIGN gives FAB_ID, whose other bits stay. -/
def Dev.assignedWord (d : Dev) (pay : List Byte) : Reg64 :=
  let f (lo n : Nat) : Nat := ofBytes ((pay.drop lo).take n)
  insField (insField (insField (insField (d.rd FAB_ID.off) 0 15 (f 0 2)) 15 1 1) 16 16 (f 2 2)) 32 16 (f 4 2)

/-- An ASSIGN whose source may assign writes FAB_ID, a static register, and FAB_MGR from its 16-byte payload; after a change the
handshake records go out again (R7, R307). -/
def Dev.assign (d : Dev) (origin : Nat) (pkt : Packet) : Dev :=
  let w := d.assignedWord pkt.payload
  let e := d.writeFields origin FAB_ID.off 0 8 (insField w 50 1 0)
  let e := e.writeFields origin FAB_MGR.off 0 8 (BitVec.ofNat 64 (ofBytes ((pkt.payload.drop 8).take 8)))
  if fieldOf (d.rd FAB_ID.off) 0 48 = fieldOf (e.rd FAB_ID.off) 0 48 then e else e.resendRecords

/-- An ASSIGN at its target on the fabric: dropped and counted unless its source may assign (R307). -/
def Dev.fabricAssign (d : Dev) (pkt : Packet) : Dev :=
  if d.mayAssign pkt then d.assign 0x40 pkt else d.incSat FAB_ROUTE_STAT.ctl_drop 1

/-- An ASSIGN on the segment, from a permitted source (R463, R465). -/
def Dev.segmentAssign (d : Dev) (mac : Nat) (secured : Bool) (pkt : Packet) : Dev :=
  if !d.permitted mac secured then d.incSat MGT_MSGCNT.ctl_drop 1
  else if d.mayAssign pkt then d.assign 0x30 pkt else d.incSat FAB_ROUTE_STAT.ctl_drop 1

/-- ASSIGN: R307; on the fabric it is source-routed (R310). It waits while the journal is full (R430). -/
def execAssign (s : State) : Host.Outcome State Fault Refusal :=
  onDev s fun d =>
    if d.jnlFull then d
    else d.onDiscovery 6 (fun d a pkt => d.sourceRoute a pkt fun d q => d.fabricAssign q)
      fun d fr pkt => d.segmentAssign fr.src.toNat false pkt

/-! ### Register access and staging (R464 to R467) -/

/-- A field of a message's body. -/
def Msg.num (m : Msg) (lo n : Nat) : Nat := ofBytes ((m.body.drop lo).take n)

/-- The answer to a register request: the offset, and the register's value. -/
def regResp (m : Msg) (status off value : Nat) : Msg :=
  { type := 3, seq := m.seq, status := status, body := toBytes 4 off ++ toBytes 4 0 ++ toBytes 8 value }

/-- A REG_READ is performed (R465). -/
def Dev.regReadMsg (d : Dev) (m : Msg) : Dev × Msg :=
  let off := m.num 0 4 % 2 ^ 26
  let (v, d) := d.regRead .mgmt off 8
  (d, regResp m 0 off v)

/-- Registers that the segment may not write (R465). -/
def mgmtProtected (off : Nat) : Bool :=
  off == MGT_CFG.off || off == MGT_PLCA.off || (List.range 4).any (fun i => off == MGT_PEER.off i) ||
    (List.range 8).any (fun i => off == MGT_ADDR.off i) || off == 0x35FF000

/-- Why a REG_WRITE is refused, 0 where it is carried out (R464, R465, R468). -/
def Dev.regWriteStatus (d : Dev) (ok : Bool) (off : Nat) : Nat :=
  if !ok then 2 else if mgmtProtected off then 3 else if d.notYet .mgmt off true then 1 else 0

/-- A REG_WRITE is performed: refused accesses are counted, and the register as it then reads is answered (R464, R465). -/
def Dev.regWriteMsg (d : Dev) (ok : Bool) (m : Msg) : Dev × Msg :=
  let off := m.num 0 4 % 2 ^ 26
  let st := d.regWriteStatus ok off
  let d := if st = 2 || st = 3 then d.badAccess .mgmt off true else d.regWrite .mgmt off 8 (m.num 8 8)
  (d, regResp m st off (d.readWord .mgmt (off - off % 8)).toNat)

/-- A staging buffer of 32 MiB (R467). -/
def stagingBytes : Nat := 32 * 2 ^ 20

/-- A STAGE_DATA is performed (R464, R467): its bytes go to the staging buffer, not while a stage op is in progress and not
before the buffer is there. -/
def Dev.stageMsg (d : Dev) (ok : Bool) (m : Msg) : Dev × Msg :=
  let off := m.num 0 4
  let n := m.num 4 2
  let st :=
    if off % 1024 != 0 || n == 0 || decide (1024 < n) || m.body.length != 8 + n || decide (stagingBytes < off + n) then 5
    else if !ok then 2
    else if d.boot.early then 1
    else if d.flag GLB_FW_SLOTS.staging then 4 else 0
  let d := if st ≠ 0 then d
    else ((m.body.drop 8).take n).zipIdx.foldl (fun d e => d.putByte (d.stagingAddr (off + e.2)) e.1) d
  (d, { type := 0x21, seq := m.seq, status := st, body := toBytes 4 off })

/-- A request is answered, and a peer's answer is kept (R466). -/
def Dev.answerPeer (d : Dev) (q mac : Nat) (m : Msg) : Dev :=
  let e := d.answer q mac m
  match d.peerIndex mac, (e.txq q).getLast? with
  | some i, some f => e.setMgt fun u => { u with kept := Tab.put (fun _ => none) u.kept i (some (m.seq, f.frame)) }
  | _, _ => e

/-- A message of a type at the head of the receive queues: a peer's repeated sequence is answered again from the kept copy on
transmit queue q and counted, any other is taken (R466). -/
def Dev.onFresh (d : Dev) (type q : Nat) (take : Dev → Nat → Msg → Dev) : Dev :=
  d.onMessage type fun d fr m =>
    let mac := fr.src.toNat
    let again := (d.peerIndex mac).bind fun i => (Tab.get (fun _ => none) d.mgt.kept i).filter fun k => k.1 == m.seq
    match again with
    | some k => (d.incSat MGT_MSGCNT.dup 1).putTxq q (d.txq q ++ [{ frame := k.2, attempts := 0 }])
    | none => take d mac m

/-- A request of a type is performed, and answered on transmit queue q (R466). -/
def Dev.onRequest (d : Dev) (type q : Nat) (perform : Dev → Bool → Msg → Dev × Msg) : Dev :=
  d.onFresh type q fun d mac m =>
    let r := perform d (d.permitted mac false) m
    r.1.answerPeer q mac r.2

/-- REG_READ: R465. -/
def execRegRead (s : State) : Host.Outcome State Fault Refusal :=
  onDev s fun d => d.onRequest 1 2 fun d _ m => d.regReadMsg m

/-- A message waits while the register path would hold its write (R430, R466). -/
def Dev.unlessHeld (d e : Dev) : Dev :=
  if e.jnl.held.length ≠ d.jnl.held.length || 1024 ≤ d.jnl.held.length then d else e

/-- REG_WRITE: R465; it waits while the register path waits on a full journal, and the agent takes no other message (R466). -/
def execRegWrite (s : State) : Host.Outcome State Fault Refusal :=
  onDev s fun d => d.unlessHeld (d.onRequest 2 2 fun d ok m => d.regWriteMsg ok m)

/-- STAGE_DATA: R467. -/
def execStageData (s : State) : Host.Outcome State Fault Refusal :=
  onDev s fun d => d.onRequest 0x20 0 fun d ok m => d.stageMsg ok m

/-! ### SPDM (R421 to R423) -/

/-- The number of a transport in the table of secured sessions. -/
def transportOf : SpdmPath → Nat
  | .doe p => p.val
  | .mgmt => 2
  | .fabric => 3

/-- The 17 measurement blocks (R423). -/
def Dev.measurements (d : Dev) : List Nat :=
  Config.imageDigest 4 0 :: ((List.range 4).map fun k => Config.imageDigest k (d.runningImage k).level) ++
    [Config.sectionDigest 6 0, Config.sectionDigest 7 d.board.epoch, Config.sectionDigest 8 d.board.generation] ++
    ((List.range 8).map fun b => if d.bayState b == bayEmpty then 0 else (d.bayU b).digest) ++
    [match d.jnl.seals with | r :: _ => r.digest | [] => 0]

/-- What a secured message on the management port carries is performed as authenticated; its answer goes into the SPDM answer
(R465). -/
def Dev.application (d : Dev) (mac n : Nat) (msg : List Byte) : Dev × List Byte :=
  match (if Tab.get (fun _ => 0) d.sec.sessions 2 = 0 then none else Config.spdmApplication msg n) with
  | none => (d, [])
  | some (true, bytes) =>
    match pktOfBytes bytes with
    | some p => if ctlType p = 6 && p.op.toNat == opControl then (d.segmentAssign mac true p, []) else (d, [])
    | none => (d, [])
  | some (false, bytes) =>
    match readMsg bytes with
    | .ok m =>
      let r := match m.type with
        | 1 => d.regReadMsg m
        | 2 => d.regWriteMsg (d.permitted mac true) m
        | 0x20 => d.stageMsg (d.permitted mac true) m
        | t => (d, { type := t, seq := m.seq, status := 5, body := [] })
      let d := if r.2.status = 0 then r.1 else (r.1.incSat MGT_MSGCNT.refused 1).set MGT_EVENT.refused 1
      (d, r.2.bytes)
    | _ => (d, [])

/-- A session of a transport opens, four at most, or closes (R421). -/
def Dev.sessionChange (d : Dev) (t change : Nat) : Dev :=
  let k := Tab.get (fun _ => 0) d.sec.sessions t
  let k' := if change = 1 then min 4 (k + 1) else if change = 2 then k - 1 else k
  ({ d with sec := { d.sec with sessions := Tab.put (fun _ => 0) d.sec.sessions t k' } } : Dev).showSessions

/-- A TDI of a port enters or leaves CONFIG_LOCKED and RUN (R452). -/
def Dev.tdiMoves (d : Dev) (p : Nat) : Option (Nat × Bool) → Dev
  | some (vf, locked) =>
    let rest := d.sec.tdiLocked.filter fun e => e != (p, vf % 32)
    { d with sec := { d.sec with tdiLocked := if locked then rest ++ [(p, vf % 32)] else rest } }
  | none => d

/-- The answer goes out on the transport of its request: the DOE mailbox, a frame to the requester, or the requester's own
window (R422, R464). -/
def Dev.spdmSend (d : Dev) (path : SpdmPath) (requester : Nat) (answer : List Byte) : Dev :=
  match path with
  | .doe _ => d.emit (.spdm path requester answer)
  | .mgmt => d.answerPeer 2 (requester % 2 ^ 48) { type := 0x10, seq := requester / 2 ^ 48, status := 0, body := answer.take 1400 }
  | .fabric => d.sendWrites requester 1 0 (Config.spdmWindow d.myId) (answer.take 4096) .none

/-- SEC serves an SPDM request (R421 to R423). -/
def Dev.spdmServe (d : Dev) (path : SpdmPath) (requester : Nat) (msg : List Byte) : Dev :=
  let (n, d) := d.fresh
  let (d, inner) := match path with
    | .mgmt => d.application (requester % 2 ^ 48) n msg
    | _ => (d, [])
  let d := d.sessionChange (transportOf path) (Config.spdmSession msg n)
  let d := match path with
    | .doe p => d.tdiMoves p.val (Config.tdiChange msg n)
    | _ => d
  d.spdmSend path requester (Config.spdmAnswer msg inner d.measurements n)

/-- Two requests of one requester over one transport: on the management port the sequence counts for nothing. -/
def sameRequester (path : SpdmPath) (a b : Nat) : Bool := if path = .mgmt then a % 2 ^ 48 == b % 2 ^ 48 else a == b

/-- A request enters SEC's queue, one per requester of a transport (R422). -/
def Dev.spdmQueue (d : Dev) (path : SpdmPath) (requester : Nat) (msg : List Byte) : Dev :=
  if d.sec.spdm.any fun e => e.1 == path && sameRequester path e.2.1 requester then d
  else { d with sec := { d.sec with spdm := d.sec.spdm ++ [(path, requester, msg)] } }

/-- Every waiting request is served in the order of arrival. -/
def Dev.spdmDrain (d : Dev) : Dev :=
  let l := d.sec.spdm
  l.foldl (fun d e => d.spdmServe e.1 e.2.1 e.2.2) { d with sec := { d.sec with spdm := [] } }

/-- A request is served, or waits while SEC restarts (R402); before SEC runs for the first time it is dropped (R448). -/
def Dev.spdmArrives (d : Dev) (path : SpdmPath) (requester : Nat) (msg : List Byte) : Dev :=
  if !d.flag SEC_STATUS.puf_ok then d
  else if d.secRunning then d.spdmServe path requester msg
  else d.spdmQueue path requester msg

/-- SPDM_REQUEST (R421): from a DOE mailbox with the message given; on the management port the SPDM message at the head of the
receive queues; on the fabric the waiting request of the requester. -/
def Dev.spdmRequest (d : Dev) (path : SpdmPath) (requester : Nat) (msg : List Byte) : Dev :=
  match path with
  | .doe p => if d.flag (HIF_PORT_STATUS.link_up p.val) then d.spdmArrives path requester msg else d
  | .mgmt => d.unlessHeld (d.onFresh 0x10 2 fun d mac m => d.spdmArrives .mgmt (mac + 2 ^ 48 * m.seq) m.body)
  | .fabric =>
    if !d.secRunning then d
    else match takeFirst (fun (e : SpdmPath × Nat × List Byte) => e.1 == .fabric && e.2.1 == requester) d.sec.spdm with
      | some (e, rest) => ({ d with sec := { d.sec with spdm := rest } } : Dev).spdmServe .fabric e.2.1 e.2.2
      | none => d

/-- SPDM_REQUEST: R421. -/
def execSpdmRequest (path : SpdmPath) (requester : BitVec 48) (msg : List Byte) (s : State) : Host.Outcome State Fault Refusal :=
  onDev s fun d => d.spdmRequest path requester.toNat msg

/-- CORE_RESTART_DONE: R402; with SEC's return the SPDM requests that waited are served. -/
def execCoreRestartDone (core : CoreId) (us : BitVec 16) (s : State) : Host.Outcome State Fault Refusal :=
  onDev s fun d =>
    let waits := d.secRunning
    let d := d.coreReturns core.val us.toNat
    if !waits && d.secRunning then d.spdmDrain else d

end Sys2Proof.Machine
end

