-- ==== Sys2Proof/Machine/E2e.lean ====
section
/-! DEFINITION. WRITE and READ_REQ at their destination (spec/12_fabric_links.md, R292, R293, R295;
spec/13_fabric_addressing_and_routing.md, R305). -/

namespace Sys2Proof.Machine

/-! ### What a tag-0 packet may name (R305) -/

/-- A range of n bytes from an address lies inside another range. -/
def inside (a n base len : Nat) : Bool := decide (base ≤ a) && decide (a + n ≤ base + len)

/-- A local range that a manager may name: of one kind, and neither reserved nor in an extent of no bay (R17, R18, R258, R305,
R500). -/
def Dev.managerRange (d : Dev) (a n : Nat) : Option LKind :=
  let k := localKind a
  if n = 0 || localKind (a + n - 1) != k || k == .reserved then none
  else if (k == .hbm || k == .tile) && !d.rangeReach a n then none
  else some k

/-- The window of a snapshot slot that its requester may write (R355, R357). -/
def Dev.slotWindow (d : Dev) (src a n : Nat) : Bool := d.flt.slots.any fun s => s.dev == src && inside a n s.base s.bytes

/-- The window that a refill source has opened for a target: the slots of the tag it refills (R367). -/
def Dev.refillWindow (d : Dev) (src a n : Nat) : Bool :=
  (List.range 8).any fun b => (d.fltBay b).holder == some src &&
    d.flt.slots.any fun s => s.tag == d.tagOf b && inside a n s.base s.bytes

/-- The SPDM mailbox window of a source (R422). -/
def spdmWindowHas (src a n : Nat) : Bool := inside a n (Config.spdmWindow src) 4096

/-! ### Registers by the fabric -/

/-- The payload of a packet written to registers: one access, of the payload's size (R3, R305). -/
def Dev.regBytesWrite (d : Dev) (off : Nat) (l : List Byte) : Dev := d.regWrite .fabric off l.length (ofBytes l)

/-- Registers read by a packet: one access, of the length asked for (R3, R305). -/
def Dev.regBytesRead (d : Dev) (off n : Nat) : List Byte × Dev :=
  let (v, d) := d.regRead .fabric off n
  (toBytes n v, d)

/-! ### WRITE (R293, R295) -/

/-- A tag-0 WRITE (R305). -/
def Dev.writeUntagged (d : Dev) (pkt : Packet) : Dev :=
  let src := pkt.src.toNat
  let a := pkt.addr.toNat
  let n := pkt.payload.length
  let take (d : Dev) : Dev := (d.rxMark pkt).ackDue pkt
  if d.isManager src then
    match d.managerRange a n with
    | some .regs => take (d.regBytesWrite (a - regAddr 0) pkt.payload)
    | some _ => take (d.putLocalBytes a pkt.payload)
    | none => d.nack pkt 2
  else if d.slotWindow src a n then take (d.putBytes a pkt.payload)
  else if spdmWindowHas src a n then take (if d.flag SEC_STATUS.puf_ok then d.spdmQueue .fabric src pkt.payload else d)
  else d.nack pkt 2

/-- A WRITE to the bay that holds its tag (R292). -/
def Dev.writeTagged (d : Dev) (pkt : Packet) : Dev :=
  match d.bayOfTag pkt.tag.toNat with
  | none => d.nack pkt 1
  | some b =>
    if d.rangeOk b pkt.addr.toNat pkt.payload.length then
      ((d.putBayBytes b pkt.addr.toNat pkt.payload).rxMark pkt).ackDue pkt
    else d.nack pkt 2

/-- WRITE: R293; a write to registers waits at the front while the register path holds all it can (R430). -/
def execWrite (s : State) : Host.Outcome State Fault Refusal :=
  onDev s fun d =>
    let e := d.onPacket opWrite none fun d _ pkt =>
      d.receive pkt fun d => if pkt.tag.toNat = 0 then d.writeUntagged pkt else d.writeTagged pkt
    if 1024 ≤ d.jnl.held.length then d else e

/-! ### READ_REQ (R293, R295) -/

/-- READ_RESP packets with a status and data, of at most 4,096 bytes each: they name their request's number and the address of
their first byte (R285, R293). -/
def Dev.readResp (d : Dev) (pkt : Packet) (status : Nat) (bytes : List Byte) : Dev :=
  (cutPieces bytes.length 4096).foldl (fun d c =>
    let q := d.mkPacket pkt.src.toNat pkt.tc.toNat opReadResp pkt.tag.toNat (pkt.addr.toNat + c.1)
      (packSpec [(24, 4, pkt.seq.toNat)]) ((bytes.drop c.1).take c.2)
    d.sendRouted { q with status := BitVec.ofNat 8 status }) d

/-- Data read, or zeros where an uncorrectable error was met (R295). -/
def Dev.readAnswer (d : Dev) (pkt : Packet) (bad : Bool) (bytes : List Byte) : Dev :=
  if bad then d.readResp pkt 4 (List.replicate bytes.length 0) else d.readResp pkt 0 bytes

/-- A line of local memory that a remote read finds uncorrectable: an HBM line is counted and lasting; of a tile-memory line
the owning bay's step ends as well (R115, R266). -/
def Dev.lineLost (d : Dev) (a : Nat) : Dev :=
  match localKind a with
  | .hbm => d.hbmError a .uncorrectable false
  | .tile => d.tmError ((a - 0x8000000000) / 0xC000000) ((a - 0x8000000000) % 0xC000000 / 64) .uncorrectable
  | _ => d

/-- The same of a bay's address; for an HBM line the reading bay is the other device's. -/
def Dev.remoteLost (d : Dev) (b va : Nat) : Dev :=
  match d.xlate b va with
  | some (.loc a) => d.lineLost a
  | _ => d

/-- A tag-0 READ_REQ (R305). -/
def Dev.readUntagged (d : Dev) (pkt : Packet) (n : Nat) (bad : Bool) : Dev :=
  let src := pkt.src.toNat
  let a := pkt.addr.toNat
  if d.isManager src then
    match d.managerRange a n with
    | some .regs =>
      let (l, d) := d.regBytesRead (a - regAddr 0) n
      d.readResp pkt 0 l
    | some _ =>
      let l := d.localBytes a n
      (if bad then d.lineLost a else d).readAnswer pkt bad l
    | none => d.nack pkt 2
  else if d.refillWindow src a n then
    let l := d.bytes a n
    (if bad then d.hbmError a .uncorrectable false else d).readAnswer pkt bad l
  else d.nack pkt 2

/-- A READ_REQ of the bay that holds its tag (R292). -/
def Dev.readTagged (d : Dev) (pkt : Packet) (n : Nat) (bad : Bool) : Dev :=
  match d.bayOfTag pkt.tag.toNat with
  | none => d.nack pkt 1
  | some b =>
    if d.rangeOk b pkt.addr.toNat n then
      let l := d.bayBytes b pkt.addr.toNat n
      (if bad then d.remoteLost b pkt.addr.toNat else d).readAnswer pkt bad l
    else d.nack pkt 2

/-- A READ_REQ is answered (R293); one of length 0 is a BAD_PACKET (R295). -/
def Dev.readReq (d : Dev) (pkt : Packet) (bad : Bool) : Dev :=
  let n := pktNum pkt 24 4
  if n = 0 then d.nack pkt 3
  else if pkt.tag.toNat = 0 then d.readUntagged pkt n bad
  else d.readTagged pkt n bad

/-- READ_REQ: R293; a duplicate is answered again. -/
def execReadReq (uncorrectable : Bool) (s : State) : Host.Outcome State Fault Refusal :=
  onDev s fun d => d.onPacket opReadReq none fun d _ pkt =>
    match d.rxClass pkt with
    | .fresh => (d.rxMark pkt).readReq pkt uncorrectable
    | .dup => (d.incSat FAB_E2E_STATUS.dup 1).readReq pkt uncorrectable
    | .outside => d

end Sys2Proof.Machine
end

