-- ==== Sys2Proof/Machine/Tick.lean ====
section
/-! DEFINITION. The tick edge: its seven actions in order, the close of the edge set, and room freed in the journal
(spec/02_the_tick.md, R24 to R39; spec/10_bays_contexts_and_scheduling.md, R238 to R245; spec/18_security_and_journal.md,
R430). -/

namespace Sys2Proof.Machine

/-- An action for every bay. -/
def Dev.eachBay (d : Dev) (f : Dev → Nat → Dev) : Dev := (List.range 8).foldl f d

/-! ### Action 1 (R29 to R34, R209, R228, R240) -/

/-- Ages of the contexts of a bay (R240); none advances while SCH restarts (R402). -/
def Dev.ageBay (d : Dev) (b : Nat) : Dev :=
  if !d.schRunning then d
  else (List.range 8).foldl (fun d c => if d.flag (SCH_CTX_CFG.en b c) then d.ageCtx b c else d) d

/-- A tick in which the update gate waited for a snapshot's read counts against the snapshot (R356, R359). -/
def Dev.gateTick (d : Dev) (b : Nat) : Dev :=
  let u := d.fltBay b
  match u.snap with
  | some s =>
    if s.reading && d.get (SCH_BAY_TRAIN.gate b) == 1 then
      d.putFltBay b { u with snap := some { s with gateTicks := s.gateTicks + 1 } }
    else d
  | none => d

/-- The step of a bay is at its end: it ended early, or all its work and its collectives are complete (R197, R209). -/
def Dev.stepOver (d : Dev) (b : Nat) : Bool :=
  match (d.bayU b).step with
  | some r => r.early.isSome || (!r.preempted && d.workDone b && d.colsIdle b)
  | none => false

/-- The edge at which a step's work was found complete is kept while SCH restarts (R402). -/
def Dev.markOver (d : Dev) (b : Nat) : Dev :=
  match (d.bayU b).step with
  | some r =>
    if d.stepOver b && r.workEdge.isNone then d.putBay b { d.bayU b with step := some { r with workEdge := some d.tick } } else d
  | none => d

/-- A step closes: its collectives end, its measured ticks are kept for the cadence, and refill requests that waited for it are
answered (R228, R359, R367). -/
def Dev.closeBay (d : Dev) (b : Nat) : Dev :=
  match (d.bayU b).step with
  | none => d
  | some r =>
    let step := d.step16 b
    let skip := d.get (SCH_BAY_TRAIN.gate b) == 3
    let d := ((d.closeStep b).set (SCH_BAY_RUN.draining b) 0).colStepClose b step skip
    let d := d.putFltBay b { d.fltBay b with measured := (r.measured :: (d.fltBay b).measured).take 16 }
    d.answerAsks b

/-- The bays whose steps close at this edge, in the order in which their work completed. -/
def Dev.closing (d : Dev) : List Nat :=
  if !d.schRunning then []
  else
    let at' (b : Nat) : Nat := match (d.bayU b).step with | some r => r.workEdge.getD d.tick | none => d.tick
    sortBy (fun x y => decide (at' x < at' y) || (at' x == at' y && decide (x ≤ y))) ((List.range 8).filter d.stepOver)

/-- The steps that close with a RUN decision, after which a snapshot may start (R356). -/
def Dev.runClosing (d : Dev) : List Nat :=
  d.closing.filter fun b =>
    d.get (SCH_BAY_TRAIN.gate b) == 2 && (match (d.bayU b).step with | some r => r.early.isNone | none => false)

/-- Action 1 up to the closes: completion checks, slips, windows, ages, collective deadlines. -/
def Dev.action1 (d : Dev) : Dev :=
  let d := (d.eachBay Dev.closeTick).eachBay Dev.agePres
  let d := d.eachBay Dev.ageBay
  let d := d.eachBay Dev.checkOver
  let d := d.rollWindows.eachBay Dev.noteOver
  (d.colEdge.eachBay Dev.gateTick).eachBay Dev.markOver

/-- A pre-empted step that a drop-out has ended closes at the edge after it (R365). -/
def Dev.closePre (d : Dev) (b : Nat) : Dev :=
  (List.range 8).foldl (fun d c =>
    let k := 8 * b + c
    match (d.ctxU k).pre with
    | some r => match r.early with
      | some st =>
        let d := (d.endPre b c st false).colStepClose b (r.no % 65536) false
        ((d.putCtx k { d.ctxU k with saved := none }).set (SCH_CTX_STATE.saved b c) 0).settleCtx k
      | none => d
    | none => d) d

/-- The closes of action 1, and the RESTOREs that waited for them. -/
def Dev.closeBays (d : Dev) : Dev :=
  let d := d.closing.foldl (fun d b => d.closeBay b) d
  d.eachBay fun d b => if d.schRunning then (d.closePre b).restoreBegin b else d

/-! ### Action 2 (R446) -/

/-- The registers that TELEMETRY reports are kept as they stand. -/
def Dev.action2 (d : Dev) : Dev :=
  let d := d.jnlShow
  { d with snap := d.regs, snapTick := d.tick, snapMissing := (List.range 16).filter fun n => !d.ccRunning n }

/-! ### Action 3 (R37, R186, R196, R451) -/

/-- A timing change takes effect at its tick (R37, R38); a follower's is a change of the device's own. -/
def Dev.timingEdge (d : Dev) : Dev :=
  match d.jt.timing with
  | some c =>
    let own := d.flag TCK_STATUS.master
    if d.tick < c.tick || (!own && d.jnlFull) then d
    else
      let w := insField (insField (insField (d.rd TCK_PERIOD.off) 0 14 c.period) 16 6 c.guard) 22 1 c.skew
      let d := { d with jt := { d.jt with timing := none } }
      (((if own then d.wr TCK_PERIOD.off w else d.wrJ 0x50 TCK_PERIOD.off w)).set TCK_EVENT.period_changed 1).checkGuard
  | none => d

/-- An armed joint is due: its edge has come, and a boundary joint's bay is between steps (R196). -/
def Dev.commitIsDue (d : Dev) (a : Armed) : Bool :=
  decide (a.edge ≤ d.tick) && (!jointBoundary a.block a.id || d.boundaryReady a.block a.id)

/-- A commit that an edge found due waits for room in the journal (R430). -/
def Dev.waitsForRoom (d : Dev) (a : Armed) : Dev :=
  { d with jt := { d.jt with armed := d.jt.armed.map fun x =>
      if x.block == a.block && x.id == a.id then { x with waits := true } else x } }

/-- An armed joint that is due commits while the journal has room; a commit of an FLT bay joint starts its binds (R196, R354,
R430). -/
def Dev.commitArmed (d : Dev) (a : Armed) : Dev :=
  match d.armedRec a.block a.id with
  | some x =>
    if !d.commitIsDue x then d
    else if d.jnlFull then d.waitsForRoom x
    else
      let d := d.commitJoint x.block x.id x.token x.origin
      if x.block == 0x3FFF000 && within x.id 0x10 0x18 && d.get (JS.lastResult x.block) == 1 then d.startBinds (x.id - 0x10) else d
  | none => d

/-- Every armed joint that is due. -/
def Dev.commitAll (d : Dev) : Dev := d.jt.armed.foldl (fun d a => d.commitArmed a) d

/-- The raise of a bay commits at its edge (R186); its sisters are bound as its FLT configuration says (R354). -/
def Dev.raiseEdge (d : Dev) (b : Nat) : Dev :=
  match (d.bayU b).raise with
  | some r =>
    if d.schRunning && !d.jnlFull && (match r.commitEdge with | some e => decide (e ≤ d.tick) | none => false) then
      (d.raiseCommit b).startBinds b
    else d
  | none => d

/-- A FROZEN bay thaws at the edge after its thaw was written (R451). -/
def Dev.thawBay (d : Dev) (b : Nat) : Dev :=
  match (d.bayU b).thawEdge with
  | some e =>
    if d.tick < e then d
    else
      let d := d.putBay b { d.bayU b with thawEdge := none, lossSeen := 0 }
      if d.bayState b == bayFrozen then d.sets [(SCH_BAY_STATE.state b, bayRaised), (HIF_BAY_CTL.frozen_by b, 0)] else d
  | none => d

/-- The joint hold of a bay (R198), and what SCH_BAYb_PEND shows. -/
def Dev.jointHold (d : Dev) (b : Nat) : Dev :=
  let mine := d.jt.armed.filter fun a =>
    jointBoundary a.block a.id && d.jointBay a.block a.id == some b && decide (a.edge ≤ d.tick)
  let waited := mine.foldl (fun n a => max n (d.tick - a.edge)) 0
  let t := d.get (SCH_BAY_CFG.joint_hold_ticks b)
  let d := d.sets [(SCH_BAY_PEND.boundary_pending b, (d.bayPending b).toNat), (SCH_BAY_PEND.pending_ticks b, min waited (2 ^ 32 - 1))]
  if d.schRunning then d.set (SCH_BAY_PEND.joint_hold b) (!mine.isEmpty && t != 0 && decide (t ≤ waited)).toNat else d

/-- Action 3: every joint armed in the edge set, the raise commits, the thaws, the timing change; a joint hold ends with its joint's
commit, and begins in time for the actions after (R197, R198). -/
def Dev.action3 (d : Dev) : Dev := (((d.timingEdge.commitAll).eachBay Dev.raiseEdge).eachBay Dev.thawBay).eachBay Dev.jointHold

/-! ### Action 5 (R189, R244, R365) -/

/-- A STRIKE takes effect at its edge; while SCH restarts it waits (R189, R402). -/
def Dev.strikeAt (d : Dev) (b : Nat) : Dev :=
  match (d.bayU b).strikeEdge with
  | some e =>
    if d.schRunning && decide (e ≤ d.tick) && (d.bayState b == bayRaised || d.bayState b == bayFrozen) then
      ((d.leaveAll b false).beginStrike b).fltStrike b
    else d
  | none => d

/-- Action 5: strikes, pre-emption points, drop-outs. -/
def Dev.action5 (d : Dev) : Dev :=
  let d := d.eachBay Dev.strikeAt
  let d := if d.schRunning then d.eachBay fun d b => (d.preemptPoints b).drainEnd b else d
  d.eachBay Dev.dropAtEdge

/-! ### Action 7 (R238, R239, R249, R356, R450) -/

/-- A RAISED bay that has lost every port it is served by freezes once no step of it runs (R450). -/
def Dev.freezeBay (d : Dev) (b : Nat) : Dev :=
  let ports := d.get (HIF_BAY_FUNC.ports b)
  if d.schRunning && d.bayState b == bayRaised && (d.bayU b).step.isNone && ports != 0 &&
      (d.bayU b).lossSeen &&& ports == ports then
    d.sets [(SCH_BAY_STATE.state b, bayFrozen), (HIF_BAY_CTL.frozen_by b, ports), (HIF_EVENT.frozen, 1)]
  else d

/-- SCH may start a step in a bay: the tick is synchronised (R36), no joint hold (R198), the control cores of its AGs run (R402),
it is no refill source and waits for no RESTORE (R367, R445), the device is not fenced (R363), and every unit of the bay has
completed the work of the step before (R124). -/
def Dev.stepMayStart (d : Dev) (b : Nat) : Bool :=
  d.unitsIdle b &&
  d.flag TCK_STATUS.synced && !d.flag (SCH_BAY_PEND.joint_hold b) && (d.bayAgs b).all d.ccRunning &&
    !d.flag (FLT_BAY_STATE.refill_hold b) && (d.fltBay b).refill.isNone && !d.flag FLT_STATUS.fenced

/-- The resident command at the front of a context's ring. -/
def Dev.frontCmd (d : Dev) (k : Nat) : Option Cmd :=
  match (d.ringU k).fetched with
  | c :: _ => if d.ringStarts k && d.isResidentCmd c then some c else none
  | [] => none

/-- A READY context is a candidate: what waits was admitted before the edge set closed, and may go on at this edge (R238). -/
def Dev.ctxMay (d : Dev) (b c : Nat) : Bool :=
  let u := d.ctxU (8 * b + c)
  (match u.waitingSince with | some e => decide (e ≤ d.tick) | none => false) &&
    ((match u.pre with | some r => r.early.isNone | none => false) ||
      match d.frontCmd (8 * b + c) with
      | some cmd => if cmd.op == 3 then d.stepMayStart b else !d.flag (SCH_BAY_PEND.joint_hold b)
      | none => false)

/-- What a context damaged by a save comes to: its pre-empted step, or else its next resident command, ends with INTERNAL
(R249). Its wait goes on, since no step of it starts or resumes (R240). -/
def Dev.endDamaged (d : Dev) (b c : Nat) : Dev :=
  let k := 8 * b + c
  let d := d.set (SCH_CTX_STATE.damaged b c) 0
  let d :=
    match (d.ctxU k).pre with
    | some r =>
      let d := (d.endPre b c stInternal true).colStepClose b (r.no % 65536) false
      (d.putCtx k { d.ctxU k with saved := none }).set (SCH_CTX_STATE.saved b c) 0
    | none => match d.frontCmd k with
      | some cmd => (d.complete cmd stInternal 0).flushBad k 64
      | none => d
  (d.putCtx k { d.ctxU k with waitingSince := none }).settleCtx k

/-- A resident context goes on: its pre-empted step resumes, or its STEP starts or ends without running (R39, R238, R239,
R365). A resident COPY or FILL runs by itself. -/
def Dev.runCtx (d : Dev) (b c : Nat) : Dev :=
  let k := 8 * b + c
  match (d.ctxU k).pre with
  | some r => d.resumeStep b c r
  | none =>
    match d.frontCmd k with
    | some cmd =>
      if cmd.op != 3 then d
      else match d.stepRefusal cmd with
        | some st => (((d.complete cmd st 0).flushBad k 64).putCtx k { d.ctxU k with waitingSince := none }).settleCtx k
        | none => ((d.startStep b c cmd).flushBad k 64).colStepStart b
    | none => d

/-- The chosen context: it runs where it is resident, or where none is; otherwise a switch starts (R235, R238, R247). -/
def Dev.startChosen (d : Dev) (b c : Nat) : Dev :=
  if d.flag (SCH_CTX_STATE.damaged b c) then d.endDamaged b c
  else match d.resident b with
    | some r => if r = c then d.runCtx b c else d.startSwitch b c
    | none => (d.sets [(SCH_BAY_RUN.resident b, c), (SCH_BAY_RUN.resident_valid b, 1)]).runCtx b c

/-- The choice of a bay at action 7 (R238): it goes on until a step runs, a switch is under way or nothing more can be done. -/
def Dev.schEdge (d : Dev) (b : Nat) : Nat → Dev
  | 0 => d
  | n + 1 =>
    if d.bayState b != bayRaised || (d.bayU b).step.isSome || !d.schRunning then d
    else match (d.bayU b).switch with
      | some sw =>
        match sw.doneEdge with
        | some e =>
          if d.tick < e then d
          else
            let d := d.putBay b { d.bayU b with switch := none }
            if d.get (SCH_CTX_STATE.state b sw.inn) == 2 && d.ctxMay b sw.inn then d.startChosen b sw.inn else d.schEdge b n
        | none => d
      | none =>
        match d.chooseCtx b (d.ctxMay b) with
        | some c => (d.startChosen b c).schEdge b n
        | none => d

/-- A drain has ended: the context that became urgent is chosen at once, so the switch to it starts there (R241, and the
example after R249); a resumption in place waits for action 7 (R239). -/
def Dev.chooseAfterDrain (d : Dev) (b : Nat) : Dev :=
  if d.bayState b != bayRaised || (d.bayU b).step.isSome || !d.schRunning || (d.bayU b).switch.isSome then d
  else match d.chooseCtx b (d.ctxMay b) with
    | some c => if d.resident b == some c || d.flag (SCH_CTX_STATE.damaged b c) then d else d.startChosen b c
    | none => d

/-- The end of a drain, when the work in flight has completed. -/
def Dev.preemptDrainEnd (d : Dev) (b : Nat) : Dev :=
  match (d.bayU b).step with
  | some r =>
    let e := d.drainEnd b
    if (e.bayU b).step.isNone && e.get (SCH_CTX_STATE.state b r.ctx) == 2 then e.chooseAfterDrain b else e
  | none => d

/-- PREEMPT_DRAIN_END: R244. -/
def execPreemptDrainEnd (bay : BayId) (s : State) : Host.Outcome State Fault Refusal :=
  onDev s fun d => d.preemptDrainEnd bay.val

/-- Action 7: freezing, snapshots after the steps that closed with RUN, and the choice of every bay. -/
def Dev.action7 (d : Dev) (ran : List Nat) : Dev :=
  let d := d.eachBay Dev.freezeBay
  let d := ran.foldl (fun d b => d.snapStart b) d
  d.eachBay fun d b => d.schEdge b 9

/-! ### The start of the tick -/

/-- The tick pegs of a running step are to be incremented once (R120); an increment of the edge before is made first. -/
def Dev.tickPegs (d : Dev) (b : Nat) : Dev :=
  match d.liveStep b with
  | some r =>
    if r.startTick < d.tick then
      (d.bayAgs b).foldl (fun d g =>
        let d := d.tickPegIncrement g
        d.putAg g { d.agU g with pegDue := true }) d
    else d
  | none => d

/-- What a tick begins with, after the seven actions. -/
def Dev.beginTick (d : Dev) : Dev :=
  let d := d.eachBay fun d b => if (d.liveStep b).isSome then d.noteInputs b else d
  let d := d.eachBay Dev.tickPegs
  let d := (d.jt.armed.map (·.block)).foldl (fun d blk => d.refreshArmed blk) d
  d.eachBay Dev.jointHold

/-! ### The commands -/

/-- The next edge: the tick number rises by one, and the edge set of the edge after it is open. Past 2^48 - 1, where the device
defines no wrap (R24), the model's count returns to 0 (log entry 155). -/
def Dev.nextTick (d : Dev) : Dev :=
  let d := d.setTime (max d.clk.timeNs d.clk.nextEdgeNs)
  ({ d with clk := { d.clk with setClosed := false } } : Dev).incWrap TCK_TICK.tick 1

/-- The edge after this one lies one period on. -/
def Dev.setNextEdge (d : Dev) : Dev :=
  { d with clk := { d.clk with nextEdgeNs := d.clk.nextEdgeNs + 1000 * d.get TCK_PERIOD.period_us } }

/-- The seven actions of an edge, in order (R26). -/
def Dev.edgeActions (d : Dev) : Dev :=
  let d := d.action1
  let ran := d.runClosing
  let d := d.closeBays.action2.action3.pwrEdge.action5
  (d.eachBay Dev.issueScheduled).action7 ran

/-- TICK_EDGE (R26): the seven actions; a waiting correction of time is made where no step runs (R36); then the tick begins. -/
def Dev.tickEdge (d : Dev) : Dev :=
  if !d.boot.released then d
  else
    let d := d.nextTick.edgeActions.setNextEdge
    let d := d.beginTick.jumpAtEdge.fwAdvance
    ((List.range 19).foldl (fun d c => d.showRecent c) d).warmCheck

/-- TICK_EDGE: R26. -/
def execTickEdge (s : State) : Host.Outcome State Fault Refusal := onDev s Dev.tickEdge

/-- The edge set of the next edge closes 250 ns before it (R26). -/
def Dev.closeSet (d : Dev) : Dev :=
  if !d.boot.released then d
  else
    let d := d.setTime (max d.clk.timeNs (d.clk.nextEdgeNs - 250))
    { d with clk := { d.clk with setClosed := true } }

/-- EDGE_SET_CLOSE: R26. -/
def execEdgeSetClose (s : State) : Host.Outcome State Fault Refusal := onDev s Dev.closeSet

/-- The joint commits that waited at an edge for room take effect, those of a boundary joint if its bay is still between steps
(R27, R196, R430). -/
def Dev.commitWaiting (d : Dev) : Dev := (d.jt.armed.filter (·.waits)).foldl (fun d a => d.commitArmed a) d

/-- Room has been freed in the journal: queued events, joint commits that waited at an edge, held writes and the firmware that
stalled follow (R430). -/
def Dev.roomFreed (d : Dev) : Dev :=
  let d := (d.drainEvents d.jnl.queued.length).commitWaiting
  let d := d.drainWrites d.jnl.held.length
  (if d.jnlFull then d else d.secResume.fwAdvance).jnlShow

/-- JOURNAL_ROOM_FREED: R430. -/
def execJournalRoomFreed (s : State) : Host.Outcome State Fault Refusal := onDev s Dev.roomFreed

end Sys2Proof.Machine
end

