-- ==== Sys2Proof/Machine/Dispatch.lean ====
section
/-! DEFINITION. One arm per command: a direct call of its meaning, or its refusal by name. -/

namespace Sys2Proof.Machine

def exec (i : Instr) (s : State) : Host.Outcome State Fault Refusal :=
  match i with
  | .registerWrite via off size value => Sys2Proof.Machine.execRegisterWrite via off size value s
  | .arm via block joint token => Sys2Proof.Machine.execArm via block joint token s
  | .disarm via block joint token => Sys2Proof.Machine.execDisarm via block joint token s
  | .jointRevert via block joint token => Sys2Proof.Machine.execJointRevert via block joint token s
  | .pegAdd via ag peg amount => Sys2Proof.Machine.execPegAdd via ag peg amount s
  | .domainRequest via dom req => Sys2Proof.Machine.execDomainRequest via dom req s
  | .prethawTarget via watts => Sys2Proof.Machine.execPrethawTarget via watts s
  | .bayThaw via bay => Sys2Proof.Machine.execBayThaw via bay s
  | .ringEnable via ring => Sys2Proof.Machine.execRingEnable via ring s
  | .ringDisable via ring => Sys2Proof.Machine.execRingDisable via ring s
  | .sqTailDoorbell port func ring index => Sys2Proof.Machine.execSqTailDoorbell port func ring index s
  | .cqHeadDoorbell port func ring index => Sys2Proof.Machine.execCqHeadDoorbell port func ring index s
  | .commandFetch ring fails => Sys2Proof.Machine.execCommandFetch ring fails s
  | .msixCoalesceTimeout ring => Sys2Proof.Machine.execMsixCoalesceTimeout ring s
  | .nop ring => Sys2Proof.Machine.execNop ring s
  | .raise ring => Sys2Proof.Machine.execRaise ring s
  | .strike ring => Sys2Proof.Machine.execStrike ring s
  | .step ring => Sys2Proof.Machine.execStep ring s
  | .copy ring => Sys2Proof.Machine.execCopy ring s
  | .fill ring => Sys2Proof.Machine.execFill ring s
  | .snapshot ring => Sys2Proof.Machine.execSnapshot ring s
  | .restore ring => Sys2Proof.Machine.execRestore ring s
  | .fence ring => Sys2Proof.Machine.execFence ring s
  | .query ring => Sys2Proof.Machine.execQuery ring s
  | .preempt ring => Sys2Proof.Machine.execPreempt ring s
  | .resume ring => Sys2Proof.Machine.execResume ring s
  | .telemetry ring => Sys2Proof.Machine.execTelemetry ring s
  | .raiseStagingDone bay readable => Sys2Proof.Machine.execRaiseStagingDone bay readable s
  | .raiseVerificationDone bay => Sys2Proof.Machine.execRaiseVerificationDone bay s
  | .raiseContentCheckDone bay => Sys2Proof.Machine.execRaiseContentCheckDone bay s
  | .raiseReservationDone bay => Sys2Proof.Machine.execRaiseReservationDone bay s
  | .raiseLoadDone bay lost => Sys2Proof.Machine.execRaiseLoadDone bay lost s
  | .raiseThawTimeout bay => Sys2Proof.Machine.execRaiseThawTimeout bay s
  | .strikeRelease bay => Sys2Proof.Machine.execStrikeRelease bay s
  | .strikeScrubDone bay => Sys2Proof.Machine.execStrikeScrubDone bay s
  | .hbmPageZeroed unit => Sys2Proof.Machine.execHbmPageZeroed unit s
  | .edgeSetClose => Sys2Proof.Machine.execEdgeSetClose s
  | .tickEdge => Sys2Proof.Machine.execTickEdge s
  | .tickPegIncrement ag => Sys2Proof.Machine.execTickPegIncrement ag s
  | .wsGemm arr cycle stall => Sys2Proof.Machine.execWsGemm arr cycle stall s
  | .osGemm arr cycle stall => Sys2Proof.Machine.execOsGemm arr cycle stall s
  | .wload arr cycle stall => Sys2Proof.Machine.execWload arr cycle stall s
  | .drain arr cycle stall => Sys2Proof.Machine.execDrain arr cycle stall s
  | .passComplete arr => Sys2Proof.Machine.execPassComplete arr s
  | .arrayStartGrant ag cycle => Sys2Proof.Machine.execArrayStartGrant ag cycle s
  | .stagingComplete arr isB fin => Sys2Proof.Machine.execStagingComplete arr isB fin s
  | .drainRowEnqueue arr waited => Sys2Proof.Machine.execDrainRowEnqueue arr waited s
  | .locateTest arr => Sys2Proof.Machine.execLocateTest arr s
  | .locateTestDone arr faults => Sys2Proof.Machine.execLocateTestDone arr faults s
  | .pegForwardLand src dst => Sys2Proof.Machine.execPegForwardLand src dst s
  | .tmPatrol ag line finding => Sys2Proof.Machine.execTmPatrol ag line finding s
  | .tmLineRetire ag line => Sys2Proof.Machine.execTmLineRetire ag line s
  | .dmaCopy eng lost => Sys2Proof.Machine.execDmaCopy eng lost s
  | .dmaFill eng => Sys2Proof.Machine.execDmaFill eng s
  | .dmaComplete eng fin => Sys2Proof.Machine.execDmaComplete eng fin s
  | .programCopyDone slice => Sys2Proof.Machine.execProgramCopyDone slice s
  | .vNop slice stall => Sys2Proof.Machine.execVNop slice stall s
  | .vAdd slice stall => Sys2Proof.Machine.execVAdd slice stall s
  | .vSub slice stall => Sys2Proof.Machine.execVSub slice stall s
  | .vMul slice stall => Sys2Proof.Machine.execVMul slice stall s
  | .vFma slice stall => Sys2Proof.Machine.execVFma slice stall s
  | .vFnma slice stall => Sys2Proof.Machine.execVFnma slice stall s
  | .vDiv slice stall => Sys2Proof.Machine.execVDiv slice stall s
  | .vSqrt slice stall => Sys2Proof.Machine.execVSqrt slice stall s
  | .vMin slice stall => Sys2Proof.Machine.execVMin slice stall s
  | .vMax slice stall => Sys2Proof.Machine.execVMax slice stall s
  | .vMinn slice stall => Sys2Proof.Machine.execVMinn slice stall s
  | .vMaxn slice stall => Sys2Proof.Machine.execVMaxn slice stall s
  | .vAbs slice stall => Sys2Proof.Machine.execVAbs slice stall s
  | .vNeg slice stall => Sys2Proof.Machine.execVNeg slice stall s
  | .vRint slice stall => Sys2Proof.Machine.execVRint slice stall s
  | .vAnd slice stall => Sys2Proof.Machine.execVAnd slice stall s
  | .vOr slice stall => Sys2Proof.Machine.execVOr slice stall s
  | .vXor slice stall => Sys2Proof.Machine.execVXor slice stall s
  | .vShl slice stall => Sys2Proof.Machine.execVShl slice stall s
  | .vShr slice stall => Sys2Proof.Machine.execVShr slice stall s
  | .vShrl slice stall => Sys2Proof.Machine.execVShrl slice stall s
  | .vCmp slice stall => Sys2Proof.Machine.execVCmp slice stall s
  | .vSel slice stall => Sys2Proof.Machine.execVSel slice stall s
  | .vPset slice stall => Sys2Proof.Machine.execVPset slice stall s
  | .vPlog slice stall => Sys2Proof.Machine.execVPlog slice stall s
  | .vExp slice stall => Sys2Proof.Machine.execVExp slice stall s
  | .vLog slice stall => Sys2Proof.Machine.execVLog slice stall s
  | .vRsqrt slice stall => Sys2Proof.Machine.execVRsqrt slice stall s
  | .vSigm slice stall => Sys2Proof.Machine.execVSigm slice stall s
  | .vTanh slice stall => Sys2Proof.Machine.execVTanh slice stall s
  | .vSilu slice stall => Sys2Proof.Machine.execVSilu slice stall s
  | .vGelu slice stall => Sys2Proof.Machine.execVGelu slice stall s
  | .vCvt slice stall => Sys2Proof.Machine.execVCvt slice stall s
  | .vRsum slice stall => Sys2Proof.Machine.execVRsum slice stall s
  | .vRmax slice stall => Sys2Proof.Machine.execVRmax slice stall s
  | .vRmin slice stall => Sys2Proof.Machine.execVRmin slice stall s
  | .vPerm slice stall => Sys2Proof.Machine.execVPerm slice stall s
  | .vShuf slice stall => Sys2Proof.Machine.execVShuf slice stall s
  | .vPack slice stall => Sys2Proof.Machine.execVPack slice stall s
  | .vUnpk slice stall => Sys2Proof.Machine.execVUnpk slice stall s
  | .vBcast slice stall => Sys2Proof.Machine.execVBcast slice stall s
  | .vMovs slice stall => Sys2Proof.Machine.execVMovs slice stall s
  | .vMovv slice stall => Sys2Proof.Machine.execVMovv slice stall s
  | .vVld slice stall => Sys2Proof.Machine.execVVld slice stall s
  | .vVst slice stall => Sys2Proof.Machine.execVVst slice stall s
  | .vVldc slice stall => Sys2Proof.Machine.execVVldc slice stall s
  | .vVstc slice stall => Sys2Proof.Machine.execVVstc slice stall s
  | .vVstb slice stall => Sys2Proof.Machine.execVVstb slice stall s
  | .vGath slice stall => Sys2Proof.Machine.execVGath slice stall s
  | .vScat slice stall => Sys2Proof.Machine.execVScat slice stall s
  | .vScta slice stall => Sys2Proof.Machine.execVScta slice stall s
  | .vVrecv slice stall => Sys2Proof.Machine.execVVrecv slice stall s
  | .vSli slice stall => Sys2Proof.Machine.execVSli slice stall s
  | .vSlih slice stall => Sys2Proof.Machine.execVSlih slice stall s
  | .vSadd slice stall => Sys2Proof.Machine.execVSadd slice stall s
  | .vSmul slice stall => Sys2Proof.Machine.execVSmul slice stall s
  | .vSand slice stall => Sys2Proof.Machine.execVSand slice stall s
  | .vSshl slice stall => Sys2Proof.Machine.execVSshl slice stall s
  | .vSshr slice stall => Sys2Proof.Machine.execVSshr slice stall s
  | .vSrd slice stall => Sys2Proof.Machine.execVSrd slice stall s
  | .vBne slice stall => Sys2Proof.Machine.execVBne slice stall s
  | .vBlt slice stall => Sys2Proof.Machine.execVBlt slice stall s
  | .vWait slice stall => Sys2Proof.Machine.execVWait slice stall s
  | .vInc slice stall => Sys2Proof.Machine.execVInc slice stall s
  | .vFence slice stall => Sys2Proof.Machine.execVFence slice stall s
  | .vEnd slice stall => Sys2Proof.Machine.execVEnd slice stall s
  | .gateDecision bay => Sys2Proof.Machine.execGateDecision bay s
  | .preemptDrainEnd bay => Sys2Proof.Machine.execPreemptDrainEnd bay s
  | .contextSaveDone bay us lost => Sys2Proof.Machine.execContextSaveDone bay us lost s
  | .contextRestoreDone bay us => Sys2Proof.Machine.execContextRestoreDone bay us s
  | .hbmPatrol addr finding => Sys2Proof.Machine.execHbmPatrol addr finding s
  | .hbmTemperatureRead temps => Sys2Proof.Machine.execHbmTemperatureRead temps s
  | .hbmRowRepair addr => Sys2Proof.Machine.execHbmRowRepair addr s
  | .portSignalDetect port lanes => Sys2Proof.Machine.execPortSignalDetect port lanes s
  | .linkTrainingDone port => Sys2Proof.Machine.execLinkTrainingDone port s
  | .trainTimeout port => Sys2Proof.Machine.execTrainTimeout port s
  | .alignDone port => Sys2Proof.Machine.execAlignDone port s
  | .alignTimeout port => Sys2Proof.Machine.execAlignTimeout port s
  | .initFlits port counts => Sys2Proof.Machine.execInitFlits port counts s
  | .handshake port record => Sys2Proof.Machine.execHandshake port record s
  | .handshakeResend port => Sys2Proof.Machine.execHandshakeResend port s
  | .ackCredit port seq counts shared rtt => Sys2Proof.Machine.execAckCredit port seq counts shared rtt s
  | .ackCreditTimer port => Sys2Proof.Machine.execAckCreditTimer port s
  | .nak port seq => Sys2Proof.Machine.execNak port seq s
  | .retrain port fecLost => Sys2Proof.Machine.execRetrain port fecLost s
  | .heartbeat port device count => Sys2Proof.Machine.execHeartbeat port device count s
  | .heartbeatSend port => Sys2Proof.Machine.execHeartbeatSend port s
  | .peerDead port peer => Sys2Proof.Machine.execPeerDead port peer s
  | .retire port code lane => Sys2Proof.Machine.execRetire port code lane s
  | .retireRequestTimeout port => Sys2Proof.Machine.execRetireRequestTimeout port s
  | .withdrawDrained port => Sys2Proof.Machine.execWithdrawDrained port s
  | .laneRetire port lane => Sys2Proof.Machine.execLaneRetire port lane s
  | .fecRateSecond port corrected uncorrected => Sys2Proof.Machine.execFecRateSecond port corrected uncorrected s
  | .portEnable via port => Sys2Proof.Machine.execPortEnable via port s
  | .portDisable via port => Sys2Proof.Machine.execPortDisable via port s
  | .pfcPause port mask on => Sys2Proof.Machine.execPfcPause port mask on s
  | .packetReceive port unit pkt fault => Sys2Proof.Machine.execPacketReceive port unit pkt fault s
  | .write => Sys2Proof.Machine.execWrite s
  | .readReq uncorrectable => Sys2Proof.Machine.execReadReq uncorrectable s
  | .readResp => Sys2Proof.Machine.execReadResp s
  | .e2eAck => Sys2Proof.Machine.execE2eAck s
  | .e2eNack => Sys2Proof.Machine.execE2eNack s
  | .e2eAckCoalesce src tc => Sys2Proof.Machine.execE2eAckCoalesce src tc s
  | .e2eTimeout dst tc seq => Sys2Proof.Machine.execE2eTimeout dst tc seq s
  | .announce => Sys2Proof.Machine.execAnnounce s
  | .announceSend => Sys2Proof.Machine.execAnnounceSend s
  | .announceAgeOut => Sys2Proof.Machine.execAnnounceAgeOut s
  | .syncMeasure => Sys2Proof.Machine.execSyncMeasure s
  | .syncReq t2 t3 => Sys2Proof.Machine.execSyncReq t2 t3 s
  | .syncResp t4 => Sys2Proof.Machine.execSyncResp t4 s
  | .syncMsg port t1 corr t2 => Sys2Proof.Machine.execSyncMsg port t1 corr t2 s
  | .delayReq port req => Sys2Proof.Machine.execDelayReq port req s
  | .delayResp port t4 corr => Sys2Proof.Machine.execDelayResp port t4 corr s
  | .ppsPulse => Sys2Proof.Machine.execPpsPulse s
  | .discover => Sys2Proof.Machine.execDiscover s
  | .discoverReply => Sys2Proof.Machine.execDiscoverReply s
  | .discoverReplyDelay => Sys2Proof.Machine.execDiscoverReplyDelay s
  | .assign => Sys2Proof.Machine.execAssign s
  | .heartbeatControl => Sys2Proof.Machine.execHeartbeatControl s
  | .reduceScatter bay tbl => Sys2Proof.Machine.execReduceScatter bay tbl s
  | .allGather bay tbl => Sys2Proof.Machine.execAllGather bay tbl s
  | .allReduce bay tbl => Sys2Proof.Machine.execAllReduce bay tbl s
  | .allToAll bay tbl => Sys2Proof.Machine.execAllToAll bay tbl s
  | .collective => Sys2Proof.Machine.execCollective s
  | .collectiveComplete bay tbl => Sys2Proof.Machine.execCollectiveComplete bay tbl s
  | .leave => Sys2Proof.Machine.execLeave s
  | .faultNotice => Sys2Proof.Machine.execFaultNotice s
  | .faultResendTimer => Sys2Proof.Machine.execFaultResendTimer s
  | .sisterBind => Sys2Proof.Machine.execSisterBind s
  | .sisterReply => Sys2Proof.Machine.execSisterReply s
  | .sisterBindRetry bay sister => Sys2Proof.Machine.execSisterBindRetry bay sister s
  | .snapshotReadDone bay => Sys2Proof.Machine.execSnapshotReadDone bay s
  | .snapCommit => Sys2Proof.Machine.execSnapCommit s
  | .refillReq => Sys2Proof.Machine.execRefillReq s
  | .refillReply => Sys2Proof.Machine.execRefillReply s
  | .deadClr via dev => Sys2Proof.Machine.execDeadClr via dev s
  | .unfence via => Sys2Proof.Machine.execUnfence via s
  | .clearDropped via bay => Sys2Proof.Machine.execClearDropped via bay s
  | .governorInterval raw => Sys2Proof.Machine.execGovernorInterval raw s
  | .calibrationRead measured status => Sys2Proof.Machine.execCalibrationRead measured status s
  | .calibrationTimeout => Sys2Proof.Machine.execCalibrationTimeout s
  | .powerModeExit => Sys2Proof.Machine.execPowerModeExit s
  | .pmbAlert status => Sys2Proof.Machine.execPmbAlert status s
  | .junctionSample temps => Sys2Proof.Machine.execJunctionSample temps s
  | .thermalModeExit => Sys2Proof.Machine.execThermalModeExit s
  | .thermalTrip => Sys2Proof.Machine.execThermalTrip s
  | .railUndervoltage rail deep => Sys2Proof.Machine.execRailUndervoltage rail deep s
  | .clockStateConfirm confirmed => Sys2Proof.Machine.execClockStateConfirm confirmed s
  | .domainTransitionDone dom => Sys2Proof.Machine.execDomainTransitionDone dom s
  | .tokenWindow => Sys2Proof.Machine.execTokenWindow s
  | .coordAnnounce => Sys2Proof.Machine.execCoordAnnounce s
  | .coordAnnounceSend => Sys2Proof.Machine.execCoordAnnounceSend s
  | .coordinatorLost => Sys2Proof.Machine.execCoordinatorLost s
  | .tokenReq => Sys2Proof.Machine.execTokenReq s
  | .tokenGrant => Sys2Proof.Machine.execTokenGrant s
  | .watchdog core => Sys2Proof.Machine.execWatchdog core s
  | .fatalTrap core => Sys2Proof.Machine.execFatalTrap core s
  | .coreMemoryError err => Sys2Proof.Machine.execCoreMemoryError err s
  | .coreRestartDone core us => Sys2Proof.Machine.execCoreRestartDone core us s
  | .stage via => Sys2Proof.Machine.execStage via s
  | .stageDone programmed => Sys2Proof.Machine.execStageDone programmed s
  | .activate via mask => Sys2Proof.Machine.execActivate via mask s
  | .cancel via => Sys2Proof.Machine.execCancel via s
  | .restart via mask => Sys2Proof.Machine.execRestart via mask s
  | .revert via mask => Sys2Proof.Machine.execRevert via mask s
  | .installKeyPackage via => Sys2Proof.Machine.execInstallKeyPackage via s
  | .presentOwnerRecord via => Sys2Proof.Machine.execPresentOwnerRecord via s
  | .sealNow via => Sys2Proof.Machine.execSealNow via s
  | .seal => Sys2Proof.Machine.execSeal s
  | .journalRoomFreed => Sys2Proof.Machine.execJournalRoomFreed s
  | .exportEnable via => Sys2Proof.Machine.execExportEnable via s
  | .exportPoll readable => Sys2Proof.Machine.execExportPoll readable s
  | .spdmRequest path requester msg => Sys2Proof.Machine.execSpdmRequest path requester msg s
  | .ideFail port stream => Sys2Proof.Machine.execIdeFail port stream s
  | .linkUp port width rate flit => Sys2Proof.Machine.execLinkUp port width rate flit s
  | .hostLoss port cause => Sys2Proof.Machine.execHostLoss port cause s
  | .vfFlr port vf => Sys2Proof.Machine.execVfFlr port vf s
  | .tdiError port vf => Sys2Proof.Machine.execTdiError port vf s
  | .atsInvalidation port func base len mapped => Sys2Proof.Machine.execAtsInvalidation port func base len mapped s
  | .macEnable via => Sys2Proof.Machine.execMacEnable via s
  | .macDisable via => Sys2Proof.Machine.execMacDisable via s
  | .frameReceive frame bad => Sys2Proof.Machine.execFrameReceive frame bad s
  | .frameTransmit collides => Sys2Proof.Machine.execFrameTransmit collides s
  | .collision late => Sys2Proof.Machine.execCollision late s
  | .backoffExpiry => Sys2Proof.Machine.execBackoffExpiry s
  | .beaconLost => Sys2Proof.Machine.execBeaconLost s
  | .regRead => Sys2Proof.Machine.execRegRead s
  | .regWrite => Sys2Proof.Machine.execRegWrite s
  | .stageData => Sys2Proof.Machine.execStageData s
  | .powerOnReset => Sys2Proof.Machine.execPowerOnReset s
  | .aoRelease feed slot mode refA => Sys2Proof.Machine.execAoRelease feed slot mode refA s
  | .aclkLockTimeout => Sys2Proof.Machine.execAclkLockTimeout s
  | .startupStepComplete aclk verified cause holdMax => Sys2Proof.Machine.execStartupStepComplete aclk verified cause holdMax s
  | .hbmTrainingDone trained attempts codes => Sys2Proof.Machine.execHbmTrainingDone trained attempts codes s
  | .wrstNAssert => Sys2Proof.Machine.execWrstNAssert s
  | .warmReset via key => Sys2Proof.Machine.execWarmReset via key s
  | .ppsAbsent => Sys2Proof.Machine.execPpsAbsent s
  | .plcaBeacon => Sys2Proof.Machine.execPlcaBeacon s
  | .perstNDeassert port => Sys2Proof.Machine.execPerstNDeassert port s
  | .i3cPageRefresh => Sys2Proof.Machine.execI3cPageRefresh s
  | .i3cDynamicAddress addr => Sys2Proof.Machine.execI3cDynamicAddress addr s

end Sys2Proof.Machine
end

