-- ==== Sys2Proof/Machine/Step.lean ====
section
/-! DEFINITION. One step: the command at the front of the queue is taken and run; an empty queue lets one nanosecond pass. -/

namespace Sys2Proof.Machine

/-- The state with the front command removed from the queue. -/
def State.popped (s : State) (rest : List Instr) : State := { s with pending := rest }

/-- One step of the block. -/
def step (s : State) : Host.Outcome State Fault Refusal :=
  match s.pending with
  | [] => .next (Sys2Proof.Machine.idle s)
  | c :: rest => Sys2Proof.Machine.exec c (s.popped rest)

/-- The state with the command that a table word spells put at the front of the queue; the table gives no row bits, so no
word spells one. -/
def State.withFetchWord (s : State) (nbits w : Nat) : State :=
  match Sys2Proof.decodeTableWord nbits w with
  | some c => { s with pending := c :: s.pending }
  | none => s

end Sys2Proof.Machine
end

