-- ==== Sys2Proof/WellFormed.lean ====
section
/-! DEFINITION. Well-formed commands: operands that the command can carry at all. Values that the spec refuses are not
ill-formed: refusing them is the command's effect. -/

namespace Sys2Proof

/-- A command whose operands exist: a register write of 1 to 8 bytes (R3), a line of a 192 MiB slice (R108), a payload of at
most 4,096 bytes (R285), a fabric SPDM message that fits its window (R422), a lane of a port or the code for a whole port
(R301). -/
def Instr.wellFormed : Instr → Bool
  | .registerWrite _ _ size _ => decide (1 ≤ size) && decide (size ≤ 8)
  | .arm _ _ _ _ => true
  | .disarm _ _ _ _ => true
  | .jointRevert _ _ _ _ => true
  | .pegAdd _ _ _ _ => true
  | .domainRequest _ _ _ => true
  | .prethawTarget _ _ => true
  | .bayThaw _ _ => true
  | .ringEnable _ _ => true
  | .ringDisable _ _ => true
  | .sqTailDoorbell _ _ _ _ => true
  | .cqHeadDoorbell _ _ _ _ => true
  | .commandFetch _ _ => true
  | .msixCoalesceTimeout _ => true
  | .nop _ => true
  | .raise _ => true
  | .strike _ => true
  | .step _ => true
  | .copy _ => true
  | .fill _ => true
  | .snapshot _ => true
  | .restore _ => true
  | .fence _ => true
  | .query _ => true
  | .preempt _ => true
  | .resume _ => true
  | .telemetry _ => true
  | .raiseStagingDone _ _ => true
  | .raiseVerificationDone _ => true
  | .raiseContentCheckDone _ => true
  | .raiseReservationDone _ => true
  | .raiseLoadDone _ _ => true
  | .raiseThawTimeout _ => true
  | .strikeRelease _ => true
  | .strikeScrubDone _ => true
  | .hbmPageZeroed _ => true
  | .edgeSetClose => true
  | .tickEdge => true
  | .tickPegIncrement _ => true
  | .wsGemm _ _ _ => true
  | .osGemm _ _ _ => true
  | .wload _ _ _ => true
  | .drain _ _ _ => true
  | .passComplete _ => true
  | .arrayStartGrant _ _ => true
  | .stagingComplete _ _ _ => true
  | .drainRowEnqueue _ _ => true
  | .locateTest _ => true
  | .locateTestDone _ _ => true
  | .pegForwardLand _ _ => true
  | .tmPatrol _ line _ => decide (line.toNat < 3145728)
  | .tmLineRetire _ line => decide (line.toNat < 3145728)
  | .dmaCopy _ _ => true
  | .dmaFill _ => true
  | .dmaComplete _ _ => true
  | .programCopyDone _ => true
  | .vNop _ _ => true
  | .vAdd _ _ => true
  | .vSub _ _ => true
  | .vMul _ _ => true
  | .vFma _ _ => true
  | .vFnma _ _ => true
  | .vDiv _ _ => true
  | .vSqrt _ _ => true
  | .vMin _ _ => true
  | .vMax _ _ => true
  | .vMinn _ _ => true
  | .vMaxn _ _ => true
  | .vAbs _ _ => true
  | .vNeg _ _ => true
  | .vRint _ _ => true
  | .vAnd _ _ => true
  | .vOr _ _ => true
  | .vXor _ _ => true
  | .vShl _ _ => true
  | .vShr _ _ => true
  | .vShrl _ _ => true
  | .vCmp _ _ => true
  | .vSel _ _ => true
  | .vPset _ _ => true
  | .vPlog _ _ => true
  | .vExp _ _ => true
  | .vLog _ _ => true
  | .vRsqrt _ _ => true
  | .vSigm _ _ => true
  | .vTanh _ _ => true
  | .vSilu _ _ => true
  | .vGelu _ _ => true
  | .vCvt _ _ => true
  | .vRsum _ _ => true
  | .vRmax _ _ => true
  | .vRmin _ _ => true
  | .vPerm _ _ => true
  | .vShuf _ _ => true
  | .vPack _ _ => true
  | .vUnpk _ _ => true
  | .vBcast _ _ => true
  | .vMovs _ _ => true
  | .vMovv _ _ => true
  | .vVld _ _ => true
  | .vVst _ _ => true
  | .vVldc _ _ => true
  | .vVstc _ _ => true
  | .vVstb _ _ => true
  | .vGath _ _ => true
  | .vScat _ _ => true
  | .vScta _ _ => true
  | .vVrecv _ _ => true
  | .vSli _ _ => true
  | .vSlih _ _ => true
  | .vSadd _ _ => true
  | .vSmul _ _ => true
  | .vSand _ _ => true
  | .vSshl _ _ => true
  | .vSshr _ _ => true
  | .vSrd _ _ => true
  | .vBne _ _ => true
  | .vBlt _ _ => true
  | .vWait _ _ => true
  | .vInc _ _ => true
  | .vFence _ _ => true
  | .vEnd _ _ => true
  | .gateDecision _ => true
  | .preemptDrainEnd _ => true
  | .contextSaveDone _ _ _ => true
  | .contextRestoreDone _ _ => true
  | .hbmPatrol _ _ => true
  | .hbmTemperatureRead _ => true
  | .hbmRowRepair _ => true
  | .portSignalDetect _ _ => true
  | .linkTrainingDone _ => true
  | .trainTimeout _ => true
  | .alignDone _ => true
  | .alignTimeout _ => true
  | .initFlits _ _ => true
  | .handshake _ _ => true
  | .handshakeResend _ => true
  | .ackCredit _ _ _ _ _ => true
  | .ackCreditTimer _ => true
  | .nak _ _ => true
  | .retrain _ _ => true
  | .heartbeat _ _ _ => true
  | .heartbeatSend _ => true
  | .peerDead _ _ => true
  | .retire _ _ lane => decide (lane.toNat < 8) || lane == 0xFF
  | .retireRequestTimeout _ => true
  | .withdrawDrained _ => true
  | .laneRetire _ _ => true
  | .fecRateSecond _ _ _ => true
  | .portEnable _ _ => true
  | .portDisable _ _ => true
  | .pfcPause _ _ _ => true
  | .packetReceive _ _ pkt _ => decide (pkt.payload.length ≤ 4096)
  | .write => true
  | .readReq _ => true
  | .readResp => true
  | .e2eAck => true
  | .e2eNack => true
  | .e2eAckCoalesce _ _ => true
  | .e2eTimeout _ _ _ => true
  | .announce => true
  | .announceSend => true
  | .announceAgeOut => true
  | .syncMeasure => true
  | .syncReq _ _ => true
  | .syncResp _ => true
  | .syncMsg _ _ _ _ => true
  | .delayReq _ _ => true
  | .delayResp _ _ _ => true
  | .ppsPulse => true
  | .discover => true
  | .discoverReply => true
  | .discoverReplyDelay => true
  | .assign => true
  | .heartbeatControl => true
  | .reduceScatter _ _ => true
  | .allGather _ _ => true
  | .allReduce _ _ => true
  | .allToAll _ _ => true
  | .collective => true
  | .collectiveComplete _ _ => true
  | .leave => true
  | .faultNotice => true
  | .faultResendTimer => true
  | .sisterBind => true
  | .sisterReply => true
  | .sisterBindRetry _ _ => true
  | .snapshotReadDone _ => true
  | .snapCommit => true
  | .refillReq => true
  | .refillReply => true
  | .deadClr _ _ => true
  | .unfence _ => true
  | .clearDropped _ _ => true
  | .governorInterval _ => true
  | .calibrationRead _ _ => true
  | .calibrationTimeout => true
  | .powerModeExit => true
  | .pmbAlert _ => true
  | .junctionSample _ => true
  | .thermalModeExit => true
  | .thermalTrip => true
  | .railUndervoltage _ _ => true
  | .clockStateConfirm _ => true
  | .domainTransitionDone _ => true
  | .tokenWindow => true
  | .coordAnnounce => true
  | .coordAnnounceSend => true
  | .coordinatorLost => true
  | .tokenReq => true
  | .tokenGrant => true
  | .watchdog _ => true
  | .fatalTrap _ => true
  | .coreMemoryError _ => true
  | .coreRestartDone _ _ => true
  | .stage _ => true
  | .stageDone _ => true
  | .activate _ _ => true
  | .cancel _ => true
  | .restart _ _ => true
  | .revert _ _ => true
  | .installKeyPackage _ => true
  | .presentOwnerRecord _ => true
  | .sealNow _ => true
  | .seal => true
  | .journalRoomFreed => true
  | .exportEnable _ => true
  | .exportPoll _ => true
  | .spdmRequest path _ msg => path != .fabric || decide (msg.length ≤ 4096)
  | .ideFail _ _ => true
  | .linkUp _ _ _ _ => true
  | .hostLoss _ _ => true
  | .vfFlr _ _ => true
  | .tdiError _ _ => true
  | .atsInvalidation _ _ _ _ _ => true
  | .macEnable _ => true
  | .macDisable _ => true
  | .frameReceive _ _ => true
  | .frameTransmit _ => true
  | .collision _ => true
  | .backoffExpiry => true
  | .beaconLost => true
  | .regRead => true
  | .regWrite => true
  | .stageData => true
  | .powerOnReset => true
  | .aoRelease _ _ _ _ => true
  | .aclkLockTimeout => true
  | .startupStepComplete _ _ _ _ => true
  | .hbmTrainingDone _ _ _ => true
  | .wrstNAssert => true
  | .warmReset _ _ => true
  | .ppsAbsent => true
  | .plcaBeacon => true
  | .perstNDeassert _ => true
  | .i3cPageRefresh => true
  | .i3cDynamicAddress _ => true

end Sys2Proof
end

