-- ==== Sys2Proof/Safety.lean ====
section
/-! DEFINITION. What a sound state is, in the terms the claims use. -/

namespace Sys2Proof.Machine

/-- Every memory is in its one canonical form. -/
def Mems.wf (m : Mems) : Bool := Memory.wf m.loc && Memory.wf m.hostA && Memory.wf m.hostB

/-- The memories of the device and of its hosts are in their canonical form. -/
def Dev.memWf (d : Dev) : Bool := d.mem.wf

/-- A sound state: canonical memories, and commands in the queue that exist. -/
def State.sound (s : State) : Bool := s.dev.memWf && s.pending.all Instr.wellFormed

end Sys2Proof.Machine
end

