-- ==== Sys2Proof/Certificates/Slice0/Obligations.lean ====
section
/-! DEFINITION. The statements for the provers. A statement about a command says which next state exec answers: the device it
leaves, written with the named operations, so everything that the right-hand side does not name is unchanged. -/

namespace Sys2Proof.Claims

open Sys2Proof.Machine

/-- exec answers a next state with the device `e`; the queue is as it was. -/
def Answers (c : Instr) (s : State) (e : Dev) : Prop := exec c s = .next { s with dev := e }

/-- The register path takes a write to an offset at once: the device is ready for the path, the path reaches the register, and
the journal has room and nothing waits for it (R430, R434, R448). -/
def pathOpen (d : Dev) (via : Via) (off : Nat) : Bool :=
  !d.notYet via off true && d.pathReaches via off && !d.jnlFull && d.jnl.held.isEmpty

/-- A ring may start its next command, which is `c` with opcode `op`, and no first check fails (R232, R440, R441, R447). -/
def atFront (d : Dev) (r op : Nat) (c : Cmd) : Bool :=
  (d.ringU r).fetched.head? == some c && d.ringStarts r && c.op == op && (d.preCheck c).isNone

end Sys2Proof.Claims

open Sys2Proof Sys2Proof.Machine Sys2Proof.Claims


/-- A plain register write and ARM, DISARM and REVERT of a joint take effect. An aligned 64-bit write, through an open path, to a
register that has no effect of its own answers the device after the field-by-field write of the attempted word. ARM of a
joint that its block defines, not yet armed and whose block is not stopped, is journaled and enters the joint's armed record
with its token, origin and the open edge. DISARM is journaled, removes the armed record and writes result 3. REVERT of a
joint that is not armed is journaled and drops the joint's shadows. (01_device_organisation.md, 08_bents_bays_and_joints.md,
18_security_and_journal.md) -/
def Obligations.RegisterAndJointWritesTakeEffect : Prop :=
  (∀ (via : Via) (off : BitVec 26) (v : Reg64) (s : State), pathOpen s.dev via off.toNat = true → off.toNat % 8 = 0 →
    (findReg off.toNat).isSome = true → (via == .fabric && within off.toNat 0x1000 0x2000) = false →
    (s.dev.specialWrite via off.toNat 0 8 (mergeBytes (s.dev.shadowWord off.toNat) 0 8 v.toNat)).isNone = true →
    Answers (.registerWrite via off 8 v) s
      (s.dev.writeFields (viaOrigin via) off.toNat 0 8 (mergeBytes (s.dev.shadowWord off.toNat) 0 8 v.toNat))) ∧
  (∀ (via : Via) (b : JBlock) (j : BitVec 8) (t : BitVec 16) (s : State) (d : Dev), pathOpen s.dev via (jblockOff b) = true →
    jointDefined (jblockOff b) j.toNat = true → d = s.dev.jnlChange (viaOrigin via) (jblockOff b) 0 0 (jointWord j.toNat 0 t.toNat) →
    (d.armedRec (jblockOff b) j.toNat).isNone = true → d.jointStopped (jblockOff b) j.toNat = false →
    Answers (.arm via b j t) s
      (({ d with jt := { d.jt with armed := d.jt.armed ++ [{ block := jblockOff b, id := j.toNat, token := t.toNat, origin := viaOrigin via, edge := d.openEdge, waits := false }] } } : Dev).refreshArmed (jblockOff b))) ∧
  (∀ (via : Via) (b : JBlock) (j : BitVec 8) (t : BitVec 16) (s : State), pathOpen s.dev via (jblockOff b) = true →
    jointDefined (jblockOff b) j.toNat = true →
    Answers (.disarm via b j t) s
      ((((s.dev.jnlChange (viaOrigin via) (jblockOff b) 0 0 (jointWord j.toNat 1 t.toNat)).unarm (jblockOff b) j.toNat).jointResult
        (jblockOff b) j.toNat 3 0 t.toNat).refreshArmed (jblockOff b))) ∧
  (∀ (via : Via) (b : JBlock) (j : BitVec 8) (t : BitVec 16) (s : State), pathOpen s.dev via (jblockOff b) = true →
    jointDefined (jblockOff b) j.toNat = true → (s.dev.armedRec (jblockOff b) j.toNat).isNone = true →
    Answers (.jointRevert via b j t) s
      ((s.dev.jnlChange (viaOrigin via) (jblockOff b) 0 0 (jointWord j.toNat 2 t.toNat)).dropShadows (jblockOff b) j.toNat))


/-- PEG_ADD, a permitted domain request, a pre-thaw target and a bay thaw take effect. Through an open path: PEG_ADD to a peg
other than 0xFFF increments that peg and is journaled; a domain request for a new state that PWR permits starts the move; a
pre-thaw target is written; a thaw through PF0 of a port that serves a FROZEN bay is journaled and sets the bay's thaw for
the open edge. (06_tile_memory_and_mesh.md, 16_power_and_load_shaping.md, 19_host_interface.md) -/
def Obligations.PegPowerAndThawWritesTakeEffect : Prop :=
  (∀ (via : Via) (ag : AgId) (peg : BitVec 12) (n : BitVec 16) (s : State), pathOpen s.dev via (AG_PEG_ADD.off ag.val) = true →
    peg.toNat ≠ 0xFFF →
    Answers (.pegAdd via ag peg n) s ((s.dev.incPeg ag.val peg.toNat n.toNat 0).jnlChange (viaOrigin via) (AG_PEG_ADD.off ag.val) 0 0
      (pegAddWord peg.toNat n.toNat))) ∧
  (∀ (via : Via) (dom : DomId) (req : BitVec 2) (s : State) (e : Dev), pathOpen s.dev via (PWR_DOM.off dom.val) = true →
    e = s.dev.writeFields (viaOrigin via) (PWR_DOM.off dom.val) 0 8
      (insField (BitVec.ofNat 64 req.toNat) 0 2 (s.dev.get (PWR_DOM.req dom.val))) →
    req.toNat ≠ e.get (PWR_DOM.req dom.val) → e.domainOk dom.val req.toNat = true →
    Answers (.domainRequest via dom req) s (e.moveDomain (viaOrigin via) dom.val req.toNat)) ∧
  (∀ (via : Via) (w : BitVec 16) (s : State), pathOpen s.dev via PWR_TARGET.off = true →
    Answers (.prethawTarget via w) s (s.dev.writeFields (viaOrigin via) PWR_TARGET.off 0 8 (BitVec.ofNat 64 w.toNat))) ∧
  (∀ (p : HostPort) (b : BayId) (s : State), pathOpen s.dev (.host p 0) (HIF_BAY_CTL.off b.val) = true →
    s.dev.serves b.val p.val = true → s.dev.bayState b.val = bayFrozen →
    Answers (.bayThaw (.host p 0) b) s
      ((s.dev.jnlChange (1 + p.val) (HIF_BAY_CTL.off b.val) 0 0 1).putBay b.val
        { s.dev.bayU b.val with thawEdge := some s.dev.openEdge }))

/-- A permitted en = 1 starts a ring, and en = 0 stops an enabled one. Through an open path: a write of en = 1 to a ring whose en
is 0, and that the ring's checks do not refuse, is written and starts the ring; a write of en = 0 to a ring whose en is 1 is
written and stops it. (19_host_interface.md) -/
def Obligations.RingEnableAndDisableTakeEffect : Prop :=
  (∀ (via : Via) (r : RingId) (s : State), pathOpen s.dev via (ringBase r.val) = true → s.dev.get (RC.en r.val) = 0 →
    (s.dev.wr (ringBase r.val) (insField (s.dev.wordWith (RC.en r.val) 1) 0 1 0)).ringBad r.val = false →
    Answers (.ringEnable via r) s
      ((s.dev.writeFields (viaOrigin via) (ringBase r.val) 0 8 (s.dev.wordWith (RC.en r.val) 1)).ringStart r.val)) ∧
  (∀ (via : Via) (r : RingId) (s : State), pathOpen s.dev via (ringBase r.val) = true → s.dev.get (RC.en r.val) = 1 →
    Answers (.ringDisable via r) s
      ((s.dev.writeFields (viaOrigin via) (ringBase r.val) 0 8 (s.dev.wordWith (RC.en r.val) 0)).ringStop r.val))

/-- Writes of admin_en, FLT_DEAD_CLR, fenced and dropped take effect. Through an open path: writes of admin_en = 1 and 0 to
FABp_CFG are written and the port acts on the new value; a write of FLT_DEAD_CLR is written and takes the device off the dead
list; writes of 1 to fenced in FLT_STATUS and to dropped in FLT_BAYb_STATE are written field by field. (12_fabric_links.md,
15_fault_tolerance.md) -/
def Obligations.FabricAndFaultControlWritesTakeEffect : Prop :=
  (∀ (via : Via) (p : FabPort) (s : State), pathOpen s.dev via (FABP_CFG.off p.val) = true →
    Answers (.portEnable via p) s
      ((s.dev.writeFields (viaOrigin via) (FABP_CFG.off p.val) 0 8 (s.dev.wordWith (FABP_CFG.admin_en p.val) 1)).portAdmin p.val)) ∧
  (∀ (via : Via) (p : FabPort) (s : State), pathOpen s.dev via (FABP_CFG.off p.val) = true →
    Answers (.portDisable via p) s
      ((s.dev.writeFields (viaOrigin via) (FABP_CFG.off p.val) 0 8 (s.dev.wordWith (FABP_CFG.admin_en p.val) 0)).portAdmin p.val)) ∧
  (∀ (via : Via) (x : BitVec 15) (s : State), pathOpen s.dev via FLT_DEAD_CLR.off = true →
    Answers (.deadClr via x) s
      ((s.dev.writeFields (viaOrigin via) FLT_DEAD_CLR.off 0 8 (BitVec.ofNat 64 x.toNat)).deadClear x.toNat)) ∧
  (∀ (via : Via) (s : State), pathOpen s.dev via FLT_STATUS.off = true →
    Answers (.unfence via) s (s.dev.writeFields (viaOrigin via) FLT_STATUS.off 0 8 (2 ^ 9))) ∧
  (∀ (via : Via) (b : BayId) (s : State), pathOpen s.dev via (FLT_BAY_STATE.off b.val) = true →
    Answers (.clearDropped via b) s (s.dev.writeFields (viaOrigin via) (FLT_BAY_STATE.off b.val) 0 8 1))

/-- A GLB_FW_CMD write that is not refused is journaled and served. STAGE, ACTIVATE, CANCEL, RESTART and REVERT written to
GLB_FW_CMD through an open path other than the fabric, where the operation does not end with result 3, answer the device with
one change entry for the written word and then the operation's effect. (17_firmware.md, 01_device_organisation.md) -/
def Obligations.FirmwareCommandsAreServed : Prop :=
  (∀ (via : Via) (s : State), via ≠ .fabric → pathOpen s.dev via GLB_FW_CMD.off = true →
    (s.dev.fwStage via).get GLB_FW_CMDSTAT.result ≠ 3 →
    Answers (.stage via) s ((s.dev.jnlChange (viaOrigin via) GLB_FW_CMD.off 0 0 (fwWord 1 0)).fwStage via)) ∧
  (∀ (via : Via) (m : BitVec 19) (s : State), via ≠ .fabric → pathOpen s.dev via GLB_FW_CMD.off = true →
    (s.dev.fwActivate (viaOrigin via) m.toNat).get GLB_FW_CMDSTAT.result ≠ 3 →
    Answers (.activate via m) s
      ((s.dev.jnlChange (viaOrigin via) GLB_FW_CMD.off 0 0 (fwWord 2 m.toNat)).fwActivate (viaOrigin via) m.toNat)) ∧
  (∀ (via : Via) (s : State), via ≠ .fabric → pathOpen s.dev via GLB_FW_CMD.off = true →
    s.dev.fwCancel.get GLB_FW_CMDSTAT.result ≠ 3 →
    Answers (.cancel via) s ((s.dev.jnlChange (viaOrigin via) GLB_FW_CMD.off 0 0 (fwWord 3 0)).fwCancel)) ∧
  (∀ (via : Via) (m : BitVec 19) (s : State), via ≠ .fabric → pathOpen s.dev via GLB_FW_CMD.off = true →
    (s.dev.fwRestart m.toNat).get GLB_FW_CMDSTAT.result ≠ 3 →
    Answers (.restart via m) s ((s.dev.jnlChange (viaOrigin via) GLB_FW_CMD.off 0 0 (fwWord 4 m.toNat)).fwRestart m.toNat)) ∧
  (∀ (via : Via) (m : BitVec 19) (s : State), via ≠ .fabric → pathOpen s.dev via GLB_FW_CMD.off = true →
    (s.dev.fwRevert (viaOrigin via) m.toNat).get GLB_FW_CMDSTAT.result ≠ 3 →
    Answers (.revert via m) s
      ((s.dev.jnlChange (viaOrigin via) GLB_FW_CMD.off 0 0 (fwWord 5 m.toNat)).fwRevert (viaOrigin via) m.toNat))

/-- SEC_CMD, export_en, mac_en and the warm-reset key take effect. Through an open path: the SEC_CMD operations 1, 2 and 3, where
they do not end with result 3, are journaled and served; a write that changes export_en from 0 to 1 starts the export; writes
that change mac_en start and stop the MAC; warm with the key 0x5752 written to GLB_RESET is journaled and starts the warm
reset. (18_security_and_journal.md, 20_management_port.md, 21_startup.md) -/
def Obligations.SecurityExportAndMacWritesTakeEffect : Prop :=
  (∀ (via : Via) (s : State), pathOpen s.dev via SEC_CMD.off = true → (s.dev.secCmd via 1).get SEC_CMDSTAT.result ≠ 3 →
    Answers (.installKeyPackage via) s ((s.dev.jnlChange (viaOrigin via) SEC_CMD.off 0 0 1).secCmd via 1)) ∧
  (∀ (via : Via) (s : State), pathOpen s.dev via SEC_CMD.off = true → (s.dev.secCmd via 2).get SEC_CMDSTAT.result ≠ 3 →
    Answers (.presentOwnerRecord via) s ((s.dev.jnlChange (viaOrigin via) SEC_CMD.off 0 0 2).secCmd via 2)) ∧
  (∀ (via : Via) (s : State), pathOpen s.dev via SEC_CMD.off = true → (s.dev.secCmd via 3).get SEC_CMDSTAT.result ≠ 3 →
    Answers (.sealNow via) s ((s.dev.jnlChange (viaOrigin via) SEC_CMD.off 0 0 3).secCmd via 3)) ∧
  (∀ (via : Via) (s : State) (e : Dev), pathOpen s.dev via JNL_CFG.off = true → s.dev.get JNL_CFG.export_en = 0 →
    e = s.dev.writeFields (viaOrigin via) JNL_CFG.off 0 8 (s.dev.wordWith JNL_CFG.export_en 1) → e.get JNL_CFG.export_en = 1 →
    Answers (.exportEnable via) s e.exportStart) ∧
  (∀ (via : Via) (s : State) (e : Dev), pathOpen s.dev via MGT_CFG.off = true → s.dev.get MGT_CFG.mac_en = 0 →
    e = s.dev.writeFields (viaOrigin via) MGT_CFG.off 0 8 (s.dev.wordWith MGT_CFG.mac_en 1) → e.get MGT_CFG.mac_en = 1 →
    Answers (.macEnable via) s e.macOn) ∧
  (∀ (via : Via) (s : State) (e : Dev), pathOpen s.dev via MGT_CFG.off = true → s.dev.get MGT_CFG.mac_en = 1 →
    e = s.dev.writeFields (viaOrigin via) MGT_CFG.off 0 8 (s.dev.wordWith MGT_CFG.mac_en 0) → e.get MGT_CFG.mac_en = 0 →
    Answers (.macDisable via) s e.macOff) ∧
  (∀ (via : Via) (s : State), pathOpen s.dev via GLB_RESET.off = true →
    Answers (.warmReset via 0x5752) s
      ((s.dev.jnlChange (viaOrigin via) GLB_RESET.off 0 0 (BitVec.ofNat 64 (0x5752 + 2 ^ 16))).warmReset 2 (viaOrigin via)))


/-- Accepted doorbells, a fetch and a coalescing timeout act on their ring. An accepted SQ doorbell, where no control core that
restarts holds it, moves the ring's tail; an accepted CQ doorbell that reports n completions frees n entries and writes held
completions in order, and is kept where a control core that restarts holds it; a fetch on a running ring whose entry is translated takes entries up to 64 in flight and shows the
ring; a coalescing timeout with completions unsent sends the ring's vector. (19_host_interface.md) -/
def Obligations.QueueCommandsTakeEffect : Prop :=
  (∀ (p : HostPort) (f : FuncId) (r : RingId) (i : BitVec 16) (s : State),
    s.dev.doorbellBad p.val f.val r.val i.toNat (s.dev.sqSize r.val) = false →
    s.dev.doorbellHeld r.val = false →
    Answers (.sqTailDoorbell p f r i) s (s.dev.putRing r.val { s.dev.ringU r.val with tail := i.toNat })) ∧
  (∀ (p : HostPort) (f : FuncId) (r : RingId) (i : BitVec 16) (s : State) (n : Nat),
    s.dev.doorbellBad p.val f.val r.val i.toNat (s.dev.cqSize r.val) = false →
    s.dev.doorbellHeld r.val = false →
    n = (i.toNat + s.dev.cqSize r.val - (s.dev.ringU r.val).cqHead) % s.dev.cqSize r.val →
    (n ≠ 0 ∨ (s.dev.ringU r.val).cqUsed < s.dev.cqSize r.val) →
    Answers (.cqHeadDoorbell p f r i) s
      (((s.dev.putRing r.val { s.dev.ringU r.val with cqHead := i.toNat, cqUsed := (s.dev.ringU r.val).cqUsed - n }).releaseHeld r.val
        (s.dev.ringU r.val).held.length).showRing r.val)) ∧
  (∀ (p : HostPort) (f : FuncId) (r : RingId) (i : BitVec 16) (s : State),
    s.dev.doorbellBad p.val f.val r.val i.toNat (s.dev.cqSize r.val) = false → s.dev.doorbellHeld r.val = true →
    Answers (.cqHeadDoorbell p f r i) s (s.dev.putRing r.val { s.dev.ringU r.val with heldHead := some i.toNat })) ∧
  (∀ (r : RingId) (s : State), s.dev.ringState r.val = 1 → s.dev.get (RS.sqHead r.val) ≠ (s.dev.ringU r.val).tail →
    s.dev.untranslated (s.dev.ringPort r.val) (s.dev.ringFunc r.val)
      (s.dev.get (RQ.sqBase r.val) * 64 + s.dev.get (RS.sqHead r.val) * 64) 64 = false →
    Answers (.commandFetch r false) s
      (((s.dev.fetchEntries r.val (64 - ((s.dev.ringU r.val).fetched.length + (s.dev.ringU r.val).started.length))).flushBad r.val
        64).showRing r.val)) ∧
  (∀ (r : RingId) (s : State), (s.dev.ringU r.val).unsent ≠ 0 →
    (s.dev.ringU r.val).firstNs + 1000 * s.dev.get (RC.coalUs r.val) ≤ s.dev.clk.timeNs →
    Answers (.msixCoalesceTimeout r) s (s.dev.signal r.val))

/-- NOP, FENCE, QUERY and TELEMETRY complete with OK and their results. At the front of a ring that may start its next command,
with no first check failing: NOP completes with OK and 0; FENCE, with no started command left, completes with OK and 0; QUERY
completes with OK and the word of the register its selector names; TELEMETRY of a context ring, with its destination in the
bay, writes its block and completes with OK and the tick of the latest snapshot of the registers. (19_host_interface.md) -/
def Obligations.PlainHostCommandsComplete : Prop :=
  (∀ (r : RingId) (c : Cmd) (s : State), atFront s.dev r.val 0 c = true →
    Answers (.nop r) s ((s.dev.complete c stOk 0).flushBad r.val 64)) ∧
  (∀ (r : RingId) (c : Cmd) (s : State), atFront s.dev r.val 8 c = true → (s.dev.ringU c.ring).started = [] →
    Answers (.fence r) s ((s.dev.complete c stOk 0).flushBad r.val 64)) ∧
  (∀ (r : RingId) (c : Cmd) (s : State), atFront s.dev r.val 9 c = true →
    Answers (.query r) s
      ((s.dev.complete c stOk (s.dev.rd (queryReg (c.num 8 1) (c.num 9 1) c.bay)).toNat).flushBad r.val 64)) ∧
  (∀ (r : RingId) (c : Cmd) (s : State) (l : List Byte), atFront s.dev r.val 12 c = true → c.isAdmin = false →
    l = s.dev.telemetryBytes (c.num 8 1) c.bay → s.dev.rowsOk c.bay (c.num 16 8) 0 l.length 1 = true →
    Answers (.telemetry r) s
      (((s.dev.putBayBytes c.bay (c.num 16 8) l).complete c stOk s.dev.snapTick).flushBad r.val 64))

/-- A COPY or FILL within the bay moves its bytes and completes with OK. At the front of a ring that may start it, a COPY with
neither side remote, both ranges in the bay and not resident, starts, moves its bytes and completes with OK; a FILL with its
range in the bay and not resident starts, writes its repeated pattern and completes with OK. (19_host_interface.md,
06_tile_memory_and_mesh.md, 10_bays_contexts_and_scheduling.md) -/
def Obligations.CopyAndFillMoveBytes : Prop :=
  (∀ (r : RingId) (c : Cmd) (s : State) (q : DmaDesc), atFront s.dev r.val 4 c = true → q = c.copyDesc 0 →
    q.remSrc = false → q.remDst = false → s.dev.rowsOk c.bay q.src 0 q.rowBytes 1 = true →
    s.dev.rowsOk c.bay q.dst 0 q.rowBytes 1 = true → s.dev.isResidentCmd c = false →
    Answers (.copy r) s ((((s.dev.startCmd c).copyLocal c.bay q).complete c stOk 0).flushBad r.val 64)) ∧
  (∀ (r : RingId) (c : Cmd) (s : State) (q : DmaDesc), atFront s.dev r.val 5 c = true → q = c.copyDesc 1 →
    q.remSrc = false → q.remDst = false → s.dev.rowsOk c.bay q.dst 0 q.rowBytes 1 = true → s.dev.isResidentCmd c = false →
    Answers (.fill r) s
      ((((s.dev.startCmd c).putBayBytes c.bay q.dst (patternBytes (c.num 32 8) 8 q.rowBytes)).complete c stOk 0).flushBad r.val 64))

/-- RAISE, STRIKE, STEP, SNAPSHOT, RESTORE, PREEMPT and RESUME take effect. At the front of a ring that may start it: an admitted
RAISE makes its bay RAISING in phase 2 with its tag; STRIKE of a RAISED bay is recorded for the open edge set; a STEP that
nothing refuses makes its context READY and waits; a SNAPSHOT of a RAISED bay with snapshots and a host copy enabled waits
for its snapshot; a RESTORE of a RAISED bay with no refill begins one; a PREEMPT of an enabled context in state 1 is recorded
and suspends it; a RESUME of an enabled SUSPENDED context settles the context and completes with OK.
(08_bents_bays_and_joints.md, 10_bays_contexts_and_scheduling.md, 15_fault_tolerance.md, 19_host_interface.md) -/
def Obligations.BayHostCommandsTakeEffect : Prop :=
  (∀ (r : RingId) (c : Cmd) (s : State) (d : Dev) (n : Nat), atFront s.dev r.val 1 c = true → d = s.dev.startCmd c →
    d.admitStatus c = none →
    n = (List.range 8).foldl (fun m k => match (d.bayU k).raise with | some r => max m (r.order + 1) | none => m) 0 →
    Answers (.raise r) s
      (((d.putBay (c.num 8 1) { BayU.reset with raise := some { cmd := c, order := n, image := [], reserved := false, commitEdge := none, waitNs := none } }).sets
        [(SCH_BAY_STATE.state (c.num 8 1), bayRaising), (SCH_BAY_STATE.fab_tag (c.num 8 1), c.num 12 2),
          (SCH_BAY_RAISE.phase (c.num 8 1), 2)]).flushBad r.val 64)) ∧
  (∀ (r : RingId) (c : Cmd) (s : State) (d : Dev), atFront s.dev r.val 2 c = true → d = s.dev.startCmd c →
    d.bayState c.bay = bayRaised →
    Answers (.strike r) s
      ((d.putBay c.bay { d.bayU c.bay with strike := (d.bayU c.bay).strike ++ [c], strikeEdge := some ((d.bayU c.bay).strikeEdge.getD d.openEdge) }).flushBad r.val 64)) ∧
  (∀ (r : RingId) (c : Cmd) (s : State), atFront s.dev r.val 3 c = true → s.dev.stepRefusal c = none →
    Answers (.step r) s ((s.dev.makeReady c.ring).flushBad r.val 64)) ∧
  (∀ (r : RingId) (c : Cmd) (s : State), atFront s.dev r.val 6 c = true → s.dev.bayState c.bay = bayRaised →
    s.dev.flag (FLT_BAY_CFG.snap_en c.bay) = true → s.dev.flag (FLT_BAY_CFG.host_en c.bay) = true →
    Answers (.snapshot r) s
      (((s.dev.startCmd c).putFltBay c.bay { s.dev.fltBay c.bay with cmds := (s.dev.fltBay c.bay).cmds ++ [c] }).flushBad r.val 64)) ∧
  (∀ (r : RingId) (c : Cmd) (s : State), atFront s.dev r.val 7 c = true → (s.dev.startCmd c).bayState c.bay = bayRaised →
    ((s.dev.startCmd c).fltBay c.bay).refill = none → c.num 10 2 < 32768 → c.num 12 2 < 32768 →
    Answers (.restore r) s
      ((((s.dev.startCmd c).putFltBay c.bay { (s.dev.startCmd c).fltBay c.bay with refill := some { cmd := c, begun := false, src := none, sources := [], srcVersion := 0, slotVersion := 0, slotBase := 0, left := [], live := [], slotRec := [] } }).restoreBegin c.bay).flushBad r.val 64)) ∧
  (∀ (r : RingId) (c : Cmd) (s : State) (d : Dev), atFront s.dev r.val 10 c = true →
    s.dev.flag (SCH_CTX_CFG.en c.bay (c.num 8 1)) = true → s.dev.get (SCH_CTX_STATE.state c.bay (c.num 8 1)) = 1 →
    d = (s.dev.startCmd c).putCtx (8 * c.bay + c.num 8 1) { s.dev.ctxU (8 * c.bay + c.num 8 1) with susReq := (s.dev.ctxU (8 * c.bay + c.num 8 1)).susReq ++ [(c, s.dev.openEdge)] } →
    Answers (.preempt r) s ((d.suspend (8 * c.bay + c.num 8 1) [(c, s.dev.openEdge)]).flushBad r.val 64)) ∧
  (∀ (r : RingId) (c : Cmd) (s : State), atFront s.dev r.val 11 c = true →
    s.dev.flag (SCH_CTX_CFG.en c.bay (c.num 8 1)) = true → s.dev.get (SCH_CTX_STATE.state c.bay (c.num 8 1)) = 6 →
    Answers (.resume r) s (((s.dev.settleCtx (8 * c.bay + c.num 8 1)).complete c stOk 0).flushBad r.val 64))


/-- A raise moves from phase to phase as its image, verification, content and reservation allow. A readable image in host memory
whose header is right, with no update pending for SEC or SCH, is staged and the phase becomes 3. A raise without memory
encryption goes on to phase 4 where its image verifies under the owner's keys, else it fails with SIGNATURE_FAIL. Right
content gives phase 5, else BAD_COMMAND. A granted reservation whose AGs are all ACTIVE gives phase 6. A load without error
zeroes the extents, loads the bent and waits in phase 7 for the open edge. (08_bents_bays_and_joints.md,
18_security_and_journal.md) -/
def Obligations.RaisePhasesAdvance : Prop :=
  (∀ (b : BayId) (s : State) (r : RaiseRec) (img : List Byte), s.dev.raising b.val 2 = some r → r.image = [] →
    s.dev.stagedBytes + r.cmd.num 32 8 ≤ 2 ^ 30 → s.dev.sourceOk r.cmd = true → r.cmd.num 9 1 = 0 →
    img = s.dev.hostBytes r.cmd.port (r.cmd.num 24 8) (r.cmd.num 32 8) →
    imgHeaderOk img (s.dev.get GLB_IDENT.stepping) (r.cmd.num 32 8) (r.cmd.num 12 2) = true →
    s.dev.bitOf GLB_FW_CMDSTAT.pending 0 = false → s.dev.bitOf GLB_FW_CMDSTAT.pending 2 = false →
    Answers (.raiseStagingDone b true) s
      (((s.dev.putBay b.val { s.dev.bayU b.val with raise := some { r with image := img } })).set (SCH_BAY_RAISE.phase b.val) 3)) ∧
  (∀ (b : BayId) (s : State) (r : RaiseRec), s.dev.raising b.val 3 = some r → s.dev.behind r 3 = false →
    s.dev.get (GLB_FW_CORE.state 0) = 0 → s.dev.flag SEC_STATUS.owned = true →
    r.cmd.num 10 1 = 0 →
    Answers (.raiseVerificationDone b) s
      (if objectVerifies 1 s.dev.board.ownerKeys r.image = true then s.dev.set (SCH_BAY_RAISE.phase b.val) 4
       else (s.dev.set SEC_EVENT.verify_fail 1).raiseFail b.val stSignatureFail)) ∧
  (∀ (b : BayId) (s : State) (r : RaiseRec), s.dev.raising b.val 4 = some r → s.dev.schRunning = true →
    Answers (.raiseContentCheckDone b) s
      (if s.dev.contentOk b.val r.image = true then s.dev.set (SCH_BAY_RAISE.phase b.val) 5
       else s.dev.raiseFail b.val stBadCommand)) ∧
  (∀ (b : BayId) (s : State) (r : RaiseRec) (ex : Tab Nat) (cs : List Nat) (base len : Nat) (e : Dev),
    s.dev.raising b.val 5 = some r → s.dev.schRunning = true → r.reserved = false → s.dev.behind r 5 = false →
    s.dev.reserve b.val r.cmd r.image = .grant ex cs base len → e = s.dev.grantBay b.val r ex cs base len →
    ((e.bayAgs b.val).all fun n => e.get (PWR_DOM.state (1 + n)) == 0) = true →
    Answers (.raiseReservationDone b) s (e.set (SCH_BAY_RAISE.phase b.val) 6)) ∧
  (∀ (b : BayId) (s : State) (r : RaiseRec) (e : Dev), s.dev.raising b.val 6 = some r → s.dev.schRunning = true →
    s.dev.jnlFull = false →
    e = ((s.dev.bayU b.val).extMap.foldl (fun d x => d.zeroLocal (extentBase ((x.2 - 1) / 96) ((x.2 - 1) % 96)) 0x200000)
      s.dev).loadBent b.val r.image →
    Answers (.raiseLoadDone b none) s
      ((e.putBay b.val { e.bayU b.val with
          kind1 := ((imgRegs r.image).filter fun x => x.2.1 == 1).map fun x => (x.1, x.2.2.2.2),
          lightOk := imgNat r.image 11 1 % 2 == 1,
          raise := some { r with commitEdge := some e.openEdge } }).set (SCH_BAY_RAISE.phase b.val) 7))

/-- A raise fails with the status of the phase that fails. ACCESS_DENIED where the image is unreadable; SIGNATURE_FAIL, with
verify_fail set, where it does not verify; NO_RESOURCE where the reservation misses something or the wait for a thaw or for
zeroed pages has lasted 2 s; INTERNAL where the load finds an uncorrectable error. (08_bents_bays_and_joints.md,
16_power_and_load_shaping.md) -/
def Obligations.RaiseFailuresComplete : Prop :=
  (∀ (b : BayId) (s : State) (r : RaiseRec), s.dev.raising b.val 2 = some r → r.image = [] →
    s.dev.stagedBytes + r.cmd.num 32 8 ≤ 2 ^ 30 →
    Answers (.raiseStagingDone b false) s (s.dev.raiseFail b.val stAccessDenied)) ∧
  (∀ (b : BayId) (s : State) (r : RaiseRec), s.dev.raising b.val 3 = some r → s.dev.behind r 3 = false →
    s.dev.get (GLB_FW_CORE.state 0) = 0 → objectVerifies 1 s.dev.board.ownerKeys r.image = false →
    Answers (.raiseVerificationDone b) s ((s.dev.set SEC_EVENT.verify_fail 1).raiseFail b.val stSignatureFail)) ∧
  (∀ (b : BayId) (s : State) (r : RaiseRec), s.dev.raising b.val 5 = some r → s.dev.schRunning = true → r.reserved = false →
    s.dev.behind r 5 = false → s.dev.reserve b.val r.cmd r.image = .missing →
    Answers (.raiseReservationDone b) s (s.dev.raiseFail b.val stNoResource)) ∧
  (∀ (b : BayId) (s : State) (r : RaiseRec) (t : Nat), s.dev.raising b.val 5 = some r → r.waitNs = some t →
    t + 2000000000 ≤ s.dev.clk.timeNs →
    Answers (.raiseThawTimeout b) s (s.dev.raiseFail b.val stNoResource)) ∧
  (∀ (b : BayId) (a : BitVec 39) (s : State) (r : RaiseRec), s.dev.raising b.val 6 = some r → s.dev.schRunning = true →
    s.dev.jnlFull = false →
    Answers (.raiseLoadDone b (some a)) s ((s.dev.hbmError a.toNat .uncorrectable false).raiseFail b.val stInternal))

/-- A struck bay is released, scrubbed and completed, and zeroed pages read zero. A STRIKING bay whose units are idle and
that copies no context is released while SCH runs; the end of the scrub of a released bay scrubs it and completes each of its STRIKEs with OK; a waiting 2 MiB
unit of HBM that is zeroed has every byte that no bay holds removed from memory and no longer waits. (08_bents_bays_and_joints.md,
11_hbm_memory.md) -/
def Obligations.StrikeEndsAndPagesReturn : Prop :=
  (∀ (b : BayId) (s : State), s.dev.bayState b.val = bayStriking → (s.dev.bayU b.val).released = false →
    s.dev.unitsIdle b.val = true → (s.dev.bayU b.val).switch = none → s.dev.schRunning = true →
    Answers (.strikeRelease b) s (s.dev.releaseBay b.val)) ∧
  (∀ (b : BayId) (s : State), s.dev.bayState b.val = bayStriking → (s.dev.bayU b.val).released = true →
    Answers (.strikeScrubDone b) s
      ((s.dev.bayU b.val).strike.foldl (fun d c => d.complete c stOk 0) (s.dev.scrubBay b.val))) ∧
  (∀ (u : BitVec 18) (s : State) (r : Nat × Nat), r ∈ s.dev.dirty → r.1 ≤ u.toNat → u.toNat < r.1 + r.2 →
    Answers (.hbmPageZeroed u) s
      (({ s.dev with
          mem := { s.dev.mem with loc := s.dev.mem.loc.filter fun p => !(p.1 / 2 ^ 21 == u.toNat && !s.dev.heldByte p.1) },
          dirty := s.dev.dirty.flatMap fun r => splitRange r u.toNat } : Dev).showFree))

/-- The edge set closes, the edge runs its seven actions, and peg increments of the tick land. After AO release: the edge set
closes 250 ns before the edge, or now if that is past; an edge raises the tick number, runs actions 1 to 7 in order, sets the
next edge one period on, begins the tick and applies a waiting jump. A due tick-peg increment of an AG whose control core
runs raises its peg 0xFFF by one; the oldest forwarded increment of an AG pair lands in its target peg while the bay's step
number is the one it carries. (02_the_tick.md, 06_tile_memory_and_mesh.md, 10_bays_contexts_and_scheduling.md) -/
def Obligations.TickEventsTakeEffect : Prop :=
  (∀ (s : State) (e : Dev), s.dev.boot.released = true → e = s.dev.setTime (max s.dev.clk.timeNs (s.dev.clk.nextEdgeNs - 250)) →
    Answers .edgeSetClose s { e with clk := { e.clk with setClosed := true } }) ∧
  (∀ (s : State) (d e : Dev) (ran : List Nat), s.dev.boot.released = true → d = s.dev.nextTick.action1 → ran = d.runClosing →
    e = ((((d.closeBays.action2.action3.pwrEdge.action5).eachBay Dev.issueScheduled).action7 ran).setNextEdge).beginTick.jumpAtEdge.fwAdvance →
    Answers .tickEdge s (((List.range 19).foldl (fun d c => d.showRecent c) e).warmCheck)) ∧
  (∀ (n : AgId) (s : State), (s.dev.agU n.val).pegDue = true → s.dev.ccRunning n.val = true →
    Answers (.tickPegIncrement n) s
      ((s.dev.putAg n.val { s.dev.agU n.val with pegDue := false }).incPeg n.val 0xFFF 1 0)) ∧
  (∀ (src dst : AgId) (s : State) (f : PegFwd) (rest : List PegFwd),
    takeFirst (fun f => f.srcAg == src.val && f.dstAg == dst.val) s.dev.fwd = some (f, rest) →
    s.dev.bayOfAg dst.val = some f.bay → s.dev.get (SCH_BAY_STEPNO.step f.bay) % 256 = f.step8 →
    Answers (.pegForwardLand src dst) s (({ s.dev with fwd := rest } : Dev).addPeg dst.val f.peg f.amount 3))

/-- A forwarded increment of an earlier step is dropped and counted. The oldest forwarded increment from one AG to another, whose
bay no longer holds the target AG or whose bay is at another step number, is dropped, and stale_inc of the target AG counts
it. (06_tile_memory_and_mesh.md) -/
def Obligations.StaleForwardsAreDropped : Prop :=
  ∀ (src dst : AgId) (s : State) (f : PegFwd) (rest : List PegFwd),
    takeFirst (fun f => f.srcAg == src.val && f.dstAg == dst.val) s.dev.fwd = some (f, rest) →
    (s.dev.bayOfAg dst.val ≠ some f.bay ∨ s.dev.get (SCH_BAY_STEPNO.step f.bay) % 256 ≠ f.step8) →
    Answers (.pegForwardLand src dst) s (({ s.dev with fwd := rest } : Dev).incSat (AG_PEG_STATUS.stale_inc dst.val) 1)

/-- A pass that the dispatcher has chosen and whose operands are ready runs. With d the device after the dispatcher's check of
its heads, and the pass not skipped: a WS-GEMM with its first A block staged and its B staged, or its tiles still held, an
OS-GEMM with both first blocks staged, a WLOAD with its B block staged and no such tile loaded, and a DRAIN of the open chain
after its last OS-GEMM completes run from the given cycle on an ungated array; a WS-GEMM or an OS-GEMM with k = 0 takes its
empty form, and a WLOAD whose tile is loaded, or with k = 0, ends in the next cycle. A skipped pass of any kind passes over.
(04_matrix_arrays.md, 05_long_products_by_splitting.md, 10_bays_contexts_and_scheduling.md) -/
def Obligations.ChosenPassesRun : Prop :=
  (∀ (a : ArrId) (cycle stall : Nat) (s : State) (d : Dev) (b : Nat) (c : Choice) (q : Desc) (p : Pair) (rb : List (List Val)),
    d = s.dev.fetchHeads a.val → d.chosen a.val 0 = some (b, c, q) → q.pair = some p → (Fmt.ofCode q.fmtOut).isSome = true →
    d.mayStart a.val cycle = true → d.skips b q = false → q.k ≠ 0 → d.ungated a.val = true →
    ((d.arrU a.val).stagedRows c false 0).isSome = true →
    (((d.arrU a.val).needsB q p (d.get (AG_ARR_STATUS.repair_skew (a.val / 6) (a.val % 6))) = false ∧ rb = []) ∨
     ((d.arrU a.val).needsB q p (d.get (AG_ARR_STATUS.repair_skew (a.val / 6) (a.val % 6))) = true ∧
      (d.arrU a.val).stagedRows c true 0 = some rb ∧
      (((d.arrU a.val).tileFor (q.key p ((bPieces q.split).headD 0))).isSome = true ∨ (d.arrU a.val).loadFrom + 1 ≤ cycle))) →
    Answers (.wsGemm a cycle stall) s (d.wsRun b a.val c q p rb cycle stall)) ∧
  (∀ (a : ArrId) (cycle stall : Nat) (s : State) (d : Dev) (b : Nat) (c : Choice) (q : Desc) (fo : Fmt),
    d = s.dev.fetchHeads a.val → d.chosen a.val 0 = some (b, c, q) → q.pair.isSome = true → Fmt.ofCode q.fmtOut = some fo →
    d.mayStart a.val cycle = true → d.skips b q = false → q.k = 0 →
    Answers (.wsGemm a cycle stall) s (d.wsEmpty b a.val c q fo cycle)) ∧
  (∀ (a : ArrId) (cycle stall : Nat) (s : State) (d : Dev) (b : Nat) (c : Choice) (q : Desc) (p : Pair) (ra rb : List (List Val)),
    d = s.dev.fetchHeads a.val → d.chosen a.val 1 = some (b, c, q) → q.pair = some p → d.mayStart a.val cycle = true →
    d.skips b q = false → q.k ≠ 0 → d.ungated a.val = true → (d.arrU a.val).stagedRows c false 0 = some ra →
    (d.arrU a.val).stagedRows c true 0 = some rb →
    Answers (.osGemm a cycle stall) s (d.osRun b a.val c q p rb cycle stall)) ∧
  (∀ (a : ArrId) (cycle stall : Nat) (s : State) (d : Dev) (b : Nat) (c : Choice) (q : Desc),
    d = s.dev.fetchHeads a.val → d.chosen a.val 1 = some (b, c, q) → q.pair.isSome = true → d.mayStart a.val cycle = true →
    d.skips b q = false → q.k = 0 → Answers (.osGemm a cycle stall) s (d.osEmpty b a.val c q cycle)) ∧
  (∀ (a : ArrId) (cycle stall : Nat) (s : State) (d : Dev) (b : Nat) (c : Choice) (q : Desc) (p : Pair) (rb : List (List Val)) (e : Dev),
    d = s.dev.fetchHeads a.val → d.chosen a.val 2 = some (b, c, q) → q.pair = some p → (d.arrU a.val).splitTo ≤ cycle →
    ((d.arrU a.val).feeding.any fun r => r.desc.split != 0) = false → d.skips b q = false →
    (d.arrU a.val).tileFor (q.key p q.wloadPiece) = none → q.k ≠ 0 → d.ungated a.val = true →
    (d.arrU a.val).stagedRows c true 0 = some rb → (d.arrU a.val).loadFrom ≤ cycle →
    e = ((d.countStall b a.val stall c).set (AG_ARR_STATUS.groups_ungated (a.val / 6) (a.val % 6)) 16).putArr a.val
      { d.arrU a.val with shadowT := some { key := q.key p q.wloadPiece, rows := pieceRows q.split q.wloadPiece rb },
                          lastL := cycle, lastK := q.k } →
    Answers (.wload a cycle stall) s (e.enterFlight b a.val c cycle (cycle + q.k + q.n - 1) [] false)) ∧
  (∀ (a : ArrId) (cycle stall : Nat) (s : State) (d : Dev) (b : Nat) (c : Choice) (q : Desc) (p : Pair),
    d = s.dev.fetchHeads a.val → d.chosen a.val 2 = some (b, c, q) → q.pair = some p → (d.arrU a.val).splitTo ≤ cycle →
    ((d.arrU a.val).feeding.any fun r => r.desc.split != 0) = false → d.skips b q = false →
    (((d.arrU a.val).tileFor (q.key p q.wloadPiece)).isSome = true ∨ q.k = 0) →
    Answers (.wload a cycle stall) s (d.enterFlight b a.val c cycle (cycle + 1) [] false)) ∧
  (∀ (a : ArrId) (cycle stall : Nat) (s : State) (d : Dev) (b : Nat) (c : Choice) (q : Desc) (ch : Chain) (fo : Fmt),
    d = s.dev.fetchHeads a.val → d.chosen a.val 3 = some (b, c, q) → (d.arrU a.val).chain = some ch →
    Fmt.ofCode q.fmtOut = some fo → d.mayStart a.val cycle = true → d.skips b q = false →
    ((d.arrU a.val).inflight.any fun r => r.desc.op == 1) = false → (d.arrU a.val).osDone ≤ cycle → d.ungated a.val = true →
    Answers (.drain a cycle stall) s (d.drainRun b a.val c q ch.mode fo cycle stall)) ∧
  (∀ (a : ArrId) (cycle stall : Nat) (s : State) (d : Dev) (b : Nat) (c : Choice) (q : Desc),
    d = s.dev.fetchHeads a.val → d.chosen a.val 0 = some (b, c, q) → q.pair.isSome = true → (Fmt.ofCode q.fmtOut).isSome = true →
    d.mayStart a.val cycle = true → d.skips b q = true → Answers (.wsGemm a cycle stall) s (d.skipPass b a.val c cycle)) ∧
  (∀ (a : ArrId) (cycle stall : Nat) (s : State) (d : Dev) (b : Nat) (c : Choice) (q : Desc),
    d = s.dev.fetchHeads a.val → d.chosen a.val 1 = some (b, c, q) → q.pair.isSome = true →
    d.mayStart a.val cycle = true → d.skips b q = true → Answers (.osGemm a cycle stall) s (d.skipPass b a.val c cycle)) ∧
  (∀ (a : ArrId) (cycle stall : Nat) (s : State) (d : Dev) (b : Nat) (c : Choice) (q : Desc),
    d = s.dev.fetchHeads a.val → d.chosen a.val 2 = some (b, c, q) → q.pair.isSome = true → (d.arrU a.val).splitTo ≤ cycle →
    ((d.arrU a.val).feeding.any fun r => r.desc.split != 0) = false → d.skips b q = true →
    Answers (.wload a cycle stall) s (d.skipPass b a.val c cycle)) ∧
  (∀ (a : ArrId) (cycle stall : Nat) (s : State) (d : Dev) (b : Nat) (c : Choice) (q : Desc),
    d = s.dev.fetchHeads a.val → d.chosen a.val 3 = some (b, c, q) → (d.arrU a.val).chain.isSome = true →
    (Fmt.ofCode q.fmtOut).isSome = true → d.mayStart a.val cycle = true → d.skips b q = true →
    Answers (.drain a cycle stall) s (d.skipPass b a.val c cycle))

/-- A pass completes, starts are granted, blocks staged, rows land and a locate test runs. The next pass of the step to end leaves
flight, is counted, counts its mismatch and increments its output peg; the arbiter grants the oldest request 16 cycles or
more after the last start; the next block the array may stage is staged, and the pass that waited for it takes it; rows that
waited land as far as there is room and the waited cycles are counted; a locate test of an array whose bay runs no step, with
nothing in flight and time before the edge set closes, clears the array; the end of a test that finds no fault sets
locate_done and locate_clean. (04_matrix_arrays.md,
07_vector_engine.md) -/
def Obligations.ArrayEventsTakeEffect : Prop :=
  (∀ (a : ArrId) (s : State) (b : Nat) (r : PassRec) (e : Dev), s.dev.bayOfAg (a.val / 6) = some b →
    nextDone (s.dev.arrU a.val).inflight = some r → r.current = true →
    e = (s.dev.putArr a.val { s.dev.arrU a.val with
          inflight := (s.dev.arrU a.val).inflight.erase r,
          disp := { (s.dev.arrU a.val).disp with outstanding := (s.dev.arrU a.val).disp.outstanding - 1 } }).incWrap
        (AG_ARR_STATUS.passes (a.val / 6) (a.val % 6)) 1 →
    Answers (.passComplete a) s
      (((if r.mismatch = true then e.countMismatch b a.val else e).incPeg (a.val / 6) r.desc.oPeg 1 0).settleArray a.val)) ∧
  (∀ (n : AgId) (cycle y x : Nat) (rest : List (Nat × Nat)) (s : State), (s.dev.agU n.val).startReq = (y, x) :: rest →
    (∀ l, (s.dev.agU n.val).lastStart = some l → l + 16 ≤ cycle) →
    Answers (.arrayStartGrant n cycle) s
      ((s.dev.putAg n.val { s.dev.agU n.val with startReq := rest, lastStart := some cycle }).set (AG_ARR_STATUS.groups_ungated n.val x) 16)) ∧
  (∀ (a : ArrId) (isB : Bool) (stall : Nat) (m : MeshWait) (s : State) (b : Nat) (g : Staged) (d : Dev),
    d = (s.dev.meshWaits (a.val / 6) m).putArr a.val
      { (s.dev.meshWaits (a.val / 6) m).arrU a.val with
        meshStall := ((s.dev.meshWaits (a.val / 6) m).arrU a.val).meshStall + max m.static m.bestEffort } →
    d.bayOfAg (a.val / 6) = some b → d.nextStage b a.val isB = some g → (isB = true ∨ d.blockDue b a.val = none) →
    Answers (.stagingComplete a isB { stall := stall, mesh := m, buf := none }) s
      (d.putArr a.val { d.arrU a.val with staged := (d.arrU a.val).staged ++ [g] })) ∧
  (∀ (a : ArrId) (stall : Nat) (m : MeshWait) (s : State) (b : Nat) (g : Staged) (d e : Dev),
    d = (s.dev.meshWaits (a.val / 6) m).putArr a.val
      { (s.dev.meshWaits (a.val / 6) m).arrU a.val with
        meshStall := ((s.dev.meshWaits (a.val / 6) m).arrU a.val).meshStall + max m.static m.bestEffort } →
    d.bayOfAg (a.val / 6) = some b → d.nextStage b a.val false = some g → (d.blockDue b a.val).isSome = true →
    e = d.putArr a.val { d.arrU a.val with staged := (d.arrU a.val).staged ++ [g] } →
    Answers (.stagingComplete a false { stall := stall, mesh := m, buf := none }) s ((e.fedLate b a.val stall).takeBlocks b a.val (e.arrU a.val).staged.length)) ∧
  (∀ (a : ArrId) (w : Nat) (s : State) (b : Nat) (r : PassRec) (e : Dev) (left : List (Nat × List Byte)) (u : ArrayU),
    s.dev.bayOfAg (a.val / 6) = some b → (s.dev.arrU a.val).inflight.find? (fun r => !r.rowsLeft.isEmpty) = some r →
    s.dev.landRows b a.val r.rowsLeft = (e, left) → left.length ≠ r.rowsLeft.length →
    u = (e.incWrap (AG_VEC_PERF.drain_wait (a.val / 6) (a.val % 6)) w).arrU a.val →
    Answers (.drainRowEnqueue a w) s
      ((e.incWrap (AG_VEC_PERF.drain_wait (a.val / 6) (a.val % 6)) w).putArr a.val
        { u with freeAt := u.freeAt + w,
                 inflight := u.inflight.map fun q => if q == r then { q with rowsLeft := left, pegCycle := q.pegCycle + w } else q })) ∧
  (∀ (a : ArrId) (s : State), (s.dev.arrU a.val).locate = 1 → (s.dev.arrU a.val).inflight = [] →
    (∀ b, s.dev.bayOfAg (a.val / 6) = some b → s.dev.bayBusy b = false) → s.dev.clk.timeNs + 1138 ≤ s.dev.clk.nextEdgeNs - 250 →
    Answers (.locateTest a) s
      (s.dev.putArr a.val { s.dev.arrU a.val with locate := 2, active := none, shadowT := none, acc := [], accChk := [] })) ∧
  (∀ (a : ArrId) (s : State), (s.dev.arrU a.val).locate = 2 →
    Answers (.locateTestDone a []) s
      (((s.dev.putArr a.val { s.dev.arrU a.val with locate := 0 }).set (AG_ARR_EVENT.locate_done (a.val / 6) (a.val % 6)) 1).set
        (AG_ARR_EVENT.locate_clean (a.val / 6) (a.val % 6)) 1))

/-- A vector instruction: when the slice's next instruction has the command's op, its effect is `sem` on the device with the
stall cycles counted (R145, R146). -/
def Sys2Proof.Claims.VecRuns (c : SliceId → Nat → Instr) (op : Nat) (sem : Dev → Nat → Nat → VWord → Dev) : Prop :=
  ∀ (x : SliceId) (stall : Nat) (s : State) (b : Nat) (w : VWord), s.dev.vecNext x.val = some (b, w) → w.op = op →
    Answers (c x stall) s (sem (s.dev.incWrap (AG_VEC_PERF.stall_cycles (x.val / 6) (x.val % 6)) stall) x.val b w)

/-- NOP and the vector arithmetic run at the slice's program counter. When the slice's next instruction has the command's op, the
stall cycles are counted and: NOP advances; ADD, SUB, MUL, DIV, MIN, MAX, MINN and MAXN apply their function to each pair of
elements in the instruction's format and rounding mode, integer functions modulo 2^32 on INT32; FMA and FNMA round once;
SQRT, ABS, NEG and RINT apply to the elements of a. (07_vector_engine.md, 03_number_formats.md) -/
def Obligations.VectorArithmeticRuns : Prop :=
  VecRuns .vNop 0x00 (fun d x _ _ => d.nextPc x) ∧
  VecRuns .vAdd 0x01 (fun d x b w => d.vecBin x b w vadd (· + ·)) ∧
  VecRuns .vSub 0x02 (fun d x b w => d.vecBin x b w (fun rm p q => vadd rm p q.negate) (· - ·)) ∧
  VecRuns .vMul 0x03 (fun d x b w => d.vecBin x b w (fun _ p q => vmul p q) (· * ·)) ∧
  VecRuns .vFma 0x04 (fun d x b w => d.vecMap x b w (fmtOf w.fmt) fun u i =>
    rounded (fmtOf w.fmt) (RMode.ofCode w.rm) (vfma (RMode.ofCode w.rm) false (u.val (fmtOf w.fmt) w.a i) (u.val (fmtOf w.fmt) w.b i) (u.val (fmtOf w.fmt) w.c i))) ∧
  VecRuns .vFnma 0x05 (fun d x b w => d.vecMap x b w (fmtOf w.fmt) fun u i =>
    rounded (fmtOf w.fmt) (RMode.ofCode w.rm) (vfma (RMode.ofCode w.rm) true (u.val (fmtOf w.fmt) w.a i) (u.val (fmtOf w.fmt) w.b i) (u.val (fmtOf w.fmt) w.c i))) ∧
  VecRuns .vDiv 0x06 (fun d x b w => d.vecBin x b w (fun _ p q => vdiv p q) (fun p _ => p)) ∧
  VecRuns .vSqrt 0x07 (fun d x b w => d.vecMap x b w (fmtOf w.fmt) fun u i =>
    rounded (fmtOf w.fmt) (RMode.ofCode w.rm) (vsqrt (u.val (fmtOf w.fmt) w.a i))) ∧
  VecRuns .vMin 0x08 (fun d x b w => d.vecBin x b w (fun _ p q => vminmax false p q) min) ∧
  VecRuns .vMax 0x09 (fun d x b w => d.vecBin x b w (fun _ p q => vminmax true p q) max) ∧
  VecRuns .vMinn 0x0A (fun d x b w => d.vecBin x b w (fun _ p q => vminmaxNum false p q) min) ∧
  VecRuns .vMaxn 0x0B (fun d x b w => d.vecBin x b w (fun _ p q => vminmaxNum true p q) max) ∧
  VecRuns .vAbs 0x0C (vSign false) ∧
  VecRuns .vNeg 0x0D (vSign true) ∧
  VecRuns .vRint 0x0E (fun d x b w => d.vecMap x b w (fmtOf w.fmt) fun u i =>
    rounded (fmtOf w.fmt) .rne (vrint (RMode.ofCode w.rm) (u.val (fmtOf w.fmt) w.a i)))

/-- Vector logic, shifts, comparisons, predicates, SEL and the functions run. When the slice's next instruction has the command's
op, the stall cycles are counted and: AND, OR, XOR and the three shifts act bitwise; CMP, PSET and PLOG write predicates; SEL
takes a where the governing predicate is on, else b; EXP, LOG, RSQRT, SIGM, TANH, SILU and GELU apply their FP32 function
element by element. (07_vector_engine.md) -/
def Obligations.VectorLogicPredicatesAndFunctionsRun : Prop :=
  VecRuns .vAnd 0x10 (vLogic (· &&& ·)) ∧
  VecRuns .vOr 0x11 (vLogic (· ||| ·)) ∧
  VecRuns .vXor 0x12 (vLogic (· ^^^ ·)) ∧
  VecRuns .vShl 0x13 (vShift fun p n => p <<< n % 2 ^ 32) ∧
  VecRuns .vShr 0x14 (vShift fun p n => wrapInt 32 (signedOf 32 p / 2 ^ n)) ∧
  VecRuns .vShrl 0x15 (vShift fun p n => p >>> n) ∧
  VecRuns .vCmp 0x18 vCmpOp ∧
  VecRuns .vSel 0x19 (fun d x b w => d.vecCalc x b ((d.vecU x).setV w.d (packElems (regWidth (fmtOf w.fmt))
    ((List.range (regCount (fmtOf w.fmt))).map fun i =>
      if (d.vecU x).on w i then (d.vecU x).elem (fmtOf w.fmt) w.a i else (d.vecU x).elem (fmtOf w.fmt) w.b i)), FFlags.none)) ∧
  VecRuns .vPset 0x1A (fun d x b w => d.vecCalc x b ((d.vecU x).setP (w.d % 8) (packElems 1 ((List.range 128).map fun i =>
    (psetBit w.imm ((d.vecU x).sreg (w.a % 16) % 256) i).toNat)), FFlags.none)) ∧
  VecRuns .vPlog 0x1B vPlogOp ∧
  VecRuns .vExp 0x20 (fun d x b w => d.vecMap x b w .fp32 fun u i => funcApply 0 (u.elem .fp32 w.a i)) ∧
  VecRuns .vLog 0x21 (fun d x b w => d.vecMap x b w .fp32 fun u i => funcApply 1 (u.elem .fp32 w.a i)) ∧
  VecRuns .vRsqrt 0x22 (fun d x b w => d.vecMap x b w .fp32 fun u i => funcApply 2 (u.elem .fp32 w.a i)) ∧
  VecRuns .vSigm 0x23 (fun d x b w => d.vecMap x b w .fp32 fun u i => funcApply 3 (u.elem .fp32 w.a i)) ∧
  VecRuns .vTanh 0x24 (fun d x b w => d.vecMap x b w .fp32 fun u i => funcApply 4 (u.elem .fp32 w.a i)) ∧
  VecRuns .vSilu 0x25 (fun d x b w => d.vecMap x b w .fp32 fun u i => funcApply 5 (u.elem .fp32 w.a i)) ∧
  VecRuns .vGelu 0x26 (fun d x b w => d.vecMap x b w .fp32 fun u i => funcApply 6 (u.elem .fp32 w.a i))

/-- Conversions, reductions, permutations, moves and loads run. When the slice's next instruction has the command's op, the stall
cycles are counted and CVT, RSUM, RMAX, RMIN, PERM, SHUF, PACK, UNPK, BCAST, MOVS, MOVV, VLD, VLDC and GATH have their
effect. (07_vector_engine.md) -/
def Obligations.VectorConversionsMovesAndLoadsRun : Prop :=
  VecRuns .vCvt 0x28 vCvtOp ∧
  VecRuns .vRsum 0x30 (vReduce 0) ∧
  VecRuns .vRmax 0x31 (vReduce 1) ∧
  VecRuns .vRmin 0x32 (vReduce 2) ∧
  VecRuns .vPerm 0x38 (fun d x b w => d.vecMap x b w (fmtOf w.fmt) fun u i =>
    (u.elem (fmtOf w.fmt) w.a (u.elem (fmtOf w.fmt) w.b i % regCount (fmtOf w.fmt)), FFlags.none)) ∧
  VecRuns .vShuf 0x39 (fun d x b w => d.vecMap x b w (fmtOf w.fmt) fun u i =>
    (u.elem (fmtOf w.fmt) (if (shufSource w.imm (regCount (fmtOf w.fmt)) i).1 then w.b else w.a)
      (shufSource w.imm (regCount (fmtOf w.fmt)) i).2, FFlags.none)) ∧
  VecRuns .vPack 0x3A vPackOp ∧
  VecRuns .vUnpk 0x3B vUnpkOp ∧
  VecRuns .vBcast 0x3C (fun d x b w => d.vecMap x b w (fmtOf w.fmt) fun u _ =>
    (u.elem (fmtOf w.fmt) w.a (w.imm % 128 % regCount (fmtOf w.fmt)), FFlags.none)) ∧
  VecRuns .vMovs 0x3D (fun d x b w => d.vecMap x b w (fmtOf w.fmt) fun u _ =>
    (u.sreg (w.a % 16) % 2 ^ regWidth (fmtOf w.fmt), FFlags.none)) ∧
  VecRuns .vMovv 0x3E (fun d x b w => d.vecCalc x b ((d.vecU x).setS (w.d % 16)
    ((d.vecU x).elem (fmtOf w.fmt) w.a (w.imm % 128 % regCount (fmtOf w.fmt))), FFlags.none)) ∧
  VecRuns .vVld 0x40 vVldOp ∧
  VecRuns .vVldc 0x42 vVldcOp ∧
  VecRuns .vGath 0x45 vGathOp

/-- Stores whose gate lets them run examine and store their values; VRECV takes a row. When the slice's next instruction has the
command's op and its gate lets it run: VST, VSTC, VSTB, SCAT and SCTA raise the conversion flags of the elements they write
and draw numbers for those alone, examine the values they write, store the bytes of the on elements and go on to the next
instruction; where the gate skips the store, it only goes on. VRECV takes the oldest drain-queue entry into its destination
register. (07_vector_engine.md, 03_number_formats.md) -/
def Obligations.VectorStoresRun : Prop :=
  (∀ (x : SliceId) (stall : Nat) (s : State) (b : Nat) (w : VWord) (d : Dev) (u : VecU), s.dev.vecNext x.val = some (b, w) →
    w.op = 0x41 → d = s.dev.incWrap (AG_VEC_PERF.stall_cycles (x.val / 6) (x.val % 6)) stall → d.storeGate b w = .run →
    u = d.vecU x.val →
    Answers (.vVst x stall) s
      (((d.examine b w (rawVals u w (fmtOf w.fmt) (d.written b (u.lineAddr w) (regWidth (fmtOf w.fmt)) (u.on w)))).storeElems x.val b (u.lineAddr w) (regWidth (fmtOf w.fmt))
        (regCount (fmtOf w.fmt)) (u.on w) (u.elem (fmtOf w.fmt) w.d)).nextPc x.val)) ∧
  (∀ (x : SliceId) (stall : Nat) (s : State) (b : Nat) (w : VWord) (d e : Dev) (u : VecU) (hit : Nat → Bool) (on : List Nat)
    (res : List (Nat × FFlags)), s.dev.vecNext x.val = some (b, w) → w.op = 0x43 →
    d = s.dev.incWrap (AG_VEC_PERF.stall_cycles (x.val / 6) (x.val % 6)) stall → d.storeGate b w = .run → u = d.vecU x.val →
    hit = d.written b (u.lineAddr w) (fmtOf w.fmt2).width (u.on w) → on = (List.range (regCount (fmtOf w.fmt))).filter hit →
    res = (List.range (regCount (fmtOf w.fmt))).map (fun i =>
      if hit i then (fmtOf w.fmt2).encode (d.convMode b x.val u w (laneOf (fmtOf w.fmt) i)) (w.sat == 1)
        (regSource (fmtOf w.fmt) (u.elem (fmtOf w.fmt) w.d i)) (t4Table (d.vecNat b (u.sreg (w.c % 16)) 32))
      else (0, FFlags.none)) →
    e = (d.putVec x.val (u.drawn w (fmtOf w.fmt) on)).orFlags b (FFlags.orAll (res.map (·.2))) →
    Answers (.vVstc x stall) s
      (((e.examine b w (on.map fun i => regSource (fmtOf w.fmt) (u.elem (fmtOf w.fmt) w.d i))).storeElems x.val b (u.lineAddr w)
        (fmtOf w.fmt2).width (regCount (fmtOf w.fmt)) (u.on w) fun i => (res.getD i (0, FFlags.none)).1).nextPc x.val)) ∧
  (∀ (x : SliceId) (stall : Nat) (s : State) (b : Nat) (w : VWord) (d e : Dev) (u : VecU) (vals : List Val) (scales : List Nat)
    (hit : Nat → Bool) (on : List Nat) (res : List (Nat × FFlags)),
    s.dev.vecNext x.val = some (b, w) → w.op = 0x44 →
    d = s.dev.incWrap (AG_VEC_PERF.stall_cycles (x.val / 6) (x.val % 6)) stall → d.storeGate b w = .run → u = d.vecU x.val →
    vals = (List.range 128).map (fun i => u.val .fp32 w.d i) →
    scales = (List.range 4).map (fun k => blockScale (fmtOf w.fmt2) ((vals.drop (32 * k)).take 32)) →
    hit = d.written b (u.lineAddr w) (fmtOf w.fmt2).width (fun _ => true) → on = (List.range 128).filter hit →
    res = vals.zipIdx.map (fun q =>
      if hit q.2 then
        (fmtOf w.fmt2).encode (d.convMode b x.val u w q.2) (w.sat == 1) (scaleDown (scales.getD (q.2 / 32) 0) q.1)
      else (0, FFlags.none)) →
    e = (d.putVec x.val (u.drawn w .fp32 on)).orFlags b (FFlags.orAll (res.map (·.2))) →
    Answers (.vVstb x stall) s
      ((((e.examine b w (on.map fun i => vals.getD i (.fin false 0 0))).storeElems x.val b (u.lineAddr w) (fmtOf w.fmt2).width 128 (fun _ => true)
        fun i => (res.getD i (0, FFlags.none)).1).vecStoreBytes b (u.sreg (w.c % 16)) (scales.map (BitVec.ofNat 8))).nextPc x.val)) ∧
  (∀ (x : SliceId) (stall : Nat) (s : State) (b : Nat) (w : VWord) (d : Dev) (u : VecU) (on : List Nat) (hit : List (Nat × Nat)),
    s.dev.vecNext x.val = some (b, w) → w.op = 0x46 →
    d = s.dev.incWrap (AG_VEC_PERF.stall_cycles (x.val / 6) (x.val % 6)) stall → d.storeGate b w = .run → u = d.vecU x.val →
    on = (List.range (regCount (fmtOf w.fmt))).filter (u.on w) →
    hit = on.filterMap (fun i => (d.indexAddr b u w (fmtOf w.fmt) i).map fun a => (i, a)) →
    Answers (.vScat x stall) s
      ((hit.foldl (fun d p => d.vecStoreBytes b p.2 (toBytes ((fmtOf w.fmt).width / 8) (u.elem (fmtOf w.fmt) w.d p.1)))
        ((d.countScatter x.val (on.length - hit.length)).examine b w
          (if (fmtOf w.fmt).isInt || fmtOf w.fmt == .t4 then []
           else hit.map fun p => (fmtOf w.fmt).decode (u.elem (fmtOf w.fmt) w.d p.1 % 2 ^ (fmtOf w.fmt).width)))).nextPc x.val)) ∧
  (∀ (x : SliceId) (stall : Nat) (s : State) (b : Nat) (w : VWord) (d : Dev) (u : VecU) (on : List Nat) (hit : List (Nat × Nat))
    (r : Dev × FFlags × List Val),
    s.dev.vecNext x.val = some (b, w) → w.op = 0x47 →
    d = s.dev.incWrap (AG_VEC_PERF.stall_cycles (x.val / 6) (x.val % 6)) stall → d.storeGate b w = .run → u = d.vecU x.val →
    on = (List.range 128).filter (u.on w) →
    hit = on.filterMap (fun i => (d.indexAddr b u w .fp32 i).map fun a => (i, a)) →
    r = hit.foldl (fun acc p =>
      (acc.1.vecStoreBytes b p.2 (toBytes 4 (rounded .fp32 .rne (vadd .rne (Fmt.decode .fp32 (acc.1.vecNat b p.2 4)) (u.val .fp32 w.d p.1))).1),
        acc.2.1.or (rounded .fp32 .rne (vadd .rne (Fmt.decode .fp32 (acc.1.vecNat b p.2 4)) (u.val .fp32 w.d p.1))).2,
        acc.2.2 ++ [Fmt.decode .fp32 (rounded .fp32 .rne (vadd .rne (Fmt.decode .fp32 (acc.1.vecNat b p.2 4)) (u.val .fp32 w.d p.1))).1]))
      (d.countScatter x.val (on.length - hit.length), FFlags.none, []) →
    Answers (.vScta x stall) s (((r.1.orFlags b r.2.1).examine b w r.2.2).nextPc x.val)) ∧
  (∀ (x : SliceId) (stall : Nat) (s : State) (b : Nat) (w : VWord) (d : Dev) (q : BitVec 4096) (rest : List (BitVec 4096)) (u : VecU),
    s.dev.vecNext x.val = some (b, w) → w.op = 0x48 →
    d = s.dev.incWrap (AG_VEC_PERF.stall_cycles (x.val / 6) (x.val % 6)) stall → (d.vecU x.val).dq = q :: rest →
    u = { d.vecU x.val with dq := rest } →
    Answers (.vVrecv x stall) s (d.vecCalc x.val b (u.writeElems w 32 128 (fun i => elemAt 32 i q.toNat), FFlags.none))) ∧
  (∀ (x : SliceId) (stall : Nat) (s : State) (b : Nat) (w : VWord) (c : Instr) (op : Nat),
    (c, op) ∈ [(.vVst x stall, 0x41), (.vVstc x stall, 0x43), (.vVstb x stall, 0x44), (.vScat x stall, 0x46), (.vScta x stall, 0x47)] →
    s.dev.vecNext x.val = some (b, w) → w.op = op →
    (s.dev.incWrap (AG_VEC_PERF.stall_cycles (x.val / 6) (x.val % 6)) stall).storeGate b w = .skip →
    Answers c s ((s.dev.incWrap (AG_VEC_PERF.stall_cycles (x.val / 6) (x.val % 6)) stall).nextPc x.val))

/-- Scalar instructions, branches, WAIT, INC, FENCE, END and the program copy run. When the slice's next instruction has the
command's op: SLI, SLIH, SADD, SMUL, SAND, SSHL and SSHR write their scalar register modulo 2^64; SRD reads the repetition
index, the tick, the bay's step number, the slice, the AG or global time; BNE and BLT branch relative to their own index;
WAIT goes on once its peg has reached the threshold; INC increments its peg; FENCE goes on; END starts the next repetition at
instruction 0. The end of a program copy puts the program in place. (07_vector_engine.md, 06_tile_memory_and_mesh.md) -/
def Obligations.VectorScalarAndControlRun : Prop :=
  VecRuns .vSli 0x50 (fun d x _ w => (d.putVec x ((d.vecU x).setS (w.d % 16) (wrapInt 64 w.simm))).nextPc x) ∧
  VecRuns .vSlih 0x51 (fun d x _ w => (d.putVec x ((d.vecU x).setS (w.d % 16)
    (((d.vecU x).sreg (w.d % 16) * 2 ^ 16) ||| w.imm))).nextPc x) ∧
  VecRuns .vSadd 0x52 (fun d x _ w => (d.putVec x ((d.vecU x).setS (w.d % 16)
    (wrapInt 64 (((d.vecU x).sreg (w.a % 16) : Int) + (d.vecU x).sreg (w.b % 16) + w.simm)))).nextPc x) ∧
  VecRuns .vSmul 0x53 (fun d x _ w => (d.putVec x ((d.vecU x).setS (w.d % 16)
    ((d.vecU x).sreg (w.a % 16) * (d.vecU x).sreg (w.b % 16)))).nextPc x) ∧
  VecRuns .vSand 0x54 (fun d x _ w => (d.putVec x ((d.vecU x).setS (w.d % 16)
    ((d.vecU x).sreg (w.a % 16) &&& (d.vecU x).sreg (w.b % 16)))).nextPc x) ∧
  VecRuns .vSshl 0x55 (fun d x _ w => (d.putVec x ((d.vecU x).setS (w.d % 16)
    ((d.vecU x).sreg (w.a % 16) <<< ((d.vecU x).sreg (w.b % 16) % 64)))).nextPc x) ∧
  VecRuns .vSshr 0x56 (fun d x _ w => (d.putVec x ((d.vecU x).setS (w.d % 16)
    ((d.vecU x).sreg (w.a % 16) >>> ((d.vecU x).sreg (w.b % 16) % 64)))).nextPc x) ∧
  VecRuns .vSrd 0x57 (fun d x b w => (d.putVec x ((d.vecU x).setS (w.d % 16) (match w.imm with
    | 0 => (d.vecU x).rep
    | 1 => d.tick
    | 2 => d.get (SCH_BAY_STEPNO.step b)
    | 3 => x % 6
    | 4 => x / 6
    | _ => d.gtime))).nextPc x) ∧
  VecRuns .vBne 0x58 (fun d x _ w => d.vecBranch x w ((d.vecU x).sreg (w.a % 16) != (d.vecU x).sreg (w.b % 16))) ∧
  VecRuns .vBlt 0x59 (fun d x _ w => d.vecBranch x w
    (decide (signedOf 64 ((d.vecU x).sreg (w.a % 16)) < signedOf 64 ((d.vecU x).sreg (w.b % 16))))) ∧
  (∀ (x : SliceId) (stall : Nat) (s : State) (b : Nat) (w : VWord) (d : Dev), s.dev.vecNext x.val = some (b, w) → w.op = 0x5C →
    d = s.dev.incWrap (AG_VEC_PERF.stall_cycles (x.val / 6) (x.val % 6)) stall →
    d.waitOk (AG_VEC_THR.off (x.val / 6) (x.val % 6) 0) (w.imm / 4096) (x.val / 6) (w.imm % 4096) ((d.vecU x.val).rep % 65536) = true →
    Answers (.vWait x stall) s (d.nextPc x.val)) ∧
  VecRuns .vInc 0x5D (fun d x _ w => (d.incPeg (x / 6) (w.imm % 4096) 1 0).nextPc x) ∧
  VecRuns .vFence 0x5E (fun d x _ _ => d.nextPc x) ∧
  VecRuns .vEnd 0x5F (fun d x _ _ => (d.putVec x { d.vecU x with rep := (d.vecU x).rep + 1, pc := 0 }).showVec x 2 0) ∧
  (∀ (x : SliceId) (s : State) (p : List (BitVec 64)), (s.dev.vecU x.val).copying = some p →
    Answers (.programCopyDone x) s (s.dev.putVec x.val { s.dev.vecU x.val with prog := p, copying := none }))

/-- Patrol findings, retirements, row repairs and stack temperatures take effect. A patrol or read of a tile line of an AG whose
slice is up, and a patrol of a usable stack while MEM is ACTIVE, count and record what they find; a tile line due for
retirement moves to the next spare of its bank, with its count, event, journal entry and board record; a due HBM row whose
sPPR resource is free is repaired by sPPR; the temperatures read set each stack's temperature, refresh rate and hot bit.
(06_tile_memory_and_mesh.md, 11_hbm_memory.md) -/
def Obligations.PatrolsAndRepairsTakeEffect : Prop :=
  (∀ (n : AgId) (line : BitVec 22) (f : EccFinding) (s : State), s.dev.sliceUp n.val = true → line.toNat < 3145728 →
    Answers (.tmPatrol n line f) s (s.dev.tmError n.val line.toNat f)) ∧
  (∀ (n : AgId) (line : BitVec 22) (s : State) (cause used : Nat) (u : AgU) (e : Dev), s.dev.jnlFull = false →
    (s.dev.agU n.val).retireDue.find? (fun p => p.1 == line.toNat) = some (line.toNat, cause) →
    u = { s.dev.agU n.val with retireDue := (s.dev.agU n.val).retireDue.filter fun p => p.1 != line.toNat } →
    used = Tab.get (fun _ => 0) u.sparesUsed (lineBank line.toNat) → used < 256 →
    e = ((s.dev.putAg n.val { u with
            remapped := Tab.put (fun _ => 0) u.remapped line.toNat (used + 1),
            sparesUsed := Tab.put (fun _ => 0) u.sparesUsed (lineBank line.toNat) (used + 1) }).incSat (AG_TM_ERR.retired n.val) 1).set
          (AG_TM_EVENT.retired n.val) 1 →
    Answers (.tmLineRetire n line) s
      (((e.set (AG_TM_STATUS.spares_min n.val) (min (e.get (AG_TM_STATUS.spares_min n.val)) (255 - used))).jnlEvent 0x50 0x0002
        (lineAddr n.val line.toNat) (used % 256 + 256 * cause)).fieldUpdate fun r =>
          { r with lines := r.lines ++ [(n.val, line.toNat, used)] })) ∧
  (∀ (n : AgId) (line : BitVec 22) (s : State) (cause : Nat) (u : AgU), s.dev.jnlFull = false →
    (s.dev.agU n.val).retireDue.find? (fun p => p.1 == line.toNat) = some (line.toNat, cause) →
    u = { s.dev.agU n.val with retireDue := (s.dev.agU n.val).retireDue.filter fun p => p.1 != line.toNat } →
    256 ≤ Tab.get (fun _ => 0) u.sparesUsed (lineBank line.toNat) → u.failed.contains (line.toNat / 32768) = false →
    Answers (.tmLineRetire n line) s
      (((((s.dev.putAg n.val { u with failed := u.failed ++ [line.toNat / 32768] }).set (AG_TM_EVENT.extent_failed n.val) 1).set
          (AG_TM_STATUS.failed_extents n.val) (u.failed.length + 1)).jnlEvent 0x50 0x0003 (extentBase n.val (line.toNat / 32768)) 0).fieldUpdate
        fun r => { r with extents := r.extents ++ [(n.val, line.toNat / 32768)] })) ∧
  (∀ (a : BitVec 39) (f : EccFinding) (s : State), s.dev.memActive = true →
    s.dev.bitOf GLB_STATUS.stack_usable (a.toNat / 2 ^ 36) = true →
    Answers (.hbmPatrol a { ecc := f, reader := .patrol }) s (s.dev.hbmError a.toNat f true)) ∧
  (∀ (a : BitVec 39) (f : EccFinding) (b : BayId) (s : State), s.dev.bitOf GLB_STATUS.stack_usable (a.toNat / 2 ^ 36) = true →
    Answers (.hbmPatrol a { ecc := f, reader := .unit b }) s
      (if f = .uncorrectable then (s.dev.hbmError a.toNat f false).endStepEarly b.val stInternal else s.dev.hbmError a.toNat f false)) ∧
  (∀ (a : BitVec 39) (f : EccFinding) (s : State), s.dev.bitOf GLB_STATUS.stack_usable (a.toNat / 2 ^ 36) = true →
    Answers (.hbmPatrol a { ecc := f, reader := .device }) s (s.dev.hbmError a.toNat f false)) ∧
  (∀ (t : Vector (BitVec 8) 8) (s : State) (d : Dev), s.dev.get (PWR_DOM.state 19) < 2 →
    d = (t.toList.map (·.toNat)).zipIdx.foldl (fun (d : Dev) p =>
        (if decide (105 ≤ p.1) && !d.flag (MEM_STACK_STATUS.hot p.2) then d.set MEM_EVENT.hot 1 else d).sets
          [(MEM_STACK_STATUS.temp_c p.2, p.1), (MEM_STACK_STATUS.refresh p.2, if p.1 < 85 then 0 else if p.1 < 95 then 1 else 2),
            (MEM_STACK_STATUS.hot p.2, (decide (105 ≤ p.1)).toNat)]) s.dev →
    Answers (.hbmTemperatureRead t) s
      (({ d with pwr := { d.pwr with hotCap := hotCaps d.pwr.hotCap (t.toList.map (·.toNat)) } } : Dev).set PWR_THERM.hbm_max
        ((t.toList.map (·.toNat)).foldl max 0))) ∧
  (∀ (a : BitVec 39) (s : State) (row cause : Nat) (d : Dev), row = hbmRow a.toNat → s.dev.jnlFull = false →
    s.dev.rowDue.find? (fun p => p.1 == row) = some (row, cause) →
    s.dev.sppr.contains (hbmChannel a.toNat, Config.hbmBank row) = false →
    d = ({ s.dev with rowDue := s.dev.rowDue.filter (fun p => p.1 != row),
                      sppr := s.dev.sppr ++ [(hbmChannel a.toNat, Config.hbmBank row)] } : Dev) →
    Answers (.hbmRowRepair a) s
      ((((d.incSat (MEM_STACK_ERR.sppr_used (a.toNat / 2 ^ 36)) 1).set MEM_EVENT.repaired 1).jnlEvent 0x50 0x0004 (row * 32768)
        (2 * cause)).fieldUpdate fun r => { r with rows := r.rows ++ [(row, 0)] })) ∧
  (∀ (a : BitVec 39) (s : State) (row cause k : Nat) (d : Dev), row = hbmRow a.toNat → s.dev.jnlFull = false →
    s.dev.rowDue.find? (fun p => p.1 == row) = some (row, cause) →
    s.dev.sppr.contains (hbmChannel a.toNat, Config.hbmBank row) = true →
    k = Tab.get (fun _ => 0) s.dev.remaps (hbmChannel a.toNat) → k < 64 →
    d = ({ s.dev with rowDue := s.dev.rowDue.filter (fun p => p.1 != row),
                      remaps := Tab.put (fun _ => 0) s.dev.remaps (hbmChannel a.toNat) (k + 1) } : Dev) →
    Answers (.hbmRowRepair a) s
      ((((d.incSat (MEM_STACK_ERR.remap_used (a.toNat / 2 ^ 36)) 1).set MEM_EVENT.repaired 1).jnlEvent 0x50 0x0004 (row * 32768)
        (1 + 2 * cause + 256 * k)).fieldUpdate fun r => { r with rows := r.rows ++ [(row, 1 + k)] }))

/-- A DMA engine runs its next descriptor and completes a written one. An engine that may start its next descriptor: a valid
local COPY moves its rows, a valid remote one sends its packets, a valid local FILL writes its pattern row by row. A
descriptor in flight whose packets are all acknowledged leaves flight, is counted and increments its done peg, if it has one.
(06_tile_memory_and_mesh.md) -/
def Obligations.DmaDescriptorsRun : Prop :=
  (∀ (e : DmaId) (s : State) (b : Nat) (q : DmaDesc) (d : Dev), s.dev.dmaReady e.val = some b →
    q = DmaDesc.of (s.dev.dmaWord b e.val 0) (s.dev.dmaWord b e.val 1) (s.dev.dmaWord b e.val 2) (s.dev.dmaWord b e.val 3) →
    q.op = 0 → q.remSrc = false → q.remDst = false →
    s.dev.dmaCheck b (s.dev.dmaWord b e.val 0) (s.dev.dmaWord b e.val 1) (s.dev.dmaWord b e.val 2) (s.dev.dmaWord b e.val 3) = none →
    d = s.dev.dmaAdvance e.val { id := (s.dev.dmaU e.val).started, w0 := s.dev.dmaWord b e.val 0, w1 := s.dev.dmaWord b e.val 1,
                                 w2 := s.dev.dmaWord b e.val 2, w3 := s.dev.dmaWord b e.val 3 } →
    Answers (.dmaCopy e none) s (d.copyLocal b q)) ∧
  (∀ (e : DmaId) (s : State) (b : Nat) (q : DmaDesc) (d : Dev), s.dev.dmaReady e.val = some b →
    q = DmaDesc.of (s.dev.dmaWord b e.val 0) (s.dev.dmaWord b e.val 1) (s.dev.dmaWord b e.val 2) (s.dev.dmaWord b e.val 3) →
    q.op = 0 → (q.remSrc || q.remDst) = true →
    s.dev.dmaCheck b (s.dev.dmaWord b e.val 0) (s.dev.dmaWord b e.val 1) (s.dev.dmaWord b e.val 2) (s.dev.dmaWord b e.val 3) = none →
    d = s.dev.dmaAdvance e.val { id := (s.dev.dmaU e.val).started, w0 := s.dev.dmaWord b e.val 0, w1 := s.dev.dmaWord b e.val 1,
                                 w2 := s.dev.dmaWord b e.val 2, w3 := s.dev.dmaWord b e.val 3 } →
    Answers (.dmaCopy e none) s (d.dmaRemote b e.val (s.dev.dmaU e.val).started q)) ∧
  (∀ (e : DmaId) (s : State) (b : Nat) (q : DmaDesc) (d : Dev), s.dev.dmaReady e.val = some b →
    q = DmaDesc.of (s.dev.dmaWord b e.val 0) (s.dev.dmaWord b e.val 1) (s.dev.dmaWord b e.val 2) (s.dev.dmaWord b e.val 3) →
    q.op = 1 → q.remSrc = false → q.remDst = false →
    s.dev.dmaCheck b (s.dev.dmaWord b e.val 0) (s.dev.dmaWord b e.val 1) (s.dev.dmaWord b e.val 2) (s.dev.dmaWord b e.val 3) = none →
    d = s.dev.dmaAdvance e.val { id := (s.dev.dmaU e.val).started, w0 := s.dev.dmaWord b e.val 0, w1 := s.dev.dmaWord b e.val 1,
                                 w2 := s.dev.dmaWord b e.val 2, w3 := s.dev.dmaWord b e.val 3 } →
    Answers (.dmaFill e) s
      ((List.range q.rows).foldl (fun d i => d.putBayBytes b (q.dst + i * q.dstStride) (patternBytes q.pattern 2 q.rowBytes)) d)) ∧
  (∀ (e : DmaId) (k : Fin 8) (m : MeshWait) (s : State) (r : DmaRec) (c d : Dev), c = s.dev.meshWaits (e.val / 4) m →
    (c.dmaU e.val).inflight[k.val]? = some r → c.owing (Owner.ofDma e.val r.id) = false →
    d = (c.putDma e.val { c.dmaU e.val with inflight := (c.dmaU e.val).inflight.eraseIdx k.val }).incWrap
      (AG_DMA_STATUS.completed (e.val / 4) (e.val % 4)) 1 →
    Answers (.dmaComplete e { slot := k, mesh := m }) s
      (if (DmaDesc.of r.w0 r.w1 r.w2 r.w3).donePeg = 0xFFF then d
       else d.incPeg (e.val / 4) (DmaDesc.of r.w0 r.w1 r.w2 r.w3).donePeg 1 (DmaDesc.of r.w0 r.w1 r.w2 r.w3).cause))

/-- The gate decides, a drain ends, and a context is saved and restored. The gate of a running step, once reached, decides RUN or
SKIP: by the nonfinite flag with gate_colls = 0, by the returned flags once gate_done ≥ gate_colls otherwise. A drain end
that leaves no running step and its context READY lets the bay choose. The end of a save without an error writes the outgoing
context's saved state and times; the end of a restore loads the incoming context's saved state and makes it resident and
READY. (09_training_execution.md, 10_bays_contexts_and_scheduling.md) -/
def Obligations.SchedulingEventsTakeEffect : Prop :=
  (∀ (b : BayId) (s : State) (r : StepRec), s.dev.liveStep b.val = some r → s.dev.get (SCH_BAY_TRAIN.gate b.val) < 2 →
    s.dev.gateReached b.val = true → s.dev.get (SCH_BAY_GATECFG.gate_colls b.val) = 0 →
    (∀ u, (s.dev.fltBay b.val).snap = some u → u.reading = false) →
    Answers (.gateDecision b) s
      (s.dev.set (SCH_BAY_TRAIN.gate b.val) (if s.dev.flag (SCH_BAY_VFLAG.nonfinite b.val) then 3 else 2))) ∧
  (∀ (b : BayId) (s : State) (r : StepRec), s.dev.liveStep b.val = some r → s.dev.get (SCH_BAY_TRAIN.gate b.val) < 2 →
    s.dev.gateReached b.val = true → 0 < s.dev.get (SCH_BAY_GATECFG.gate_colls b.val) →
    s.dev.get (SCH_BAY_GATECFG.gate_colls b.val) ≤ s.dev.get (SCH_BAY_TRAIN.gate_done b.val) →
    (∀ u, (s.dev.fltBay b.val).snap = some u → u.reading = false) →
    Answers (.gateDecision b) s (s.dev.set (SCH_BAY_TRAIN.gate b.val) (if r.returned then 3 else 2))) ∧
  (∀ (b : BayId) (s : State) (r : StepRec) (e : Dev), (s.dev.bayU b.val).step = some r → e = s.dev.drainEnd b.val →
    (e.bayU b.val).step = none → e.get (SCH_CTX_STATE.state b.val r.ctx) = 2 →
    Answers (.preemptDrainEnd b) s (e.chooseAfterDrain b.val)) ∧
  (∀ (b : BayId) (us : Nat) (s : State) (sw : SwitchRec) (o : Nat) (d e f : Dev) (mid full : Bool),
    (s.dev.bayU b.val).switch = some sw → sw.out = some o → s.dev.bayState b.val ≠ bayStriking →
    d = s.dev.set (SCH_CTX_WAIT.last_save_us b.val o) (min us 0xFFFF) → mid = (d.ctxU (8 * b.val + o)).pre.isSome →
    full = !d.flag (SCH_CTX_CFG.mode b.val o) →
    e = d.fresh.2.putBayBytes b.val (d.get (SCH_CTX_SAVE.save_base b.val o)) (saveBytes d.fresh.1 (d.saveSize b.val mid full)) →
    f = (e.putCtx (8 * b.val + o) { e.ctxU (8 * b.val + o) with
        saved := some (d.saveState b.val mid full d.fresh.1),
        pre := (e.ctxU (8 * b.val + o)).pre.map fun r => { r with saveUs := r.saveUs + us } }).set (SCH_CTX_STATE.saved b.val o)
      (if mid then 2 else 1) →
    Answers (.contextSaveDone b us none) s (f.putBay b.val { f.bayU b.val with switch := some { sw with out := none } })) ∧
  (∀ (b : BayId) (us : Nat) (s : State) (sw : SwitchRec) (c d e f : Dev) (u : CtxU) (sv : SavedState),
    (s.dev.bayU b.val).switch = some sw → sw.out = none → sw.doneEdge = none → s.dev.bayState b.val ≠ bayStriking →
    c = s.dev.set (SCH_BAY_RUN.switching b.val) 0 → u = c.ctxU (8 * b.val + sw.inn) → u.saved = some sv →
    d = (((c.savedOf b.val sw.inn sv).2.loadState b.val (c.savedOf b.val sw.inn sv).1
        (!c.flag (SCH_CTX_CFG.mode b.val sw.inn))).set
      (SCH_CTX_WAIT.last_restore_us b.val sw.inn) (min us 0xFFFF)).putCtx (8 * b.val + sw.inn)
      { u with saved := none, pre := u.pre.map fun r => { r with restoreUs := r.restoreUs + us, restored := true } } →
    e = d.sets [(SCH_BAY_RUN.resident b.val, sw.inn), (SCH_BAY_RUN.resident_valid b.val, 1),
      (SCH_CTX_STATE.saved b.val sw.inn, if u.pre.isSome then 3 else 0)] →
    f = (if e.get (SCH_CTX_STATE.state b.val sw.inn) = 3 then e.set (SCH_CTX_STATE.state b.val sw.inn) 2 else e) →
    Answers (.contextRestoreDone b us) s (f.putBay b.val { f.bayU b.val with switch := some { sw with doneEdge := some f.openEdge } }))

/-- A port goes from DETECT to ACTIVE. A signal on all lanes takes DETECT to TRAIN; training takes TRAIN to ALIGN; 500 ms in
TRAIN count a failure and lead back to DETECT, or to FAILED at the eighth; alignment of a DIRECT port takes ALIGN to
LINK_INIT and sends INIT flits; 2 ms in ALIGN lead back to DETECT; INIT flits set the peer's credits and take the port to
HANDSHAKE, or an ETHERNET port to ACTIVE; an unchanged record that passes the checks, with the peer having matched, takes the port to ACTIVE; 10 µs without
an answer send the record again. (12_fabric_links.md) -/
def Obligations.LinkBringUp : Prop :=
  (∀ (p : FabPort) (s : State), s.dev.portState p.val = psDetect → s.dev.retiredLanes p.val = [] →
    (s.dev.port p.val).toRecord = none →
    Answers (.portSignalDetect p 0xFF) s ((s.dev.updPort p.val fun u => { u with lanes := 0xFF }).setPort p.val psTrain)) ∧
  (∀ (p : FabPort) (s : State), s.dev.portState p.val = psTrain →
    Answers (.linkTrainingDone p) s ((s.dev.set (FABP_STATUS.train_fail p.val) 0).setPort p.val psAlign)) ∧
  (∀ (p : FabPort) (s : State) (d : Dev), s.dev.portState p.val = psTrain →
    (s.dev.port p.val).stateNs + 500000000 ≤ s.dev.clk.timeNs → d = s.dev.incSat (FABP_STATUS.train_fail p.val) 1 →
    Answers (.trainTimeout p) s (d.setPort p.val (if 8 ≤ d.get (FABP_STATUS.train_fail p.val) then psFailed else psDetect))) ∧
  (∀ (p : FabPort) (s : State) (d : Dev), s.dev.portState p.val = psAlign → s.dev.isDirect p.val = true →
    d = (s.dev.set (FABP_STATUS.lane_mask p.val) (s.dev.port p.val).lanes).setPort p.val psLinkInit → d.isDirect p.val = true →
    Answers (.alignDone p) s (d.emit (.initFlits p.val (d.ownCredits p.val)))) ∧
  (∀ (p : FabPort) (s : State), s.dev.portState p.val = psAlign → (s.dev.port p.val).stateNs + 2000000 ≤ s.dev.clk.timeNs →
    Answers (.alignTimeout p) s (s.dev.fall p.val psDetect)) ∧
  (∀ (p : FabPort) (n : Vector (BitVec 8) 8) (s : State), s.dev.portState p.val = psLinkInit → s.dev.isEthernet p.val = false →
    Answers (.initFlits p n) s
      (((s.dev.updPort p.val fun u =>
        { u with txSeq := 0, rxSeq := 0, unrep := 0, nakSent := false, retry := [], progressNs := s.dev.clk.timeNs,
                 peerRsv := n.toList.map BitVec.toNat ++ [2048 - (n.toList.map BitVec.toNat).foldl (· + ·) 0],
                 used := List.replicate 9 0, lastCum := List.replicate 9 0, freed := List.replicate 9 0,
                 owed := false, buffer := [], accepted := false, matched := false }).setPort p.val psHandshake).sendRecord p.val)) ∧
  (∀ (p : FabPort) (n : Vector (BitVec 8) 8) (s : State), s.dev.portState p.val = psLinkInit → s.dev.isEthernet p.val = true →
    Answers (.initFlits p n) s ((s.dev.setPort p.val psActive).sendRecord p.val)) ∧
  (∀ (p : FabPort) (r : BitVec 384) (s : State) (d e : Dev), s.dev.isDirect p.val = true → s.dev.portState p.val = psHandshake →
    d = ((List.range 6).foldl (fun d i => d.set (FABP_PEER.record p.val i) (r.toNat / 2 ^ (64 * i))) s.dev).checkConflict r.toNat →
    ((List.range 6).all fun i => s.dev.get (FABP_PEER.record p.val i) == r.toNat / 2 ^ (64 * i) % 2 ^ 64) = true →
    d.recordFails p.val r.toNat = 0 →
    e = ((d.set (FABP_STATUS.hs_fail p.val) 0).updPort p.val fun u =>
      { u with accepted := true, matched := (r.toNat / 2 ^ 11) % 2 == 1 }).sendRecord p.val →
    (e.port p.val).matched = true →
    Answers (.handshake p r) s
      ((((e.updPort p.val fun u => { u with returning := false }).setPort p.val psActive).recordLane p.val).drainQueue p.val
        (((e.updPort p.val fun u => { u with returning := false }).setPort p.val psActive).port p.val).queue.length)) ∧
  (∀ (p : FabPort) (s : State), s.dev.isDirect p.val = true → s.dev.portState p.val = psHandshake →
    (s.dev.port p.val).recordNs + 10000 ≤ s.dev.clk.timeNs →
    Answers (.handshakeResend p) s (s.dev.sendRecord p.val))

/-- Credits, NAK, RETRAIN and PFC pauses act on an ACTIVE port. An ACK_CREDIT that covers flits releases them and returns
credits; 100 ns after the first unreported flit or credit an ACK_CREDIT goes out; a NAK that names a flit of the retry buffer
counts a retry and resends from that flit; lost FEC lock, a fourth resend of a flit, or 5 µs without progress discard the
retry buffer, take the port to RETRAIN and, where it held flits, send a link notice; a PFC pause of an ETHERNET port holds,
and its end releases, the priorities that pfc_en allows. (12_fabric_links.md) -/
def Obligations.LinkCreditsAndRetry : Prop :=
  (∀ (p : FabPort) (q : BitVec 12) (n : Vector (BitVec 16) 8) (sh : BitVec 16) (rtt : BitVec 14) (s : State) (cum : List Nat),
    s.dev.isDirect p.val = true → s.dev.portState p.val = psActive → cum = n.toList.map BitVec.toNat ++ [sh.toNat] →
    (coverFlits q.toNat (s.dev.port p.val).retry).length < (s.dev.port p.val).retry.length →
    Answers (.ackCredit p q n sh rtt) s
      (((s.dev.putPort p.val { s.dev.port p.val with
          used := ((s.dev.port p.val).used.zip ((cum.zip (s.dev.port p.val).lastCum).map fun e => aheadOf 65536 e.1 e.2)).map
            (fun e => e.1 - e.2),
          lastCum := cum, retry := (coverFlits q.toNat (s.dev.port p.val).retry).map (fun f => { f with resent := 0 }),
          progressNs := s.dev.clk.timeNs }).set (FABP_STATUS.rtt_ns p.val) rtt.toNat).drainQueue p.val
        (s.dev.port p.val).queue.length)) ∧
  (∀ (p : FabPort) (s : State), ((s.dev.port p.val).unrep ≠ 0 ∨ (s.dev.port p.val).owed = true) → (s.dev.port p.val).unrepNs + 100 ≤ s.dev.clk.timeNs →
    Answers (.ackCreditTimer p) s (s.dev.sendCredit p.val)) ∧
  (∀ (p : FabPort) (q : BitVec 12) (s : State) (before : List Flit) (f : Flit) (l : List Flit), s.dev.isDirect p.val = true →
    s.dev.portState p.val = psActive → (s.dev.port p.val).retry = before ++ f :: l → f.seq = q.toNat →
    (∀ g ∈ before, g.seq ≠ q.toNat) →
    Answers (.nak p q) s
      (((s.dev.incSat (FABP_ERR.retries p.val) 1).putPort p.val { s.dev.port p.val with
          retry := before ++ (f :: l).map fun f => { f with resent := f.resent + 1 } }).emit
        (.resend p.val q.toNat (f :: l).length))) ∧
  (∀ (p : FabPort) (fec : Bool) (s : State) (d : Dev), s.dev.isDirect p.val = true → s.dev.portState p.val = psActive →
    (fec = true ∨ ((s.dev.port p.val).retry.any fun f => decide (4 ≤ f.resent)) = true ∨
      ((s.dev.port p.val).retry ≠ [] ∧ (s.dev.port p.val).progressNs + 5000 ≤ s.dev.clk.timeNs)) →
    d = (s.dev.updPort p.val fun u => { u with retry := [], unrep := 0 }).setPort p.val psRetrain →
    Answers (.retrain p fec) s
      (if (s.dev.port p.val).retry = [] then d else d.sendNotice 1 ((d.peerId p.val).getD 0) p.val)) ∧
  (∀ (p : FabPort) (m : BitVec 8) (on : Bool) (s : State), s.dev.isEthernet p.val = true → s.dev.portState p.val = psActive →
    Answers (.pfcPause p m on) s
      ((s.dev.putPort p.val { s.dev.port p.val with
          paused := if on then (s.dev.port p.val).paused ||| (m.toNat &&& s.dev.get (FABP_ETH0.pfc_en p.val))
                    else (s.dev.port p.val).paused &&& (255 - (m.toNat &&& s.dev.get (FABP_ETH0.pfc_en p.val))) }).drainQueue p.val
        (s.dev.port p.val).queue.length))

/-- Heartbeats are counted, sent and missed. A heartbeat flit of a DIRECT port is counted in ACTIVE, HANDSHAKE and WITHDRAWN, and
in ACTIVE renews the peer and ends its death; every 1,000 ns an ACTIVE port sends a flit, or a packet to each named peer of an
ETHERNET port; 8,050 ns without a heartbeat of the peer of a DIRECT port, or of a named peer of an ETHERNET port, declare that
peer dead unless the port is WITHDRAWN, DISABLED or on its way back; a HEARTBEAT packet of a named peer of an ACTIVE ETHERNET
port is counted and renews that peer. (12_fabric_links.md, 13_fabric_addressing_and_routing.md) -/
def Obligations.HeartbeatsTakeEffect : Prop :=
  (∀ (p : FabPort) (x : BitVec 15) (n : BitVec 32) (s : State) (d : Dev), s.dev.isDirect p.val = true →
    s.dev.portState p.val = psActive →
    d = (s.dev.incWrap (FABP_HB.hb_rx p.val) 1).updPort p.val (fun u => { u with hbNs := some s.dev.clk.timeNs }) →
    Answers (.heartbeat p x n) s
      (if d.flag (FABP_STATUS.dead p.val) then (d.set (FABP_STATUS.dead p.val) 0).chooseMaster else d)) ∧
  (∀ (p : FabPort) (x : BitVec 15) (n : BitVec 32) (s : State), s.dev.isDirect p.val = true →
    (s.dev.portState p.val = psHandshake ∨ s.dev.portState p.val = psWithdrawn) →
    Answers (.heartbeat p x n) s (s.dev.incWrap (FABP_HB.hb_rx p.val) 1)) ∧
  (∀ (p : FabPort) (s : State) (d : Dev), s.dev.portState p.val = psActive →
    (s.dev.port p.val).hbSentNs + 1000 ≤ s.dev.clk.timeNs →
    d = s.dev.putPort p.val { s.dev.port p.val with hbSentNs := s.dev.clk.timeNs, hbCount := ((s.dev.port p.val).hbCount + 1) % 2 ^ 32 } →
    Answers (.heartbeatSend p) s
      (if d.isDirect p.val then
        d.emit (.flit p.val 0xA (toBytes 2 d.myId ++ toBytes 4 (s.dev.port p.val).hbCount ++ toBytes 1 p.val))
       else (d.hbPeersOf p.val).foldl (fun d q => d.toPort p.val (d.macOf p.val q) (d.mkControl q 0x07 [])) d)) ∧
  (∀ (p : FabPort) (x : Option (BitVec 15)) (s : State) (t : Nat), s.dev.isDirect p.val = true →
    (s.dev.port p.val).hbNs = some t → t + 8050 ≤ s.dev.clk.timeNs → s.dev.portState p.val ≠ psWithdrawn →
    s.dev.portState p.val ≠ psDisabled → (s.dev.port p.val).returning = false →
    Answers (.peerDead p x) s (s.dev.declarePeer p.val (s.dev.peerId p.val))) ∧
  (∀ (p : FabPort) (x : BitVec 15) (s : State) (t : Nat), s.dev.isDirect p.val = false → s.dev.isEthernet p.val = true →
    (s.dev.port p.val).hbNs = some t → t + 8050 ≤ s.dev.clk.timeNs →
    Tab.get (fun _ => 0) (s.dev.port p.val).hbPeers x.toNat - 1 + 8050 ≤ s.dev.clk.timeNs →
    s.dev.portState p.val ≠ psWithdrawn → s.dev.portState p.val ≠ psDisabled → (s.dev.hbPeersOf p.val).contains x.toNat = true →
    (s.dev.port p.val).deadPeers.contains x.toNat = false →
    Answers (.peerDead p (some x)) s (s.dev.declarePeer p.val (some x.toNat))) ∧
  (∀ (s : State) (p : Nat) (pkt : Packet) (d e : Dev), s.dev.takePacket opControl (some 7) = some (p, pkt, d) →
    d.isEthernet p = true → d.portState p = psActive → (d.hbPeersOf p).contains pkt.src.toNat = true →
    e = (d.incWrap (FABP_HB.hb_rx p) 1).updPort p (fun u =>
        { u with hbPeers := Tab.put (fun _ => 0) u.hbPeers pkt.src.toNat (d.clk.timeNs + 1),
                 deadPeers := u.deadPeers.filter (· != pkt.src.toNat) }) →
    Answers .heartbeatControl s
      (if (e.port p).deadPeers = [] then e.set (FABP_STATUS.dead p) 0 else e).chooseMaster)

/-- Lane retirement is requested, accepted, repeated and drained. A request from the peer is accepted and the port withdraws; an
own request unanswered for 10 µs goes out again; a drained port that is being disabled becomes DISABLED; FLT asks to retire a
lane whose errors lasted, and an ETHERNET port withdraws without asking; the FEC counts of a second add up in FABp_ERR and in each lane's history. (12_fabric_links.md,
15_fault_tolerance.md) -/
def Obligations.LaneRetirementTakesEffect : Prop :=
  (∀ (p : FabPort) (lane : BitVec 8) (s : State), s.dev.isDirect p.val = true → s.dev.portState p.val = psActive →
    (s.dev.port p.val).reqNs = none →
    Answers (.retire p 0 lane) s
      (((s.dev.updPort p.val fun u => { u with reqNs := none }).sendRetire p.val 1 lane.toNat).withdraw p.val lane.toNat)) ∧
  (∀ (p : FabPort) (s : State) (l t : Nat), (s.dev.port p.val).want = some l → s.dev.portState p.val = psActive →
    (s.dev.port p.val).reqNs = some t → t + 10000 ≤ s.dev.clk.timeNs →
    Answers (.retireRequestTimeout p) s
      ((s.dev.putPort p.val { s.dev.port p.val with reqNs := some s.dev.clk.timeNs }).sendRetire p.val 0 l)) ∧
  (∀ (p : FabPort) (s : State), s.dev.portState p.val = psWithdrawn → (s.dev.port p.val).retry = [] →
    (s.dev.port p.val).disabling = true →
    Answers (.withdrawDrained p) s
      (((s.dev.updPort p.val fun u => { u with disabling := false, retiring := none, want := none, hbNs := none }).setPort p.val
        psDisabled).fabRest (fabDom p.val))) ∧
  (∀ (p : FabPort) (l : Fin 8) (s : State) (d : Dev), (s.dev.port p.val).laneDue.contains l.val = true →
    s.dev.portState p.val = psActive → s.dev.jnlFull = false →
    d = (s.dev.jnlEvent 0x50 0x0007 (regAddr (FABP_CFG.off p.val)) l.val).updPort p.val
      (fun u => { u with laneDue := u.laneDue.filter (· != l.val) }) →
    Answers (.laneRetire p l) s
      (if d.isDirect p.val then
        (d.updPort p.val fun u => { u with want := some l.val, reqNs := some d.clk.timeNs }).sendRetire p.val 0 l.val
       else (d.fieldUpdate fun b => { b with lanes := b.lanes ++ [(p.val, l.val)] }).withdraw p.val l.val)) ∧
  (∀ (p : FabPort) (n : Vector (BitVec 32) 8) (u : BitVec 16) (s : State),
    Answers (.fecRateSecond p n u) s
      ((n.toList.map BitVec.toNat).zipIdx.foldl
        (fun d e => if (d.port p.val).laneDue.contains e.2 then d else d.laneSecond p.val e.2 e.1)
        ((s.dev.incWrap (FABP_ERR.fec_corrected p.val) ((n.toList.map BitVec.toNat).foldl (· + ·) 0)).incSat
          (FABP_ERR.fec_uncorrected p.val) u.toNat)))

/-- Packets reach a port as flits or in a frame, and are taken or refused. On an ACTIVE or WITHDRAWN DIRECT port, or, for
discovery packets, a QUARANTINE one, with k the distance from the HEAD's sequence to the expected one: a packet sent from
flit `first` ≤ k on and longer than k discards the flits before k, receives the rest in order and is taken; one that holds no
expected flit has all its flits discarded, with one NAK; a CRC error at flit i ≥ k leaves the flits before it received, the
rest discarded, and the packet not taken; a reserved kind counts one CRC error. On an ACTIVE ETHERNET port without security, a
frame of the port's EtherType is taken and another one counted; with security on, a valid protected frame moves its packet
number on and is taken, and one without a valid tag counts a security failure. (12_fabric_links.md,
13_fabric_addressing_and_routing.md) -/
def Obligations.PacketsAreTakenOrRefused : Prop :=
  (∀ (p : FabPort) (q : BitVec 12) (first shared k : Nat) (pkt : Packet) (s : State), s.dev.isDirect p.val = true →
    (s.dev.portState p.val = psActive ∨ s.dev.portState p.val = psWithdrawn ∨
      (s.dev.portState p.val = psQuarantine ∧ pkt.op.toNat = opControl ∧ within (ctlType pkt) 4 7 = true)) →
    k = aheadOf 4096 (s.dev.port p.val).rxSeq q.toNat →
    (first ≤ k → k < flitsOf pkt →
      Answers (.packetReceive p (.flits q first shared) pkt none) s
        (((s.dev.flitErrors p.val (k - first)).takeFlits p.val (flitsOf pkt - k)).takePkt p.val 0
          ((List.range 9).map fun i => if i = 8 then min shared (flitsOf pkt)
            else if i = pkt.tc.toNat then flitsOf pkt - min shared (flitsOf pkt) else 0) pkt)) ∧
    (k < first ∨ flitsOf pkt ≤ k →
      Answers (.packetReceive p (.flits q first shared) pkt none) s (s.dev.flitErrors p.val (flitsOf pkt - first))) ∧
    (∀ i, first ≤ k → k < i → i < flitsOf pkt →
      Answers (.packetReceive p (.flits q first shared) pkt (some (.crc i))) s
        (((s.dev.flitErrors p.val (k - first)).takeFlits p.val (i - k)).flitErrors p.val (flitsOf pkt - i))) ∧
    Answers (.packetReceive p (.flits q first shared) pkt (some .reservedKind)) s (s.dev.incSat (FABP_ERR.crc_err p.val) 1)) ∧
  (∀ (p : FabPort) (h : FrameHdr) (pkt : Packet) (s : State), s.dev.isEthernet p.val = true → s.dev.portState p.val = psActive →
    s.dev.flag (FABP_SEC.sec_en p.val) = false → h.sec = none →
    Answers (.packetReceive p (.frame h) pkt none) s
      (if h.etype.toNat = s.dev.get (FABP_ETH0.ethertype p.val) then s.dev.takePkt p.val h.pcp.toNat [flitsOf pkt] pkt
       else s.dev.incSat (FABP_HB.foreign_frames p.val) 1)) ∧
  (∀ (p : FabPort) (h : FrameHdr) (t : SecTag) (pkt : Packet) (s : State) (e : Dev), s.dev.isEthernet p.val = true →
    s.dev.portState p.val = psActive → s.dev.flag (FABP_SEC.sec_en p.val) = true → h.sec = some t →
    s.dev.secValid p.val t = true → h.etype.toNat = s.dev.get (FABP_ETH0.ethertype p.val) →
    e = s.dev.updPort p.val (fun u => { u with rxPn := u.rxPn.modify t.an.toNat fun n => max n (t.pn.toNat + 1) }) →
    Answers (.packetReceive p (.frame h) pkt none) s (e.takePkt p.val h.pcp.toNat [flitsOf pkt] pkt)) ∧
  (∀ (p : FabPort) (h : FrameHdr) (pkt : Packet) (s : State), s.dev.isEthernet p.val = true → s.dev.portState p.val = psActive →
    s.dev.flag (FABP_SEC.sec_en p.val) = true → (∀ t, h.sec = some t → s.dev.secValid p.val t = false) →
    h.etype.toNat = s.dev.get (FABP_ETH0.ethertype p.val) →
    Answers (.packetReceive p (.frame h) pkt none) s (s.dev.secFail p.val))

/-- WRITE, READ_REQ, READ_RESP, E2E_ACK, E2E_NACK and the end-to-end timers take effect. A new WRITE to a bay that holds its tag,
inside the bay, stores its payload and is owed an acknowledgement, and so does a manager's untagged WRITE to memory or
registers it may reach; a new READ_REQ of at least 1 byte inside the bay is answered with the bytes; a READ_RESP of status 0
delivers its part of the data and ends its request with the last part, and one with an error status ends its packet and fails
its owner; an E2E_ACK with an empty bitmap, or with no fault notice pending, ends what it covers; an E2E_NACK ends its packet
and fails its owner; owed acknowledgements go out after 1 µs; a packet unanswered for e2e_timeout_us is sent again while tries
remain, and then fails its owner as unreachable. (12_fabric_links.md) -/
def Obligations.EndToEndPacketsTakeEffect : Prop :=
  (∀ (s : State) (p b : Nat) (pkt : Packet) (d : Dev), s.dev.takePacket opWrite none = some (p, pkt, d) → d.rxClass pkt = .fresh →
    pkt.tag.toNat ≠ 0 → d.bayOfTag pkt.tag.toNat = some b → d.rangeOk b pkt.addr.toNat pkt.payload.length = true →
    s.dev.jnl.held.length < 1024 →
    Answers .write s (((d.putBayBytes b pkt.addr.toNat pkt.payload).rxMark pkt).ackDue pkt)) ∧
  (∀ (s : State) (p : Nat) (k : LKind) (pkt : Packet) (d : Dev), s.dev.takePacket opWrite none = some (p, pkt, d) →
    d.rxClass pkt = .fresh → pkt.tag.toNat = 0 → d.isManager pkt.src.toNat = true →
    d.managerRange pkt.addr.toNat pkt.payload.length = some k → s.dev.jnl.held.length < 1024 →
    Answers .write s (((if k = .regs then d.regBytesWrite (pkt.addr.toNat - regAddr 0) pkt.payload
      else d.putLocalBytes pkt.addr.toNat pkt.payload).rxMark pkt).ackDue pkt)) ∧
  (∀ (s : State) (p b : Nat) (pkt : Packet) (d : Dev), s.dev.takePacket opReadReq none = some (p, pkt, d) → d.rxClass pkt = .fresh →
    0 < pktNum pkt 24 4 → pkt.tag.toNat ≠ 0 → (d.rxMark pkt).bayOfTag pkt.tag.toNat = some b →
    (d.rxMark pkt).rangeOk b pkt.addr.toNat (pktNum pkt 24 4) = true →
    Answers (.readReq false) s
      ((d.rxMark pkt).readResp pkt 0 ((d.rxMark pkt).bayBytes b pkt.addr.toNat (pktNum pkt 24 4)))) ∧
  (∀ (s : State) (p : Nat) (pkt : Packet) (d : Dev) (e : SentPkt), s.dev.takePacket opReadResp none = some (p, pkt, d) →
    d.answered pkt = some e → e.pkt.op.toNat = opReadReq → pkt.status = 0 →
    Answers .readResp s
      ((d.readData e.owner (pkt.addr.toNat - e.pkt.addr.toNat) pkt.payload).readPart e (pkt.addr.toNat - e.pkt.addr.toNat))) ∧
  (∀ (s : State) (p : Nat) (pkt : Packet) (d : Dev) (e : SentPkt), s.dev.takePacket opReadResp none = some (p, pkt, d) →
    d.answered pkt = some e → e.pkt.op.toNat = opReadReq → pkt.status.toNat ≠ 0 → pkt.status.toNat ≠ 4 →
    Answers .readResp s ((d.releaseSent fun x => x == e).ownerFails e.owner (if pkt.status.toNat = 3 then 2 else 1))) ∧
  (∀ (s : State) (p : Nat) (pkt : Packet) (d f : Dev), s.dev.takePacket opAck none = some (p, pkt, d) →
    f = (d.acknowledge fun e => (e.pkt.dst == pkt.src && e.pkt.tc == pkt.tc && !e.pkt.multicast) && e.pkt.op.toNat != opReadReq &&
      ackCovers (pktNum pkt 24 4) (pktNum pkt 28 8) e.pkt.seq.toNat) →
    (pktNum pkt 28 8 = 0 ∨ f.flt.timers = []) → Answers .e2eAck s f) ∧
  (∀ (s : State) (p : Nat) (pkt : Packet) (d : Dev) (e : SentPkt), s.dev.takePacket opNack none = some (p, pkt, d) →
    d.answered pkt = some e →
    Answers .e2eNack s ((d.releaseSent fun x => x == e).ownerFails e.owner (if pkt.status.toNat = 3 then 2 else 1))) ∧
  (∀ (src : BitVec 15) (tc : BitVec 3) (s : State) (r : RxStream),
    r = Tab.get (fun _ => RxStream.reset) s.dev.fab.rx (8 * src.toNat + tc.toNat) → r.due ≠ 0 → r.firstNs + 1000 ≤ s.dev.clk.timeNs →
    Answers (.e2eAckCoalesce src tc) s (s.dev.sendAck src.toNat tc.toNat)) ∧
  (∀ (dst : BitVec 15) (tc : BitVec 3) (q : BitVec 32) (s : State) (e : SentPkt),
    s.dev.fab.sent.find? (fun e => e.pkt.dst.toNat == dst.toNat && e.pkt.tc.toNat == tc.toNat && e.pkt.seq.toNat == q.toNat) = some e →
    e.sentNs + 1000 * s.dev.get FAB_E2E.e2e_timeout_us ≤ s.dev.clk.timeNs → e.tries < s.dev.get FAB_E2E.e2e_retries →
    Answers (.e2eTimeout dst tc q) s
      (({ s.dev with fab := { s.dev.fab with sent := s.dev.fab.sent.map fun x => if x == e then { e with tries := e.tries + 1 } else x } } : Dev).resend
        { e with tries := e.tries + 1 })) ∧
  (∀ (dst : BitVec 15) (tc : BitVec 3) (q : BitVec 32) (s : State) (e : SentPkt),
    s.dev.fab.sent.find? (fun e => e.pkt.dst.toNat == dst.toNat && e.pkt.tc.toNat == tc.toNat && e.pkt.seq.toNat == q.toNat) = some e →
    e.sentNs + 1000 * s.dev.get FAB_E2E.e2e_timeout_us ≤ s.dev.clk.timeNs → s.dev.get FAB_E2E.e2e_retries ≤ e.tries →
    Answers (.e2eTimeout dst tc q) s
      (((s.dev.releaseSent fun x => x == e).incSat FAB_E2E_STATUS.unreachable 1).ownerFails e.owner 4))

/-- A control packet that is acknowledged end to end: a new one of the type has the effect `f`, is marked received and owed an
acknowledgement (R293, R309). -/
def Sys2Proof.Claims.ControlTakes (c : Instr) (type : Nat) (f : Dev → Packet → Dev) : Prop :=
  ∀ (s : State) (p : Nat) (pkt : Packet) (d : Dev), s.dev.takePacket opControl (some type) = some (p, pkt, d) →
    d.rxClass pkt = .fresh → Answers c s (((f d pkt).rxMark pkt).ackDue pkt)

/-- Announcements, measurements, PTP messages and PPS act on tick synchronisation. An announcement is recorded and the choice of
master made again; the best known key goes out each announce interval; keys older than three intervals go; a request from a
DIRECT neighbour is answered; the parent's answer to the outstanding request moves the clock by half the difference of the
two path times; SYNC, DELAY_REQ and DELAY_RESP are exchanged on ETHERNET ports, where the parent's SYNC_RESP brings the edges;
a pulse makes PPS present, aligns a master after three within 40 ns of a second, and 2 s without one end it; the next
measurement is asked for each sync interval.
(13_fabric_addressing_and_routing.md, 22_electrical_and_package.md) -/
def Obligations.SynchronisationTakesEffect : Prop :=
  (∀ (s : State) (p : Nat) (pkt : Packet) (d : Dev), s.dev.takePacket opControl (some 1) = some (p, pkt, d) →
    d.get FAB_ID.domain_id ≠ 0 →
    Answers .announce s
      (({ d with fab := { d.fab with sync := { d.fab.sync with
          anns := Tab.put (fun _ => none) d.fab.sync.anns (32768 * p + pktNum pkt 30 2 % 32768)
            (some { prio := pktNum pkt 26 1, noPps := if (pktNum pkt 25 1).testBit 1 then 0 else 1, id := pktNum pkt 28 2 % 32768,
                    dist := pktNum pkt 27 1, nonTc := (pktNum pkt 25 1).testBit 0, sender := pktNum pkt 30 2 % 32768,
                    ns := d.clk.timeNs }) } } } : Dev).chooseMaster)) ∧
  (∀ (s : State) (t : Nat) (d e : Dev), s.dev.fab.sync.begun = some t → s.dev.get FAB_ID.domain_id ≠ 0 →
    s.dev.fab.sync.annNs + s.dev.announceNs ≤ s.dev.clk.timeNs → d = s.dev.chooseMaster → d.knowsKey = true →
    e = { d with fab := { d.fab with sync := { d.fab.sync with
      annNs := d.clk.timeNs, annSeq := (d.fab.sync.annSeq + 1) % 2 ^ 32 } } } →
    Answers .announceSend s
      ((List.range 50).foldl (fun e p =>
        if e.isEthernet p && e.portLive p then (e.hbPeersOf p).foldl (fun e q => e.toPort p (e.macOf p q) d.announcePacket) e else e)
        ((List.range 7).foldl (fun e f =>
          match (e.faceLive f).find? fun p => e.peerNum p 24 2 == e.get FAB_ID.domain_id with
          | some p => e.toPort p 0 d.announcePacket
          | none => e) e))) ∧
  (∀ (s : State),
    Answers .announceAgeOut s
      (({ s.dev with fab := { s.dev.fab with sync := { s.dev.fab.sync with
          anns := s.dev.fab.sync.anns.filter fun e => match e.2 with
            | some a => decide (s.dev.clk.timeNs ≤ a.ns + 3 * s.dev.announceNs)
            | none => false } } } : Dev).chooseMaster)) ∧
  (∀ (t2 t3 : BitVec 64) (s : State) (p : Nat) (pkt : Packet) (d : Dev), s.dev.takePacket opControl (some 2) = some (p, pkt, d) →
    d.isDirect p = true →
    Answers (.syncReq t2 t3) s
      (d.toPort p 0 (d.mkControl pkt.src.toNat 0x03 [(28, 8, pktNum pkt 28 8), (36, 8, t2.toNat), (44, 8, t3.toNat)] d.edgePayload))) ∧
  (∀ (t4 : BitVec 64) (s : State) (p : Nat) (pkt : Packet) (d : Dev), s.dev.takePacket opControl (some 3) = some (p, pkt, d) →
    d.flag TCK_STATUS.master = false → d.get TCK_SYNC_STATUS.parent_port = p → d.isDirect p = false →
    pkt.src.toNat = d.fab.sync.parentId →
    Answers (.syncResp t4) s
      (if d.fab.sync.everSynced then d.takeEdges pkt.payload
       else { d with fab := { d.fab with sync := { d.fab.sync with edges := pkt.payload } } })) ∧
  (∀ (t4 : BitVec 64) (s : State) (p t1 : Nat) (pkt : Packet) (d : Dev), s.dev.takePacket opControl (some 3) = some (p, pkt, d) →
    d.flag TCK_STATUS.master = false → d.get TCK_SYNC_STATUS.parent_port = p → d.isDirect p = true →
    d.fab.sync.req = some (p, t1) → pktNum pkt 28 8 = t1 →
    Answers (.syncResp t4) s
      ((({ d with fab := { d.fab with sync := { d.fab.sync with req := none } } } : Dev).syncTo
        ((((pktNum pkt 36 8 : Int) - t1) - ((t4.toNat : Int) - pktNum pkt 44 8)) / 2)) pkt.payload)) ∧
  (∀ (q : FabPort) (t1 corr t2 : BitVec 64) (s : State), s.dev.flag TCK_STATUS.master = false →
    s.dev.get TCK_SYNC_STATUS.parent_port = q.val → s.dev.isEthernet q.val = true →
    Answers (.syncMsg q t1 corr t2) s
      (({ s.dev with fab := { s.dev.fab with sync := { s.dev.fab.sync with
          ptp := some (t1.toNat + corr.toNat, t2.toNat), delayT3 := some s.dev.gtime } } } : Dev).emit
        (.ptp q.val (s.dev.macOf q.val s.dev.fab.sync.parentId) (s.dev.get TCK_SYNC_CFG.ptp_domain) 1 s.dev.gtime))) ∧
  (∀ (q : FabPort) (src : BitVec 48) (t4 : BitVec 64) (s : State), s.dev.isEthernet q.val = true → s.dev.portLive q.val = true →
    Answers (.delayReq q { src := src, t4 := t4 }) s (s.dev.emit (.ptp q.val src.toNat (s.dev.get TCK_SYNC_CFG.ptp_domain) 9 t4.toNat))) ∧
  (∀ (q : FabPort) (t4 corr : BitVec 64) (s : State) (t1 t2 t3 : Nat) (o : Int) (d : Dev), s.dev.flag TCK_STATUS.master = false →
    s.dev.get TCK_SYNC_STATUS.parent_port = q.val → s.dev.isEthernet q.val = true → s.dev.fab.sync.ptp = some (t1, t2) →
    s.dev.fab.sync.delayT3 = some t3 →
    o = (((t4.toNat : Int) - (t3 + corr.toNat)) - ((t2 : Int) - t1)) / 2 →
    d = { s.dev with fab := { s.dev.fab with sync := { s.dev.fab.sync with ptp := none, delayT3 := none } } } →
    Answers (.delayResp q t4 corr) s
      (if s.dev.fab.sync.everSynced then d.measured o else d.syncTo o s.dev.fab.sync.edges)) ∧
  (∀ (s : State) (t : Nat), s.dev.fab.sync.ppsNs = some t → t + 2000000000 ≤ s.dev.clk.timeNs →
    Answers .ppsAbsent s
      ((({ s.dev with fab := { s.dev.fab with sync := { s.dev.fab.sync with ppsNs := none, ppsGood := 0 } } } : Dev).sets
        [(GLB_STATUS.pps_present, 0), (TCK_STATUS.pps_aligned, 0)]).chooseMaster)) ∧
  (∀ (s : State) (e : Dev),
    e = (({ s.dev with fab := { s.dev.fab with sync := { s.dev.fab.sync with ppsNs := some s.dev.clk.timeNs } } } : Dev).set
      GLB_STATUS.pps_present 1).chooseMaster →
    (e.flag TCK_STATUS.master = false → Answers .ppsPulse s e) ∧
    (∀ g, e.flag TCK_STATUS.master = true →
      g = (if min (e.gtime % 1000000000) (1000000000 - e.gtime % 1000000000) ≤ 40 then e.fab.sync.ppsGood + 1 else 0) →
      Answers .ppsPulse s
        (({ e with fab := { e.fab with sync := { e.fab.sync with ppsGood := g } } } : Dev).fresh.2.sets
          [(TCK_STATUS.pps_aligned, (decide (3 ≤ g)).toNat),
           (TCK_OFFSET.freq_adj, ((max (-20000) (min 20000 (Config.freqAdj e.clk.freeCtr).toInt)) % 65536).toNat)]))) ∧
  (∀ (s : State) (t p : Nat) (d : Dev), s.dev.fab.sync.begun = some t → s.dev.get FAB_ID.domain_id ≠ 0 →
    s.dev.fab.sync.measNs + 1000 * s.dev.get TCK_SYNC_CFG.sync_interval_us ≤ s.dev.clk.timeNs →
    d = ({ s.dev with fab := { s.dev.fab with sync := { s.dev.fab.sync with measNs := s.dev.clk.timeNs } } } : Dev) →
    p = d.get TCK_SYNC_STATUS.parent_port →
    Answers .syncMeasure s
      ((List.range 50).foldl (fun d p =>
        if d.isEthernet p && d.portLive p then
          (d.hbPeersOf p).foldl (fun d q =>
            (d.emit (.ptp p (d.macOf p q) (d.get TCK_SYNC_CFG.ptp_domain) 0 d.gtime)).toPort p (d.macOf p q)
              (d.mkControl q 0x03 [] d.edgePayload)) d
        else d)
        (if d.flag TCK_STATUS.master = true ∨ p = 0x3F ∨ d.isDirect p = false then d else d.toPort p 0 (d.mkControl 0 0x02 []))))

/-- Binds, snapshots and commits act on the sister state. A new SISTER_BIND or SISTER_REPLY has its effect and is owed an
acknowledgement; a bind unanswered for 1 ms is repeated, or gone after the third try; a snapshot with one destination, the
host or a sister, is written there once read, its tags behind the list where it is encrypted, and with none it only ends its
reading; a new SNAP_COMMIT makes the written generation of its slot the newest.
(15_fault_tolerance.md) -/
def Obligations.SisterAndSnapshotEventsTakeEffect : Prop :=
  ControlTakes .sisterBind 0x11 (fun d pkt => d.sisterBind pkt) ∧
  ControlTakes .sisterReply 0x12 (fun d pkt => d.sisterReply pkt) ∧
  (∀ (b : BayId) (i : Fin 2) (s : State), s.dev.bindState b.val i.val = biBinding → (s.dev.bindOf b.val i.val).sentNs + 1000000 ≤ s.dev.clk.timeNs →
    Answers (.sisterBindRetry b i) s
      (if (s.dev.bindOf b.val i.val).tries < 3 then s.dev.sendBind b.val i.val else s.dev.setBind b.val i.val biGone)) ∧
  (∀ (b : BayId) (s : State) (n : Snap) (units : List (List Byte)) (tags header : List Byte) (d : Dev),
    (s.dev.fltBay b.val).snap = some n → n.reading = true →
    units = (s.dev.listUnits b.val).zipIdx.map (fun e => cryptUnit n.key n.version e.2 (s.dev.bayBytes b.val e.1 4096)) →
    tags = (match n.key with
      | some k => units.zipIdx.flatMap fun e => toBytes 16 (Config.gcmTag k (2 ^ 32 * n.version + e.2) e.1).toNat
      | none => []) →
    header = (n.header.take (64 + 16 * (s.dev.snapList b.val).length) ++ tags ++ List.replicate 4096 0).take 4096 →
    d = s.dev.putFltBay b.val { s.dev.fltBay b.val with snap := some { n with header := header, reading := false } } →
    (n.dests = [] → Answers (.snapshotReadDone b) s d) ∧
    (n.dests = [2] →
      Answers (.snapshotReadDone b) s
        ((d.putBayBytes b.val (d.get (FLT_BAY_HOST.host_base b.val) + (d.fltBay b.val).hostGen * d.genBytes b.val)
          (header :: units).flatten).snapDest b.val 2)) ∧
    (∀ i, i < 2 → n.dests = [i] → Answers (.snapshotReadDone b) s
      ((header :: units).zipIdx.foldl (fun f x =>
        f.sendHeld (f.mkPacket ((d.bindOf b.val i).dev.getD 0) 2 opWrite 0
          ((d.bindOf b.val i).slotBase + (d.bindOf b.val i).gen * f.genBytes b.val + 4096 * x.2) 0 x.1) (.snap b.val i)) d))) ∧
  ControlTakes .snapCommit 0x13 (fun d pkt =>
    { d with flt := { d.flt with slots := d.flt.slots.map fun s =>
        if s.dev == pkt.src.toNat && s.tag == pktNum pkt 25 2 then
          { s with gen0 := if pktNum pkt 27 1 % 2 = 0 then some (pktNum pkt 28 8) else s.gen0,
                   gen1 := if pktNum pkt 27 1 % 2 = 1 then some (pktNum pkt 28 8) else s.gen1,
                   newest := some (pktNum pkt 27 1 % 2) }
        else s } })

/-- Refill requests and replies and fault notices take effect. A new REFILL_REQ or REFILL_REPLY has its effect and is owed an
acknowledgement; a kind-0 notice names its device dead and arms the resend; any other notice is counted as a link notice and
arms the resend; 6 µs after a notice every packet sent before it to a live device goes out again. (15_fault_tolerance.md) -/
def Obligations.RefillAndFaultEventsTakeEffect : Prop :=
  ControlTakes .refillReq 0x14 (fun d pkt => d.refillReq pkt) ∧
  ControlTakes .refillReply 0x15 (fun d pkt => d.refillReply pkt) ∧
  (∀ (s : State) (p : Nat) (pkt : Packet) (d : Dev), s.dev.takePacket opControl (some 0x10) = some (p, pkt, d) → pktNum pkt 25 1 = 0 →
    Answers .faultNotice s ((d.nameDead (pktNum pkt 26 2 % 32768) (pktNum pkt 32 8)).noticeResend)) ∧
  (∀ (s : State) (p : Nat) (pkt : Packet) (d : Dev), s.dev.takePacket opControl (some 0x10) = some (p, pkt, d) → pktNum pkt 25 1 ≠ 0 →
    Answers .faultNotice s ((d.incSat FLT_STATUS.link_notices 1).noticeResend)) ∧
  (∀ (s : State) (t : Nat) (rest : List Nat) (d : Dev), s.dev.flt.timers = t :: rest → t + 6000 ≤ s.dev.clk.timeNs →
    d = { s.dev with flt := { s.dev.flt with timers := rest } } →
    Answers .faultResendTimer s
      ((d.fab.sent.filter fun e => decide (e.sentNs < t) && !d.isDead e.pkt.dst.toNat).foldl (fun d e => d.resend e) d))

/-- R329, R332: in the one step of a bay, an instance that is issued, or that is unscheduled, not started and has its input peg
reached and is then issued, sends its own part once its input is ready. -/
def Sys2Proof.Claims.ColRuns (c : BayId → BitVec 8 → Instr) (op : Nat) (send : Dev → Inst → Dev) : Prop :=
  ∀ (b : BayId) (t : BitVec 8) (s : State) (r : StepRec) (q : ColDesc) (d : Dev) (u : Inst), s.dev.colSteps b.val = [r] →
    t.toNat < s.dev.get (COL_BAY_TABLE.tbl_len b.val) → q = ColDesc.of (s.dev.colWords b.val t.toNat) → q.op = op →
    d = (if !q.scheduled && !s.dev.colStarted b.val t.toNat (r.no % 65536) && s.dev.colInput q then
      s.dev.colIssue b.val t.toNat (r.no % 65536) else s.dev) →
    d.inst b.val t.toNat (r.no % 65536) = some u → u.issued = true → u.sending = false → d.colInput u.q = true → u.q.op = op →
    Answers (c b t) s (send (d.putInst { u with sending := true }) { u with sending := true })

/-- Collectives send their part, packets are received and instances complete. An issued instance of each of the four ops, with
its input ready, sends its own part once, and of the reducing ops leaves instead where its bay withholds; a new COLLECTIVE
packet, and a new LEAVE, act on the bay that holds the tag, and get a NACK where none does; a complete instance closes,
increments its done peg, if it has one, returns its bit to the gate, if it gates, and lets waiting openings follow.
(14_collectives_and_mapping.md) -/
def Obligations.CollectiveEventsTakeEffect : Prop :=
  ColRuns .reduceScatter 0 (fun d u => if d.flag (COL_BAY_STATUS.withholding u.bay) then d.withhold u else d.sendContribs u) ∧
  ColRuns .allGather 1 (fun d u => d.sendGather u) ∧
  ColRuns .allReduce 2 (fun d u => if d.flag (COL_BAY_STATUS.withholding u.bay) then d.withhold u else d.sendContribs u) ∧
  ColRuns .allToAll 3 (fun d u => d.sendBlocks u) ∧
  (∀ (s : State) (p b : Nat) (pkt : Packet) (d : Dev), s.dev.takePacket opColl none = some (p, pkt, d) → d.rxClass pkt = .fresh →
    d.bayOfTag pkt.tag.toNat = some b → Answers .collective s (d.colReceive b pkt)) ∧
  (∀ (s : State) (p : Nat) (pkt : Packet) (d : Dev), s.dev.takePacket opColl none = some (p, pkt, d) → d.rxClass pkt = .fresh →
    d.bayOfTag pkt.tag.toNat = none → Answers .collective s (d.nack pkt 1)) ∧
  (∀ (s : State) (p b : Nat) (pkt : Packet) (d : Dev), s.dev.takePacket opControl (some 0x30) = some (p, pkt, d) →
    d.rxClass pkt = .fresh → d.bayOfTag pkt.tag.toNat = some b →
    Answers .leave s (((d.memberLeaves b (pktNum pkt 25 1) (pktNum pkt 26 2) (pktNum pkt 28 2)).rxMark pkt).ackDue pkt)) ∧
  (∀ (s : State) (p : Nat) (pkt : Packet) (d : Dev), s.dev.takePacket opControl (some 0x30) = some (p, pkt, d) →
    d.rxClass pkt = .fresh → d.bayOfTag pkt.tag.toNat = none → Answers .leave s (d.nack pkt 1)) ∧
  (∀ (b : BayId) (t : BitVec 8) (s : State) (u : Inst) (r : StepRec) (d e : Dev), s.dev.instDone b.val t.toNat = some (u, r) →
    d = ({ s.dev with col := { s.dev.col with
      insts := s.dev.col.insts.filter (fun v => !v.isFor b.val t.toNat u.step),
      closed := s.dev.col.closed ++ [u],
      done := s.dev.col.done ++ [(b.val, t.toNat, u.step)] } } : Dev).showCol →
    e = (if u.q.donePeg = 0xFFF then d else d.incPeg u.q.pegAg u.q.donePeg 1 2) →
    Answers (.collectiveComplete b t) s
      (if u.q.gating then e.gateReturn b.val r (u.flags || u.lost) else e).openWaiting)

/-- An interval's draw is the work wanted, held to the limit and the slews, with holding load. With site_en = 0: the work is the
gained raw sum held to the lower of the next E_eff and the draw plus slew_up; the holding load fills up to the floor, which
in NORMAL mode is the higher of the draw less slew_dn and the pre-thaw target, within the limit and hold_max_w; the draw is
their sum, and memory and journal are unchanged. (16_power_and_load_shaping.md) -/
def Obligations.GovernorIntervalSetsTheDraw : Prop :=
  ∀ (raw : BitVec 32) (s : State) (want upper work floor hold : Nat), s.dev.flag PWR_THAW_CFG.site_en = false →
    want = raw.toNat * s.dev.pwr.gainNow / 65536 →
    upper = min (s.dev.effNext (s.dev.get PWR_SLEW_DN.slew)) (s.dev.pwr.draw + s.dev.get PWR_SLEW_UP.slew) →
    work = min want upper →
    floor = (if s.dev.get PWR_STATUS.mode = 0 then
      max (s.dev.pwr.draw - s.dev.get PWR_SLEW_DN.slew) (1000000 * s.dev.get PWR_TARGET.prethaw_w) else 0) →
    hold = min (min floor upper - work) (1000000 * s.dev.get PWR_FROST.hold_max_w) →
    ∃ e, Answers (.governorInterval raw) s e ∧ e.pwr.draw = work + hold ∧ e.pwr.hold = hold ∧ e.pwr.want = want ∧
      e.mem = s.dev.mem ∧ e.jnl = s.dev.jnl

/-- The power modes end, PWR reads its sensors, and alerts, trips and domains act. POWER mode ends 1 s after its cause and
THERMAL mode 100 ms after the last hot reading; a valid PMBus reading calibrates and checks the draw; 100 ms without one set
cal_fault; an alert of a regulator and an undervoltage enter POWER mode, and a short supply of an AG ends its bay's step with
INTERNAL; a confirmed clock raise lowers aclk_state by one, and one not confirmed in 500 µs sets cal_fault; junction
temperatures are recorded, and from 110 °C on enter THERMAL mode; a permitted domain transition ends; THERMTRIP turns every
domain but AO off, records it and stops the device; MEM in OFF loses HBM, the sister slots and what the journal ring held.
(16_power_and_load_shaping.md, 22_electrical_and_package.md) -/
def Obligations.PowerEventsTakeEffect : Prop :=
  (∀ (s : State), s.dev.get PWR_STATUS.mode = 1 → s.dev.pwr.causeNs + 1000000000 ≤ s.dev.clk.timeNs →
    Answers .powerModeExit s ((s.dev.set PWR_STATUS.mode 0).refreshEff.emit (.telemetry 8 [0]))) ∧
  (∀ (s : State) (t : Nat), s.dev.get PWR_STATUS.mode = 2 → s.dev.pwr.coolNs = some t → t + 100000000 ≤ s.dev.clk.timeNs →
    Answers .thermalModeExit s ((s.dev.set PWR_STATUS.mode 0).refreshEff.emit (.telemetry 8 [0]))) ∧
  (∀ (m : BitVec 32) (s : State) (d : Dev), s.dev.pwrRunning = true →
    d = (s.dev.calibrate m.toNat).checkOverdraw m.toNat →
    Answers (.calibrationRead (some m) 0) s (d.setPwr fun u => { u with raws := ((0, 0) :: u.raws).take 10 })) ∧
  (∀ (s : State), s.dev.pwrRunning = true → s.dev.pwr.validNs + 100000000 ≤ s.dev.clk.timeNs →
    Answers .calibrationTimeout s
      ((s.dev.setPwr fun u => { u with calFault := true, goodNs := none }).set PWR_EVENT.cal_fault 1)) ∧
  (∀ (m : Option (BitVec 32)) (w : BitVec 16) (s : State) (d : Dev), s.dev.pwrRunning = true →
    d = (match m with
      | some m => (s.dev.calibrate m.toNat).checkOverdraw m.toNat
      | none => s.dev.setPwr fun u => { u with goodNs := none }) → w ≠ 0 →
    Answers (.calibrationRead m w) s ((d.setPwr fun u => { u with raws := ((0, 0) :: u.raws).take 10 }).powerMode)) ∧
  (∀ (w : BitVec 16) (s : State), s.dev.pwrRunning = true → w ≠ 0 → Answers (.pmbAlert w) s (s.dev.powerMode.emit (.pmbus 3 0))) ∧
  (∀ (rail : Fin 21) (s : State),
    Answers (.railUndervoltage rail false) s ((s.dev.setBit GLB_RAIL.uv rail.val).incSat GLB_RAIL.uv_count 1).powerMode) ∧
  (∀ (rail : Fin 21) (s : State) (d : Dev) (b : Nat),
    d = ((s.dev.setBit GLB_RAIL.uv rail.val).incSat GLB_RAIL.uv_count 1).powerMode → 5 ≤ rail.val →
    d.bayOfAg (rail.val - 5) = some b →
    Answers (.railUndervoltage rail true) s (d.endStepEarly b stInternal)) ∧
  (∀ (s : State) (t : Nat), s.dev.pwr.clockUp = some t → s.dev.pwrRunning = true →
    Answers (.clockStateConfirm true) s
      ((s.dev.setPwr fun u => { u with clockUp := none, clockAgain := false }).set PWR_STATUS.aclk_state
        (s.dev.get PWR_STATUS.aclk_state - 1))) ∧
  (∀ (s : State) (t : Nat), s.dev.pwr.clockUp = some t → s.dev.pwrRunning = true → t + 500000 ≤ s.dev.clk.timeNs →
    Answers (.clockStateConfirm false) s
      ((s.dev.setPwr fun u => { u with clockUp := none, clockAgain := true }).set PWR_EVENT.cal_fault 1)) ∧
  (∀ (v : Vector (BitVec 8) 64) (s : State) (tj : Nat) (d : Dev), tj = (v.toList.map BitVec.toNat).foldl max 0 →
    d = (s.dev.sets [(PWR_THERM.tj_max, tj), (PWR_THERM.hot_sensor, ((v.toList.map BitVec.toNat).idxOf? tj).getD 0)]).setPwr
      (fun u => { u with coolNs := if tj < 100 then some (u.coolNs.getD s.dev.clk.timeNs) else none }) →
    Answers (.junctionSample v) s (if 110 ≤ tj then d.thermalMode else d).warmCheck) ∧
  (∀ (k : DomId) (s : State), s.dev.flag (PWR_DOM.moving k.val) = true → s.dev.pwrRunning = true →
    s.dev.domainOk k.val (s.dev.get (PWR_DOM.req k.val)) = true → s.dev.holdTakesUp k.val (s.dev.get (PWR_DOM.req k.val)) = true →
    Answers (.domainTransitionDone k) s (s.dev.domainReach k.val (s.dev.get (PWR_DOM.req k.val)))) ∧
  (∀ (s : State) (doms : List Nat) (d : Dev), s.dev.pwr.trip = false →
    doms = (List.range 20).filter (fun k => k != 0 && s.dev.get (PWR_DOM.state k) != 3) →
    d = doms.foldl (fun d k => d.domainReach k 3) ((s.dev.setPwr fun u => { u with trip := true, hold := 0 }).emit .thermtrip) →
    Answers .thermalTrip s
      ((d.jnlEventAfter 0x50 0x0051 (regAddr PWR_STATUS.off) (doms.foldl (fun m k => m + 2 ^ k) 0)).bootFail 0x0B)) ∧
  (∀ (d : Dev), d.domainReach 19 3 = ({ d.sets [(PWR_DOM.state 19, 3), (PWR_DOM.moving 19, 0)] with
      mem := { d.mem with loc := d.mem.loc.filter fun e => decide (0x8000000000 ≤ e.1) },
      flt := { d.flt with slots := [] },
      jnl := { d.jnl with lostBelow := if d.boot.early then max d.jnl.lostBelow d.jnl.earlyFrom else d.jnlSeq } } : Dev))

/-- A control packet of a type stands at the head of the receive queues of the management port, and none of the type has come
from the fabric; `d` is the device once it is taken (R463). -/
def Sys2Proof.Claims.segTakes (s : State) (type : Nat) (fr : Frame) (pkt : Packet) (d : Dev) : Prop :=
  (s.dev.fab.inbox.any fun e => e.pkt.op.toNat == opControl && ctlType e.pkt == type) = false ∧
  ∃ q, s.dev.segHead = some (q, fr, pkt) ∧ ctlType pkt = type ∧ d = s.dev.served q

/-- Token windows, coordinator announcements, requests and grants take effect. A new window with site_en = 0 begins with the
grant made for it; an announcement of the device's own site, from the fabric or the segment, is heard with its path and the
election made again; a coordinator announces itself every 10 ms; silent coordinators are forgotten; a new request, from
either, is taken by the coordinator of the site; a new grant of the site, from either, is held where its window is yet to
come and counted as late otherwise. What the fabric brought is owed an acknowledgement. (16_power_and_load_shaping.md) -/
def Obligations.TokenExchangeTakesEffect : Prop :=
  (∀ (s : State), s.dev.pwr.window < s.dev.windowNow → s.dev.flag PWR_THAW_CFG.site_en = false → s.dev.pwr.forcedW = 0 →
    s.dev.pwr.asked = none → s.dev.flag PWR_COORD.is_coord = false →
    Answers .tokenWindow s
      (s.dev.setPwr fun u => { u with
        window := s.dev.windowNow, rise := 0, forcedW := 0,
        token := ((s.dev.pwr.grants.find? fun g => g.1 == s.dev.windowNow).map (·.2)).getD 0,
        grants := u.grants.filter fun g => decide (s.dev.windowNow < g.1) })) ∧
  (∀ (s : State) (path : Nat) (pkt : Packet) (d : Dev),
    ((∃ p, s.dev.takePacket opControl (some 0x20) = some (p, pkt, d) ∧ path = 1) ∨ (∃ fr, segTakes s 0x20 fr pkt d ∧ path = 2)) →
    pktNum pkt 26 2 = d.get PWR_THAW_CFG.site_id →
    Answers .coordAnnounce s
      ((d.setPwr fun u => { u with heard := (d.coordsHeard.filter fun x => !(x.dev == pktNum pkt 28 2 % 32768 && x.path == path)) ++
        [{ prio := pktNum pkt 25 1, dev := pktNum pkt 28 2 % 32768, tokW := pktNum pkt 32 2, ns := d.clk.timeNs,
           path := path }] }).electCoord)) ∧
  (∀ (s : State) (d : Dev) (p : Packet), d = s.dev.electCoord → d.pwrRunning = true → d.flag PWR_COORD.is_coord = true →
    d.pwr.coordNs + 10000000 ≤ d.clk.timeNs →
    p = (d.setPwr fun u => { u with coordNs := d.clk.timeNs, coordSeq := (d.pwr.coordSeq + 1) % 2 ^ 32 }).mkControl 0 0x20
      [(25, 1, d.get PWR_THAW_CFG.coord_prio), (26, 2, d.get PWR_THAW_CFG.site_id), (28, 2, d.myId),
       (30, 2, d.get PWR_THAW_CFG.tok_window_ticks), (32, 2, d.get PWR_SITE.tok_w), (34, 2, d.get PWR_THAW_CFG.step_w),
       (36, 4, d.pwr.coordSeq)] →
    Answers .coordAnnounceSend s
      (((d.setPwr fun u => { u with coordNs := d.clk.timeNs, coordSeq := (d.pwr.coordSeq + 1) % 2 ^ 32 }).broadcast 0 p).sendSegment
        3 groupMac { p with broadcast := true })) ∧
  (∀ (s : State), Answers .coordinatorLost s (s.dev.setPwr fun u => { u with heard := s.dev.coordsHeard }).electCoord) ∧
  (∀ (s : State) (p : Nat) (pkt : Packet) (d : Dev), s.dev.takePacket opControl (some 0x21) = some (p, pkt, d) →
    d.rxClass pkt = .fresh → Answers .tokenReq s (((d.tokenReq 1 pkt).rxMark pkt).ackDue pkt)) ∧
  (∀ (s : State) (fr : Frame) (pkt : Packet) (d : Dev), segTakes s 0x21 fr pkt d → Answers .tokenReq s (d.tokenReq 2 pkt)) ∧
  (∀ (s : State) (p : Nat) (pkt : Packet) (d e : Dev), s.dev.takePacket opControl (some 0x22) = some (p, pkt, d) →
    d.rxClass pkt = .fresh → pktNum pkt 25 2 = d.get PWR_THAW_CFG.site_id →
    e = (if pktNum pkt 32 6 ≤ max d.windowNow d.pwr.window then (d.incSat PWR_THAW_STAT.late_grants 1).set PWR_EVENT.late_grant 1
      else (d.setPwr fun u => { u with grants := u.grants ++ [(pktNum pkt 32 6, pktNum pkt 38 4 * 1000)] }).incWrap
        PWR_THAW_COUNT.tokens 1) →
    Answers .tokenGrant s ((e.rxMark pkt).ackDue pkt)) ∧
  (∀ (s : State) (fr : Frame) (pkt : Packet) (d : Dev), segTakes s 0x22 fr pkt d → pktNum pkt 25 2 = d.get PWR_THAW_CFG.site_id →
    Answers .tokenGrant s
      (if pktNum pkt 32 6 ≤ max d.windowNow d.pwr.window then (d.incSat PWR_THAW_STAT.late_grants 1).set PWR_EVENT.late_grant 1
      else (d.setPwr fun u => { u with grants := u.grants ++ [(pktNum pkt 32 6, pktNum pkt 38 4 * 1000)] }).incWrap
        PWR_THAW_COUNT.tokens 1))

/-- Watchdog, trap and memory error restart a core; a restart and a stage op end. A running core with fewer than three recent
restarts restarts with cause 1, 2 or 3; a restart of a core other than SEC ends with its time recorded; a stage op whose
source is device memory ends with role B valid and staged set where the bundle passes its checks, and otherwise fails with
its reason. (17_firmware.md) -/
def Obligations.FirmwareCoreEventsTakeEffect : Prop :=
  (∀ (c : CoreId) (s : State) (d e : Dev), s.dev.coreState c.val = 0 → d = s.dev.showRecent c.val →
    (Tab.get (fun _ => []) d.fw.times c.val).length < 3 →
    e = (d.setFw fun u => { u with
      times := Tab.put (fun _ => []) u.times c.val (d.clk.timeNs :: Tab.get (fun _ => []) d.fw.times c.val) }).showRecent c.val →
    Answers (.watchdog c) s ((e.beginRestart c.val 1).set GLB_FW_EVENT.restarted 1) ∧
    Answers (.fatalTrap c) s ((e.beginRestart c.val 2).set GLB_FW_EVENT.restarted 1) ∧
    Answers (.coreMemoryError { core := c, lost := none }) s ((e.beginRestart c.val 3).set GLB_FW_EVENT.restarted 1)) ∧
  (∀ (c : CoreId) (us : BitVec 16) (s : State) (d : Dev), c.val ≠ 0 → (s.dev.coreState c.val = 1 ∨ s.dev.coreState c.val = 2) →
    s.dev.fw.job = none → s.dev.fw.restarts = [] → s.dev.secRunning = true →
    d = (((s.dev.sets [(GLB_FW_CORE.state c.val, 0), (GLB_FW_CORET.last_restart_us c.val, us.toNat)]).setFw
      fun u => { u with begun := Tab.put (fun _ => 0) u.begun c.val 0 })).coreBack c.val → d.fw.job = none → d.fw.restarts = [] →
    Answers (.coreRestartDone c us) s d.fwAdvance) ∧
  (∀ (s : State) (x : Via) (a n : Nat) (l : List Byte) (b : Bundle) (d : Dev), s.dev.fw.stage = some x → s.dev.secFree = true →
    a = s.dev.get GLB_FW_STAGE0.src → n = s.dev.get GLB_FW_STAGE1.len → localKind a = .hbm → a ≠ s.dev.get MGT_STAGE.stage_base →
    l = s.dev.localBytes a n → b = { level := imgNat l 8 4, images := (List.range 4).map (bundleInfo l) } →
    d = { s.dev with board := { s.dev.board with slots := s.dev.board.slots.set (1 - s.dev.get GLB_FW_SLOTS.a_phys) b } } →
    Answers (.stageDone true) s
      (if s.dev.bundleReason l ≠ 0 then s.dev.stageFails (s.dev.bundleReason l)
       else ((d.setFw fun u => { u with stage := none }).sets
          [(GLB_FW_SLOTS.staging, 0), (GLB_FW_SLOTS.b_valid, 1), (GLB_FW_LEVELS.b_level, b.level), (GLB_FW_CMDSTAT.result, 2),
           (GLB_FW_EVENT.staged, 1)]).jnlEventAfter 0x10 0x0020 (regAddr GLB_FW_CMD.off) b.level))

/-- Seals, export polls, freed room, DOE requests and IDE failures take effect. A seal that is due is made while SEC runs and
noted while it does not; an export poll takes the consumer's sequence and copies on; freed room lets queued events, waiting
joints, held writes and the firmware that waits for room follow in that order; a DOE request on a linked port is served while SEC runs; an IDE failure is
recorded, counted and journaled. (18_security_and_journal.md) -/
def Obligations.SecurityAndJournalEventsTakeEffect : Prop :=
  (∀ (s : State), s.dev.sealTime = true → s.dev.secRunning = true → Answers .seal s s.dev.seal) ∧
  (∀ (s : State), s.dev.sealTime = true → s.dev.secRunning = false →
    Answers .seal s (s.dev.setJnl fun j => { j with sealDue := true })) ∧
  (∀ (s : State) (d e : Dev), d = (s.dev.drainEvents s.dev.jnl.queued.length).commitWaiting →
    e = d.drainWrites d.jnl.held.length →
    Answers .journalRoomFreed s (if e.jnlFull then e else e.secResume.fwAdvance).jnlShow) ∧
  (∀ (s : State) (p a : Nat), s.dev.flag JNL_CFG.export_en = true → s.dev.exportPlace = some (p, a) →
    s.dev.untranslated p 0 a 64 = false →
    Answers (.exportPoll true) s (s.dev.setJnl fun j => { j with consumedSeq := ofBytes (s.dev.hostBytes p a 8) }).exportRun) ∧
  (∀ (p : HostPort) (r : BitVec 48) (msg : List Byte) (s : State), s.dev.flag (HIF_PORT_STATUS.link_up p.val) = true →
    s.dev.flag SEC_STATUS.puf_ok = true → s.dev.secRunning = true →
    Answers (.spdmRequest (.doe p) r msg) s (s.dev.spdmServe (.doe p) r.toNat msg)) ∧
  (∀ (p : HostPort) (k : Fin 9) (s : State),
    Answers (.ideFail p k) s
      ((({ s.dev with sec := { s.dev.sec with
          insecure := if s.dev.sec.insecure.contains (p.val, k.val) then s.dev.sec.insecure else s.dev.sec.insecure ++ [(p.val, k.val)] } } : Dev).set
          SEC_EVENT.ide_fail 1).jnlEventAfter 0x50 (Config.ideEvent p.val k.val % 65536) (regAddr SEC_EVENT.off)
            (Config.ideEvent p.val k.val / 65536)))

/-- A request message on the segment that is not a repeated one of a peer is performed and answered, and a peer's answer kept;
one that repeats the sequence of the kept answer is counted and answered again from it. A request that the register path
would hold (`held`) is one that a full journal leaves waiting (R430, R464 to R467). -/
def Sys2Proof.Claims.ServesRequest (c : Instr) (type q : Nat) (held : Bool) (perform : Dev → Bool → Msg → Dev × Msg) : Prop :=
  ∀ (s : State) (k : Nat) (fr : Frame) (m : Msg) (d e : Dev), s.dev.mgtHead = some (k, fr) →
    fr.etype.toNat = s.dev.get MGT_CFG.mgmt_etype → readMsg fr.payload = .ok m → m.type = type → d = s.dev.served k →
    ((∀ i g, d.peerIndex fr.src.toNat = some i → Tab.get (fun _ => none) d.mgt.kept i = some g → g.1 ≠ m.seq) →
      e = (perform d (d.permitted fr.src.toNat false) m).1.answerPeer q fr.src.toNat
        (perform d (d.permitted fr.src.toNat false) m).2 →
      (held = true → e.jnl.held.length = s.dev.jnl.held.length ∧ s.dev.jnl.held.length < 1024) → Answers c s e) ∧
    (∀ i g, d.peerIndex fr.src.toNat = some i → Tab.get (fun _ => none) d.mgt.kept i = some g → g.1 = m.seq →
      e = (d.incSat MGT_MSGCNT.dup 1).putTxq q (d.txq q ++ [{ frame := g.2, attempts := 0 }]) →
      (held = true → e.jnl.held.length = s.dev.jnl.held.length ∧ s.dev.jnl.held.length < 1024) → Answers c s e)

/-- DISCOVER, ASSIGN and the management messages are served. A DISCOVER, a DISCOVER_REPLY and an ASSIGN from the fabric follow
their source route and act at its end; a DISCOVER_REPLY on an ETHERNET port brings a peer's record; on the segment, a DISCOVER
to the device's own address is answered at once and one to a group after a drawn delay, a reply reaches the manager and an
ASSIGN from a permitted source acts; a delayed answer whose time has come goes out; REG_READ, REG_WRITE and STAGE_DATA at the
head of the receive queues are performed and answered, a peer's repeated one from the kept answer.
(13_fabric_addressing_and_routing.md, 20_management_port.md) -/
def Obligations.ManagementMessagesTakeEffect : Prop :=
  (∀ (s : State) (p : Nat) (pkt : Packet) (d : Dev), s.dev.takePacket opControl (some 4) = some (p, pkt, d) →
    Answers .discover s (d.sourceRoute p pkt fun d q => d.discoverReply q)) ∧
  (∀ (s : State) (fr : Frame) (pkt : Packet) (d : Dev), segTakes s 4 fr pkt d →
    Answers .discover s
      (if fr.dst.toNat = d.ownMac then d.segmentReply fr.src.toNat pkt
       else d.fresh.2.setMgt fun u =>
         { u with delayed := u.delayed ++ [(d.fresh.2.clk.timeNs + Config.randomDraw d.fresh.1 % 10000001, fr.src.toNat, pkt)] })) ∧
  (∀ (s : State) (p : Nat) (pkt : Packet) (d : Dev), s.dev.takePacket opControl (some 5) = some (p, pkt, d) →
    Answers .discoverReply s
      (if d.isEthernet p then d.checkConflict (ofBytes (pkt.payload.take 48))
       else d.sourceRoute p pkt fun d q => d.emit (.toManager q))) ∧
  (∀ (s : State) (fr : Frame) (pkt : Packet) (d : Dev), segTakes s 5 fr pkt d →
    Answers .discoverReply s (d.emit (.toManager pkt))) ∧
  (∀ (s : State) (t m : Nat) (pkt : Packet) (rest : List (Nat × Nat × Packet)),
    takeFirst (fun (e : Nat × Nat × Packet) => decide (e.1 ≤ s.dev.clk.timeNs)) s.dev.mgt.delayed = some ((t, m, pkt), rest) →
    Answers .discoverReplyDelay s ((s.dev.setMgt fun u => { u with delayed := rest }).segmentReply m pkt)) ∧
  (∀ (s : State) (p : Nat) (pkt : Packet) (d : Dev), s.dev.jnlFull = false →
    s.dev.takePacket opControl (some 6) = some (p, pkt, d) →
    Answers .assign s
      (d.sourceRoute p pkt fun d q => if d.mayAssign q then d.assign 0x40 q else d.incSat FAB_ROUTE_STAT.ctl_drop 1)) ∧
  (∀ (s : State) (fr : Frame) (pkt : Packet) (d : Dev), s.dev.jnlFull = false → segTakes s 6 fr pkt d →
    d.permitted fr.src.toNat false = true → d.mayAssign pkt = true → Answers .assign s (d.assign 0x30 pkt)) ∧
  ServesRequest .regRead 1 2 false (fun d _ m => d.regReadMsg m) ∧
  ServesRequest .regWrite 2 2 true (fun d ok m => d.regWriteMsg ok m) ∧
  ServesRequest .stageData 0x20 0 false (fun d ok m => d.stageMsg ok m)

/-- Frames are received and sent, collisions back off, and PLCA follows its beacon. A frame of the right size for an accepted
address, of the management EtherType and with room in its queue, is counted and queued; the head of the highest queue goes
out on the node's turn; a collision below the attempt limit jams and backs off by a drawn number of slots; a back-off ends at
its time; a beacon gives a turn; 10 ms without one fall back to CSMA/CD. (20_management_port.md) -/
def Obligations.MacEventsTakeEffect : Prop :=
  (∀ (f : Frame) (s : State) (d : Dev), s.dev.flag MGT_CFG.mac_en = true → frameSizeOk f = true → s.dev.addrOk f.dst.toNat = true →
    d = s.dev.incWrap MGT_RXCNT.frames_rx 1 → f.etype.toNat = d.get MGT_CFG.mgmt_etype → (d.rxq (d.steer f)).length < 16 →
    Answers (.frameReceive f false) s ((d.putRxq (d.steer f) (d.rxq (d.steer f) ++ [f])).agentFlush 64)) ∧
  (∀ (s : State) (q : Nat) (t : TxFrame) (d : Dev), s.dev.mayTransmit = true → s.dev.txHead = some (q, t) →
    d = s.dev.setMgt (fun u => { u with turn := u.turn - 1 }) →
    Answers (.frameTransmit false) s (((d.putTxq q (d.txq q).tail).incWrap MGT_TXCNT.frames_tx 1).emit (.frame t.frame))) ∧
  (∀ (s : State) (q : Nat) (t : TxFrame) (d : Dev), s.dev.mgt.onAir = some (q, t) →
    d = ((s.dev.setMgt fun u => { u with onAir := none }).incSat MGT_TXCNT.collisions 1).emit .jam → d.get MGT_STATUS.state ≠ 2 →
    t.attempts + 1 < 16 →
    Answers (.collision false) s
      ((d.fresh.2.putTxq q ({ t with attempts := t.attempts + 1 } :: (d.fresh.2.txq q).tail)).setMgt fun u =>
        { u with backoff := some (d.fresh.2.clk.timeNs + 51200 * (Config.randomDraw d.fresh.1 % 2 ^ min (t.attempts + 1) 10)) })) ∧
  (∀ (s : State) (t : Nat), s.dev.mgt.backoff = some t → t ≤ s.dev.clk.timeNs →
    Answers .backoffExpiry s (s.dev.setMgt fun u => { u with backoff := none })) ∧
  (∀ (s : State), s.dev.flag MGT_CFG.mac_en = true → s.dev.plcaOn = true → s.dev.get MGT_PLCA.node_id ≠ 0 →
    Answers .plcaBeacon s
      (((s.dev.setMgt fun u => { u with beaconNs := s.dev.clk.timeNs, turn := 1 + s.dev.get MGT_PLCA.burst_count }).set
        MGT_STATUS.state 2).set MGT_STATUS.beacon_seen 1)) ∧
  (∀ (s : State), s.dev.get MGT_STATUS.state = 2 → s.dev.get MGT_PLCA.node_id ≠ 0 → s.dev.mgt.beaconNs + 10000000 ≤ s.dev.clk.timeNs →
    Answers .beaconLost s
      ((s.dev.setMgt fun u => { u with turn := 0 }).sets
        [(MGT_STATUS.state, 1), (MGT_STATUS.beacon_seen, 0), (MGT_EVENT.beacon_lost, 1)]))

/-- Links come up, hosts are lost, functions reset and translations end. A link that comes up shows its width, rate and flit mode
and sets its event bit; each cause of host loss has the effect of a host loss, the first three with the link down, PERST also
holding the port in reset; PERST deasserted lets the port train; a VF reset stops the VF's rings, clears its apertures and
lets its TDI go, and a TDI error does so with its event; an ATS invalidation of a range ends its translation.
(19_host_interface.md, 21_startup.md) -/
def Obligations.HostPortEventsTakeEffect : Prop :=
  (∀ (p : HostPort) (w : BitVec 2) (r : BitVec 3) (f : Bool) (s : State), s.dev.boot.released = true → s.dev.pcieUp.testBit p.val = true →
    Answers (.linkUp p w r f) s
      ((s.dev.sets [(HIF_PORT_STATUS.link_up p.val, 1), (HIF_PORT_STATUS.width p.val, w.toNat), (HIF_PORT_STATUS.rate p.val, r.toNat),
        (HIF_PORT_STATUS.flit p.val, f.toNat)]).setBit HIF_EVENT.link_up p.val)) ∧
  (∀ (p : HostPort) (k : LossCause) (s : State), k ≠ .perst →
    Answers (.hostLoss p k) s (s.dev.hostLost p.val (k == .hotReset || k == .linkDown))) ∧
  (∀ (p : HostPort) (s : State),
    Answers (.hostLoss p .perst) s
      ((if s.dev.pcieUp.testBit p.val then { s.dev with pcieUp := s.dev.pcieUp - 2 ^ p.val } else s.dev).hostLost p.val true)) ∧
  (∀ (p : HostPort) (s : State), Answers (.perstNDeassert p) s { s.dev with pcieUp := s.dev.pcieUp ||| 2 ^ p.val }) ∧
  (∀ (p : HostPort) (vf : Fin 31) (s : State) (d : Dev),
    d = (((s.dev.ringsOf p.val (some (vf.val + 1))).foldl (fun d r => d.stopRing r) s.dev).clearApertures p.val (some (vf.val + 1))) →
    Answers (.vfFlr p vf) s
      { d with unmapped := d.unmapped.filter (fun u => !(u.1 == p.val && u.2.1 == vf.val + 1)),
               sec := { d.sec with tdiLocked := d.sec.tdiLocked.filter fun e => e != (p.val, vf.val + 1) } }) ∧
  (∀ (p : HostPort) (vf : Fin 31) (s : State),
    Answers (.tdiError p vf) s ((s.dev.vfReset p.val (vf.val + 1)).set HIF_EVENT.tdi_error 1)) ∧
  (∀ (p : HostPort) (f : FuncId) (base len : BitVec 64) (s : State), len.toNat ≠ 0 →
    Answers (.atsInvalidation p f base len false) s
      { s.dev with unmapped := (s.dev.unmapped.flatMap fun u =>
          if u.1 == p.val && u.2.1 == f.val then (cutRange u.2.2.1 u.2.2.2 base.toNat len.toNat).map fun r => (p.val, f.val, r.1, r.2)
          else [u]) ++ [(p.val, f.val, base.toNat, len.toNat)] })

/-- AO release, start-up steps, HBM training, the resets and the I3C page take effect. AO release samples the straps, selects the
reference, begins tick 0 and step 2; 2 ms without lock are noted; a step that may end shows its number and time and the next
begins, but for step 12 and, in boot mode 1, step 7; the end of HBM training is recorded once in step 7; power-on reset returns all but the flash, the hosts and the pins
to reset; WRST_N starts a warm reset; the I3C page is refreshed from its four registers and a dynamic address is taken.
(21_startup.md, 22_electrical_and_package.md) -/
def Obligations.StartUpAndResetEventsTakeEffect : Prop :=
  (∀ (feed : BitVec 4) (slot : BitVec 6) (mode : BitVec 2) (refA : Bool) (s : State), s.dev.boot.released = false →
    Answers (.aoRelease feed slot mode refA) s
      ((({ s.dev with
          clk := { s.dev.clk with resetNs := s.dev.clk.timeNs, setClosed := false,
                                  nextEdgeNs := s.dev.clk.timeNs + 1000 * s.dev.get TCK_PERIOD.period_us },
          boot := { s.dev.boot with released := true } } : Dev).sets
        [(GLB_STRAPS.feed_id, feed.toNat), (GLB_STRAPS.slot_id, slot.toNat), (GLB_BOOTINFO.boot_mode, mode.toNat),
         (GLB_STATUS.pcie_ref_sel, (!refA).toNat), (GLB_STATUS.boot_step, 1)]).beginStep 2)) ∧
  (∀ (s : State), s.dev.boot.released = true → s.dev.flag GLB_STATUS.aclk_lock = false → s.dev.clk.resetNs + 2000000 ≤ s.dev.clk.timeNs →
    Answers .aclkLockTimeout s (s.dev.setBoot fun u => { u with noLock := true })) ∧
  (∀ (aclk : Bool) (v : BitVec 4) (c : BitVec 8) (h : BitVec 10) (s : State) (n : Nat) (d e : Dev),
    d = (if aclk && s.dev.boot.released && !s.dev.lockLate then s.dev.set GLB_STATUS.aclk_lock 1 else s.dev) →
    d.booting = true → s.dev.boot.step = n → 2 ≤ n → n < 13 → (n = 2 → d.get GLB_BOOTINFO.boot_mode ≠ 3) →
    (stopCauses n).contains c.toNat = false → d.stepCanEnd n = true → e = d.stepDoes n v.toNat h.toNat → e.boot.halted = false →
    Answers (.startupStepComplete aclk v c h) s
      (if n = 12 then e.sets [(GLB_STATUS.boot_step, n), (GLB_BOOT_TIME.end_us n, e.bootUs)]
       else if (n == 7 && (e.sets [(GLB_STATUS.boot_step, n), (GLB_BOOT_TIME.end_us n, e.bootUs)]).get GLB_BOOTINFO.boot_mode == 1) = true then
        (e.sets [(GLB_STATUS.boot_step, n), (GLB_BOOT_TIME.end_us n, e.bootUs)]).setBoot fun u => { u with halted := true }
       else (e.sets [(GLB_STATUS.boot_step, n), (GLB_BOOT_TIME.end_us n, e.bootUs)]).beginStep (n + 1))) ∧
  (∀ (t : BitVec 8) (a : Vector (BitVec 2) 8) (k : Vector (BitVec 4) 8) (s : State), s.dev.booting = true → s.dev.boot.step = 7 →
    s.dev.boot.hbmDone = false →
    Answers (.hbmTrainingDone t a k) s
      (s.dev.hbmTrained t.toNat (a.toList.map BitVec.toNat) (k.toList.map BitVec.toNat))) ∧
  (∀ (s : State), Answers .powerOnReset s
    { Dev.reset with
      board := { s.dev.board with due := 0 },
      mem := { Dev.reset.mem with hostA := s.dev.mem.hostA, hostB := s.dev.mem.hostB },
      clk := { Clock.reset with freeCtr := s.dev.clk.freeCtr },
      pcieUp := s.dev.pcieUp,
      out := s.dev.out }) ∧
  (∀ (s : State), s.dev.boot.released = true → s.dev.pwr.trip = false → Answers .wrstNAssert s (s.dev.warmNow 1 0x50)) ∧
  (∀ (s : State), Answers .i3cPageRefresh s
    { s.dev with
      i3cPage := [GLB_STATUS.off, PWR_STATUS.off, PWR_THERM.off, TCK_TICK.off].flatMap fun o => toBytes 8 (s.dev.rd o).toNat }) ∧
  (∀ (a : BitVec 7) (s : State), Answers (.i3cDynamicAddress a) s { s.dev with i3cAddr := a.toNat })

/-- A step is exec of the command at the front of the queue, on the queue's rest. For every command c and state s, the step of s
with c at the front of its queue is exec of c on s. (00_scope.md) -/
def Obligations.AStepRunsTheFrontCommand : Prop :=
  ∀ (c : Instr) (s : State), step { s with pending := c :: s.pending } = exec c s

/-- On an empty queue one nanosecond passes, never past the next edge (the model's choice, log entry 1). The model's own reading
of an idle queue (log entry 1): before the next edge's time, the step adds one nanosecond to the device's own time and to
TCK_TIME and changes no other register and nothing else; at that time it changes nothing. (02_the_tick.md) -/
def Obligations.AnIdleStepPassesANanosecond : Prop :=
  ∀ (s : State), s.pending = [] →
    (s.dev.clk.timeNs < s.dev.clk.nextEdgeNs → ∃ e, step s = .next { s with dev := e } ∧ e.clk = { s.dev.clk with timeNs := s.dev.clk.timeNs + 1 } ∧
      e.gtime = (s.dev.gtime + 1) % 2 ^ 64 ∧ (∀ off, off ≠ TCK_TIME.off → e.rd off = s.dev.rd off) ∧
      e = { s.dev with clk := e.clk, regs := e.regs }) ∧
    (s.dev.clk.nextEdgeNs ≤ s.dev.clk.timeNs → step s = .next s)

/-- Every command answers a next state and leaves the queue alone. For every command and state there is a device with which exec
answers a next state whose queue is unchanged: no command faults or is refused. (00_scope.md) -/
def Obligations.EveryCommandAnswersANextState : Prop := ∀ (c : Instr) (s : State), ∃ e, Answers c s e

/-- n steps in a row. -/
def Sys2Proof.Claims.steps : Nat → State → Host.Outcome State Fault Refusal
  | 0, s => .next s
  | n + 1, s => match step s with
    | .next t => Sys2Proof.Claims.steps n t
    | o => o

/-- Commands run one after the other. -/
def Sys2Proof.Claims.runAll : List Instr → State → Host.Outcome State Fault Refusal
  | [], s => .next s
  | c :: cs, s => match exec c s with
    | .next t => Sys2Proof.Claims.runAll cs t
    | o => o

/-- Waiting commands run first in, first out. For every list of commands and state, as many steps as the list is long, from the
state with the list put before its queue, give what running the commands in order on the state gives. (00_scope.md) -/
def Obligations.WaitingCommandsRunInOrder : Prop :=
  ∀ (cs : List Instr) (s : State), steps cs.length { s with pending := cs ++ s.pending } = runAll cs s

/-- The state after reset has canonical memories and an empty queue. State.reset is sound: its memories are in canonical form and
its queue holds only well-formed commands; the queue is empty. (21_startup.md) -/
def Obligations.ResetIsSound : Prop := State.reset.sound = true ∧ State.reset.pending = []

/-- Every step keeps the memories canonical and the queue well formed. For every sound state, if a step answers a next state,
that state is sound: the memories of the device and of both hosts are in their one canonical form, and every waiting command
is well formed. The canonical form is the model's own (log entry 3). (01_device_organisation.md, 08_bents_bays_and_joints.md) -/
def Obligations.StepsKeepTheStateSound : Prop :=
  ∀ (s t : State), s.sound = true → step s = .next t → t.sound = true

/-- A byte stored reads back, every other byte reads as before, and zeroed bytes read zero. Storing a list of bytes in local
memory or in a host's memory makes exactly those addresses read as the list's bytes; the other host's memory is unchanged;
zeroing a range makes exactly that range read zero. (01_device_organisation.md, 08_bents_bays_and_joints.md) -/
def Obligations.MemoriesReadBackWhatWasStored : Prop :=
  (∀ (d : Dev) (a k : Nat) (l : List Byte),
    (d.putBytes a l).byte k = if a ≤ k ∧ k < a + l.length then l.getD (k - a) 0 else d.byte k) ∧
  (∀ (d : Dev) (p a k : Nat) (l : List Byte),
    (d.putHostBytes p a l).hostByte p k = if a ≤ k ∧ k < a + l.length then l.getD (k - a) 0 else d.hostByte p k) ∧
  (∀ (d : Dev) (a k : Nat) (l : List Byte), (d.putHostBytes 0 a l).hostByte 1 k = d.hostByte 1 k ∧
    (d.putHostBytes 1 a l).hostByte 0 k = d.hostByte 0 k) ∧
  (∀ (d : Dev) (a n k : Nat), (d.zeroLocal a n).byte k = if a ≤ k ∧ k < a + n then 0 else d.byte k)

/-- A COPY or FILL within the bay changes no local byte outside its destination and no unit. A COPY or FILL within the bay, not
resident, answers a next state in which every local byte that no destination address translates to is unchanged, as are the
arrays, slices, DMA engines, AGs, bays, contexts, joints, links and the journal. (19_host_interface.md,
06_tile_memory_and_mesh.md) -/
def Obligations.CopyAndFillLeaveOtherBytes : Prop :=
  ∀ (r : RingId) (c : Cmd) (s : State) (op a : Nat) (q : DmaDesc), op = 4 ∨ op = 5 → atFront s.dev r.val op c = true →
    q = c.copyDesc (op - 4) → q.remSrc = false → q.remDst = false → (op = 4 → s.dev.rowsOk c.bay q.src 0 q.rowBytes 1 = true) →
    s.dev.rowsOk c.bay q.dst 0 q.rowBytes 1 = true → s.dev.isResidentCmd c = false →
    (∀ i, i < q.rowBytes → s.dev.xlate c.bay (q.dst + i) ≠ some (.loc a)) →
    ∃ e, Answers (if op = 4 then .copy r else .fill r) s e ∧ e.byte a = s.dev.byte a ∧ e.arr = s.dev.arr ∧ e.vec = s.dev.vec ∧
      e.dma = s.dev.dma ∧ e.ag = s.dev.ag ∧ e.bay = s.dev.bay ∧ e.ctx = s.dev.ctx ∧ e.jt = s.dev.jt ∧ e.fab = s.dev.fab ∧
      e.jnl = s.dev.jnl

/-- A vector command that changes no memory, no unit but its own slice, and nothing outside the registers and the clock. -/
def Sys2Proof.Claims.VecFrame (c : SliceId → Nat → Instr) : Prop :=
  ∀ (x : SliceId) (stall : Nat) (s : State) (e : Dev), Answers (c x stall) s e →
    e = { s.dev with regs := e.regs, clk := e.clk, vec := e.vec } ∧ (∀ y, y ≠ x.val → e.vecU y = s.dev.vecU y)

/-- Vector instructions other than stores and INC change only their slice, registers and free-value counter. Each vector
instruction but the five stores and INC leaves everything but the register space, the clock record (which holds the free-
value counter) and the slices unchanged, and leaves every other slice unchanged. (07_vector_engine.md) -/
def Obligations.VectorRegisterInstructionsLeaveTheRest : Prop :=
  VecFrame .vNop ∧ VecFrame .vAdd ∧ VecFrame .vSub ∧ VecFrame .vMul ∧ VecFrame .vFma ∧ VecFrame .vFnma ∧ VecFrame .vDiv ∧
  VecFrame .vSqrt ∧ VecFrame .vMin ∧ VecFrame .vMax ∧ VecFrame .vMinn ∧ VecFrame .vMaxn ∧ VecFrame .vAbs ∧ VecFrame .vNeg ∧
  VecFrame .vRint ∧ VecFrame .vAnd ∧ VecFrame .vOr ∧ VecFrame .vXor ∧ VecFrame .vShl ∧ VecFrame .vShr ∧ VecFrame .vShrl ∧
  VecFrame .vCmp ∧ VecFrame .vSel ∧ VecFrame .vPset ∧ VecFrame .vPlog ∧ VecFrame .vExp ∧ VecFrame .vLog ∧ VecFrame .vRsqrt ∧
  VecFrame .vSigm ∧ VecFrame .vTanh ∧ VecFrame .vSilu ∧ VecFrame .vGelu ∧ VecFrame .vCvt ∧ VecFrame .vRsum ∧ VecFrame .vRmax ∧
  VecFrame .vRmin ∧ VecFrame .vPerm ∧ VecFrame .vShuf ∧ VecFrame .vPack ∧ VecFrame .vUnpk ∧ VecFrame .vBcast ∧ VecFrame .vMovs ∧
  VecFrame .vMovv ∧ VecFrame .vVld ∧ VecFrame .vVldc ∧ VecFrame .vGath ∧ VecFrame .vVrecv ∧ VecFrame .vSli ∧ VecFrame .vSlih ∧
  VecFrame .vSadd ∧ VecFrame .vSmul ∧ VecFrame .vSand ∧ VecFrame .vSshl ∧ VecFrame .vSshr ∧ VecFrame .vSrd ∧ VecFrame .vBne ∧
  VecFrame .vBlt ∧ VecFrame .vWait ∧ VecFrame .vFence ∧ VecFrame .vEnd

/-- Every encoding of a float format has the value of R42, and the specials theirs. With s, e and f the fields of an encoding of
any float format: e = 0 gives (−1)^s × f × 2^(1−B−M); any other encoding up to the largest finite gives (−1)^s × (2^M + f) ×
2^(e−B−M); above it, f = 0 gives the infinity of the sign in a format that has infinities, and every other encoding is a NaN.
(R42) -/
def Obligations.FloatEncodingsHaveTheirValues : Prop :=
  ∀ (f : Fmt) (p : FloatParams) (s : Bool) (e m : Nat), f.params = some p → e < 2 ^ p.ew → m < 2 ^ p.mw →
    (e = 0 → f.decode (s.toNat * 2 ^ (p.ew + p.mw) + e * 2 ^ p.mw + m) = .fin s m (1 - (p.bias : Int) - p.mw)) ∧
    (e ≠ 0 → e * 2 ^ p.mw + m ≤ p.maxEnc →
      f.decode (s.toNat * 2 ^ (p.ew + p.mw) + e * 2 ^ p.mw + m) = .fin s (2 ^ p.mw + m) ((e : Int) - p.bias - p.mw)) ∧
    (p.maxEnc < e * 2 ^ p.mw + m → p.hasInf = true → m = 0 →
      f.decode (s.toNat * 2 ^ (p.ew + p.mw) + e * 2 ^ p.mw + m) = .inf s) ∧
    (p.maxEnc < e * 2 ^ p.mw + m → ¬(p.hasInf = true ∧ m = 0) →
      (f.decode (s.toNat * 2 ^ (p.ew + p.mw) + e * 2 ^ p.mw + m)).isNaN = true)

/-- The pieces of a split element carry its significand bits and sum to it exactly. A normal FP64 element with significand m has
the pieces m[52:35], m[34:17] and m[16:0] with their exponents, a normal FP32 element m[23:6] and m[5:0]; the pieces carry
the element's sign and sum to it exactly; every piece of a zero or subnormal element is zero of its sign. A value .fin s m e
is (−1)^s × m × 2^e. (R94, R95) -/
def Obligations.SplitPiecesSumToTheElement : Prop :=
  (∀ (s : Bool) (m : Nat) (e : Int), 2 ^ 52 ≤ m → m < 2 ^ 53 →
    pieceOf 2 1 (.fin s m e) = .fin s (m / 2 ^ 35) (e + 35) ∧ pieceOf 2 2 (.fin s m e) = .fin s (m / 2 ^ 17 % 2 ^ 18) (e + 17) ∧
    pieceOf 2 3 (.fin s m e) = .fin s (m % 2 ^ 17) e ∧ m / 2 ^ 35 < 2 ^ 18 ∧
    m / 2 ^ 35 * 2 ^ 35 + m / 2 ^ 17 % 2 ^ 18 * 2 ^ 17 + m % 2 ^ 17 = m) ∧
  (∀ (s : Bool) (m : Nat) (e : Int), 2 ^ 23 ≤ m → m < 2 ^ 24 →
    pieceOf 1 1 (.fin s m e) = .fin s (m / 2 ^ 6) (e + 6) ∧ pieceOf 1 2 (.fin s m e) = .fin s (m % 2 ^ 6) e ∧
    m / 2 ^ 6 < 2 ^ 18 ∧ m / 2 ^ 6 * 2 ^ 6 + m % 2 ^ 6 = m) ∧
  (∀ (s : Bool) (m i : Nat) (e : Int), (m < 2 ^ 52 → pieceOf 2 i (.fin s m e) = .fin s 0 0) ∧
    (m < 2 ^ 23 → pieceOf 1 i (.fin s m e) = .fin s 0 0))

/-- ADD on INT32 wraps modulo 2^32, respects the predicate and raises no flag. When the slice's next instruction is ADD on INT32:
each element that is on becomes the sum of its sources modulo 2^32; an off element becomes zero when z = 1 and stays
otherwise; the bay's sticky flags and all of memory are unchanged. (07_vector_engine.md) -/
def Obligations.VectorIntegerAddWrapsAndMasks : Prop :=
  ∀ (x : SliceId) (stall : Nat) (s : State) (b i : Nat) (w : VWord), s.dev.vecNext x.val = some (b, w) → w.op = 0x01 →
    w.fmt = 0x09 → i < 128 →
    ∃ e, Answers (.vAdd x stall) s e ∧
      ((s.dev.vecU x.val).on w i = true →
        (e.vecU x.val).elem .int32 w.d i = ((s.dev.vecU x.val).elem .int32 w.a i + (s.dev.vecU x.val).elem .int32 w.b i) % 2 ^ 32) ∧
      ((s.dev.vecU x.val).on w i = false → w.z = 1 → (e.vecU x.val).elem .int32 w.d i = 0) ∧
      ((s.dev.vecU x.val).on w i = false → w.z ≠ 1 →
        (e.vecU x.val).elem .int32 w.d i = (s.dev.vecU x.val).elem .int32 w.d i) ∧
      e.get (SCH_BAY_VFLAG.flags b) = s.dev.get (SCH_BAY_VFLAG.flags b) ∧ e.mem = s.dev.mem

/-- A tile-memory offset leads through the bay's extent map. For an offset below 2^32: where bits [31:21] select no entry of the
bay's extent map, the offset lies outside the bay; where the entry names extent e of AG g, the offset leads to local address
0x80_0000_0000 + g × 0xC00_0000 + e × 0x20_0000 plus bits [20:0]. (R111) -/
def Obligations.TileOffsetsFollowTheExtentMap : Prop :=
  ∀ (d : Dev) (b off : Nat), off < 2 ^ 32 →
    (Tab.get (fun _ => 0) (d.bayU b).extMap (off / 2 ^ 21) = 0 → d.xlate b off = none) ∧
    (∀ g e, e < 96 → Tab.get (fun _ => 0) (d.bayU b).extMap (off / 2 ^ 21) = 1 + 96 * g + e →
      d.xlate b off = some (.loc (0x8000000000 + g * 0xC000000 + e * 0x200000 + off % 2 ^ 21)))

/-- Misfit register accesses are discarded, read as ones, and counted. Registers lie at multiples of 8 bytes. A write that is not
a naturally aligned 32- or 64-bit one changes nothing but GLB_BAD_ACCESS, whose count rises by one and saturates; a read of
that kind gives all ones and is counted likewise; an aligned 64-bit read gives the register's word, and the two aligned
32-bit reads its low and high halves. (R3) -/
def Obligations.MisfitAccessesAreDiscardedAndCounted : Prop :=
  (∀ (off : Nat), (findReg off).isSome = true → off % 8 = 0) ∧
  (∀ (via : Via) (off : BitVec 26) (size : Nat) (v : Reg64) (s : State), pathOpen s.dev via off.toNat = true →
    (size = 4 ∨ size = 8 → off.toNat % size ≠ 0) →
    Answers (.registerWrite via off size v) s (s.dev.badAccess via off.toNat true)) ∧
  (∀ (d : Dev) (via : Via) (off size : Nat), (size = 4 ∨ size = 8 → off % size ≠ 0) →
    d.regRead via off size = (2 ^ (8 * size) - 1, d.badAccess via off false)) ∧
  (∀ (d : Dev) (via : Via) (off : Nat) (w : Bool),
    (d.badAccess via off w).get GLB_BAD_ACCESS.count = min (d.get GLB_BAD_ACCESS.count + 1) (2 ^ 32 - 1) ∧
    d.badAccess via off w = { d with regs := (d.badAccess via off w).regs } ∧
    ∀ o, o ≠ GLB_BAD_ACCESS.off → (d.badAccess via off w).rd o = d.rd o) ∧
  (∀ (d : Dev) (via : Via) (off : Nat), off % 8 = 0 →
    (d.regRead via off 8).1 = (d.jnlShow.readWord via off).toNat ∧
    (d.regRead via off 8).1 = (d.regRead via off 4).1 + 2 ^ 32 * (d.regRead via (off + 4) 4).1)

/-- A 64-bit write leaves each field what its access code says. For every field of a register without an effect of its own, other
than the journal's and FAB_ID's registers that the write's own entry or refusal may change: RO, WO and JW fields keep the
value in effect; RW fields take the written bits; W1C fields lose the written ones; SW fields take the written bits where
their block is stopped and stay otherwise. (01_device_organisation.md) -/
def Obligations.RegisterFieldsFollowTheirAccessCodes : Prop :=
  ∀ (origin off : Nat) (att : Reg64) (d : Dev) (r : RegDef) (ix : List Nat) (f : FieldDef), findReg off = some (r, ix) →
    f ∈ r.fields → off ≠ JNL_HEAD.off → off ≠ JNL_EVENT.off → off ≠ GLB_BOOTINFO.off → off ≠ FAB_ID.off →
    (f.acc = .ro ∨ f.acc = .wo ∨ f.acc = .jw →
      fieldOf ((d.writeFields origin off 0 8 att).rd off) f.lo f.w = fieldOf (d.rd off) f.lo f.w) ∧
    (f.acc = .rw → fieldOf ((d.writeFields origin off 0 8 att).rd off) f.lo f.w = fieldOf att f.lo f.w) ∧
    (f.acc = .w1c → fieldOf ((d.writeFields origin off 0 8 att).rd off) f.lo f.w =
      fieldOf (d.rd off) f.lo f.w &&& (2 ^ f.w - 1 - fieldOf att f.lo f.w)) ∧
    (f.acc = .sw → fieldOf ((d.writeFields origin off 0 8 att).rd off) f.lo f.w =
      if d.swStopped off then fieldOf att f.lo f.w else fieldOf (d.rd off) f.lo f.w)

/-- Requests without effect are journaled as refused, counted or completed. PEG_ADD to peg 0xFFF makes one refusal entry; a
domain request that PWR does not permit makes one refusal entry and sets its refused bits; a doorbell of another function or
with an index out of range counts in db_drop; RAISE of a bay that is not EMPTY completes with NO_RESOURCE and its event
entry; STRIKE of an EMPTY bay completes with OK; STEP of a bay compiled for another period or guard completes with
NO_RESOURCE. (02_the_tick.md, 06_tile_memory_and_mesh.md, 08_bents_bays_and_joints.md, 16_power_and_load_shaping.md,
19_host_interface.md) -/
def Obligations.RefusedRequestsChangeNothingElse : Prop :=
  (∀ (via : Via) (ag : AgId) (n : BitVec 16) (s : State), pathOpen s.dev via (AG_PEG_ADD.off ag.val) = true →
    Answers (.pegAdd via ag 0xFFF n) s
      (s.dev.jnlRefused (viaOrigin via) (AG_PEG_ADD.off ag.val) 0 0 (pegAddWord 0xFFF n.toNat))) ∧
  (∀ (via : Via) (dom : DomId) (req : BitVec 2) (s : State) (e : Dev), pathOpen s.dev via (PWR_DOM.off dom.val) = true →
    e = s.dev.writeFields (viaOrigin via) (PWR_DOM.off dom.val) 0 8
      (insField (BitVec.ofNat 64 req.toNat) 0 2 (s.dev.get (PWR_DOM.req dom.val))) →
    req.toNat ≠ e.get (PWR_DOM.req dom.val) → e.domainOk dom.val req.toNat = false →
    Answers (.domainRequest via dom req) s
      ((e.jnlRefused (viaOrigin via) (PWR_DOM.off dom.val) 0 (e.rd (PWR_DOM.off dom.val))
        (insField (e.rd (PWR_DOM.off dom.val)) 0 2 req.toNat)).sets [(PWR_DOM.refused dom.val, 1), (PWR_EVENT.dom_refused, 1)])) ∧
  (∀ (p : HostPort) (f : FuncId) (r : RingId) (i : BitVec 16) (s : State),
    s.dev.doorbellBad p.val f.val r.val i.toNat (s.dev.sqSize r.val) = true →
    Answers (.sqTailDoorbell p f r i) s (s.dev.incSat (HIF_PORT_STATUS.db_drop p.val) 1)) ∧
  (∀ (p : HostPort) (f : FuncId) (r : RingId) (i : BitVec 16) (s : State),
    s.dev.doorbellBad p.val f.val r.val i.toNat (s.dev.cqSize r.val) = true →
    Answers (.cqHeadDoorbell p f r i) s (s.dev.incSat (HIF_PORT_STATUS.db_drop p.val) 1)) ∧
  (∀ (r : RingId) (c : Cmd) (s : State), atFront s.dev r.val 1 c = true → s.dev.bayState (c.num 8 1) ≠ bayEmpty →
    Answers (.raise r) s
      ((((s.dev.startCmd c).jnlEventAfter 0x12 0x0040 (regAddr (SCH_BAY_RAISE.off (c.num 8 1))) (stNoResource + 256)).complete c
        stNoResource 0).flushBad r.val 64)) ∧
  (∀ (r : RingId) (c : Cmd) (s : State), atFront s.dev r.val 2 c = true → s.dev.bayState c.bay = bayEmpty →
    Answers (.strike r) s (((s.dev.startCmd c).complete c stOk 0).flushBad r.val 64)) ∧
  (∀ (r : RingId) (c : Cmd) (s : State), atFront s.dev r.val 3 c = true → s.dev.flag (SCH_CTX_CFG.en c.bay c.ctx) = true →
    s.dev.timingSuits c.bay = false →
    Answers (.step r) s ((s.dev.complete c stNoResource 0).flushBad r.val 64))
end

