-- ==== Sys2Proof/Laws/State.lean ====
section
/-! SUPPORT. What each primitive update of the device leaves in each field: one lemma per field and update, all by rfl. -/

namespace Sys2Proof.Machine

variable (d : Dev)

/-! ### wr -/

@[simp] theorem Dev.wr_regs (off : Nat) (v : Reg64) : (d.wr off v).regs = Tab.put resetWord d.regs off v := rfl
@[simp] theorem Dev.wr_clk (off : Nat) (v : Reg64) : (d.wr off v).clk = d.clk := rfl
@[simp] theorem Dev.wr_jnl (off : Nat) (v : Reg64) : (d.wr off v).jnl = d.jnl := rfl
@[simp] theorem Dev.wr_jt (off : Nat) (v : Reg64) : (d.wr off v).jt = d.jt := rfl
@[simp] theorem Dev.wr_mem (off : Nat) (v : Reg64) : (d.wr off v).mem = d.mem := rfl
@[simp] theorem Dev.wr_arr (off : Nat) (v : Reg64) : (d.wr off v).arr = d.arr := rfl
@[simp] theorem Dev.wr_ag (off : Nat) (v : Reg64) : (d.wr off v).ag = d.ag := rfl
@[simp] theorem Dev.wr_fwd (off : Nat) (v : Reg64) : (d.wr off v).fwd = d.fwd := rfl
@[simp] theorem Dev.wr_vec (off : Nat) (v : Reg64) : (d.wr off v).vec = d.vec := rfl
@[simp] theorem Dev.wr_dma (off : Nat) (v : Reg64) : (d.wr off v).dma = d.dma := rfl
@[simp] theorem Dev.wr_bay (off : Nat) (v : Reg64) : (d.wr off v).bay = d.bay := rfl
@[simp] theorem Dev.wr_ctx (off : Nat) (v : Reg64) : (d.wr off v).ctx = d.ctx := rfl
@[simp] theorem Dev.wr_ring (off : Nat) (v : Reg64) : (d.wr off v).ring = d.ring := rfl
@[simp] theorem Dev.wr_unmapped (off : Nat) (v : Reg64) : (d.wr off v).unmapped = d.unmapped := rfl
@[simp] theorem Dev.wr_snap (off : Nat) (v : Reg64) : (d.wr off v).snap = d.snap := rfl
@[simp] theorem Dev.wr_snapMissing (off : Nat) (v : Reg64) : (d.wr off v).snapMissing = d.snapMissing := rfl
@[simp] theorem Dev.wr_snapTick (off : Nat) (v : Reg64) : (d.wr off v).snapTick = d.snapTick := rfl
@[simp] theorem Dev.wr_snapKeys (off : Nat) (v : Reg64) : (d.wr off v).snapKeys = d.snapKeys := rfl
@[simp] theorem Dev.wr_keySeq (off : Nat) (v : Reg64) : (d.wr off v).keySeq = d.keySeq := rfl
@[simp] theorem Dev.wr_board (off : Nat) (v : Reg64) : (d.wr off v).board = d.board := rfl
@[simp] theorem Dev.wr_rowDue (off : Nat) (v : Reg64) : (d.wr off v).rowDue = d.rowDue := rfl
@[simp] theorem Dev.wr_sppr (off : Nat) (v : Reg64) : (d.wr off v).sppr = d.sppr := rfl
@[simp] theorem Dev.wr_remaps (off : Nat) (v : Reg64) : (d.wr off v).remaps = d.remaps := rfl
@[simp] theorem Dev.wr_dirty (off : Nat) (v : Reg64) : (d.wr off v).dirty = d.dirty := rfl
@[simp] theorem Dev.wr_suspects (off : Nat) (v : Reg64) : (d.wr off v).suspects = d.suspects := rfl
@[simp] theorem Dev.wr_fab (off : Nat) (v : Reg64) : (d.wr off v).fab = d.fab := rfl
@[simp] theorem Dev.wr_flt (off : Nat) (v : Reg64) : (d.wr off v).flt = d.flt := rfl
@[simp] theorem Dev.wr_col (off : Nat) (v : Reg64) : (d.wr off v).col = d.col := rfl
@[simp] theorem Dev.wr_pwr (off : Nat) (v : Reg64) : (d.wr off v).pwr = d.pwr := rfl
@[simp] theorem Dev.wr_fw (off : Nat) (v : Reg64) : (d.wr off v).fw = d.fw := rfl
@[simp] theorem Dev.wr_sec (off : Nat) (v : Reg64) : (d.wr off v).sec = d.sec := rfl
@[simp] theorem Dev.wr_mgt (off : Nat) (v : Reg64) : (d.wr off v).mgt = d.mgt := rfl
@[simp] theorem Dev.wr_boot (off : Nat) (v : Reg64) : (d.wr off v).boot = d.boot := rfl
@[simp] theorem Dev.wr_pcieUp (off : Nat) (v : Reg64) : (d.wr off v).pcieUp = d.pcieUp := rfl
@[simp] theorem Dev.wr_i3cAddr (off : Nat) (v : Reg64) : (d.wr off v).i3cAddr = d.i3cAddr := rfl
@[simp] theorem Dev.wr_i3cPage (off : Nat) (v : Reg64) : (d.wr off v).i3cPage = d.i3cPage := rfl
@[simp] theorem Dev.wr_out (off : Nat) (v : Reg64) : (d.wr off v).out = d.out := rfl

/-! ### set -/

@[simp] theorem Dev.set_regs (f : RF) (n : Nat) : (d.set f n).regs = Tab.put resetWord d.regs f.off (insField (d.rd f.off) f.lo f.w n) := rfl
@[simp] theorem Dev.set_clk (f : RF) (n : Nat) : (d.set f n).clk = d.clk := rfl
@[simp] theorem Dev.set_jnl (f : RF) (n : Nat) : (d.set f n).jnl = d.jnl := rfl
@[simp] theorem Dev.set_jt (f : RF) (n : Nat) : (d.set f n).jt = d.jt := rfl
@[simp] theorem Dev.set_mem (f : RF) (n : Nat) : (d.set f n).mem = d.mem := rfl
@[simp] theorem Dev.set_arr (f : RF) (n : Nat) : (d.set f n).arr = d.arr := rfl
@[simp] theorem Dev.set_ag (f : RF) (n : Nat) : (d.set f n).ag = d.ag := rfl
@[simp] theorem Dev.set_fwd (f : RF) (n : Nat) : (d.set f n).fwd = d.fwd := rfl
@[simp] theorem Dev.set_vec (f : RF) (n : Nat) : (d.set f n).vec = d.vec := rfl
@[simp] theorem Dev.set_dma (f : RF) (n : Nat) : (d.set f n).dma = d.dma := rfl
@[simp] theorem Dev.set_bay (f : RF) (n : Nat) : (d.set f n).bay = d.bay := rfl
@[simp] theorem Dev.set_ctx (f : RF) (n : Nat) : (d.set f n).ctx = d.ctx := rfl
@[simp] theorem Dev.set_ring (f : RF) (n : Nat) : (d.set f n).ring = d.ring := rfl
@[simp] theorem Dev.set_unmapped (f : RF) (n : Nat) : (d.set f n).unmapped = d.unmapped := rfl
@[simp] theorem Dev.set_snap (f : RF) (n : Nat) : (d.set f n).snap = d.snap := rfl
@[simp] theorem Dev.set_snapMissing (f : RF) (n : Nat) : (d.set f n).snapMissing = d.snapMissing := rfl
@[simp] theorem Dev.set_snapTick (f : RF) (n : Nat) : (d.set f n).snapTick = d.snapTick := rfl
@[simp] theorem Dev.set_snapKeys (f : RF) (n : Nat) : (d.set f n).snapKeys = d.snapKeys := rfl
@[simp] theorem Dev.set_keySeq (f : RF) (n : Nat) : (d.set f n).keySeq = d.keySeq := rfl
@[simp] theorem Dev.set_board (f : RF) (n : Nat) : (d.set f n).board = d.board := rfl
@[simp] theorem Dev.set_rowDue (f : RF) (n : Nat) : (d.set f n).rowDue = d.rowDue := rfl
@[simp] theorem Dev.set_sppr (f : RF) (n : Nat) : (d.set f n).sppr = d.sppr := rfl
@[simp] theorem Dev.set_remaps (f : RF) (n : Nat) : (d.set f n).remaps = d.remaps := rfl
@[simp] theorem Dev.set_dirty (f : RF) (n : Nat) : (d.set f n).dirty = d.dirty := rfl
@[simp] theorem Dev.set_suspects (f : RF) (n : Nat) : (d.set f n).suspects = d.suspects := rfl
@[simp] theorem Dev.set_fab (f : RF) (n : Nat) : (d.set f n).fab = d.fab := rfl
@[simp] theorem Dev.set_flt (f : RF) (n : Nat) : (d.set f n).flt = d.flt := rfl
@[simp] theorem Dev.set_col (f : RF) (n : Nat) : (d.set f n).col = d.col := rfl
@[simp] theorem Dev.set_pwr (f : RF) (n : Nat) : (d.set f n).pwr = d.pwr := rfl
@[simp] theorem Dev.set_fw (f : RF) (n : Nat) : (d.set f n).fw = d.fw := rfl
@[simp] theorem Dev.set_sec (f : RF) (n : Nat) : (d.set f n).sec = d.sec := rfl
@[simp] theorem Dev.set_mgt (f : RF) (n : Nat) : (d.set f n).mgt = d.mgt := rfl
@[simp] theorem Dev.set_boot (f : RF) (n : Nat) : (d.set f n).boot = d.boot := rfl
@[simp] theorem Dev.set_pcieUp (f : RF) (n : Nat) : (d.set f n).pcieUp = d.pcieUp := rfl
@[simp] theorem Dev.set_i3cAddr (f : RF) (n : Nat) : (d.set f n).i3cAddr = d.i3cAddr := rfl
@[simp] theorem Dev.set_i3cPage (f : RF) (n : Nat) : (d.set f n).i3cPage = d.i3cPage := rfl
@[simp] theorem Dev.set_out (f : RF) (n : Nat) : (d.set f n).out = d.out := rfl

/-! ### putArr -/

@[simp] theorem Dev.putArr_regs (a : Nat) (u : ArrayU) : (d.putArr a u).regs = d.regs := rfl
@[simp] theorem Dev.putArr_clk (a : Nat) (u : ArrayU) : (d.putArr a u).clk = d.clk := rfl
@[simp] theorem Dev.putArr_jnl (a : Nat) (u : ArrayU) : (d.putArr a u).jnl = d.jnl := rfl
@[simp] theorem Dev.putArr_jt (a : Nat) (u : ArrayU) : (d.putArr a u).jt = d.jt := rfl
@[simp] theorem Dev.putArr_mem (a : Nat) (u : ArrayU) : (d.putArr a u).mem = d.mem := rfl
@[simp] theorem Dev.putArr_arr (a : Nat) (u : ArrayU) : (d.putArr a u).arr = Tab.put (fun _ => ArrayU.reset) d.arr a u := rfl
@[simp] theorem Dev.putArr_ag (a : Nat) (u : ArrayU) : (d.putArr a u).ag = d.ag := rfl
@[simp] theorem Dev.putArr_fwd (a : Nat) (u : ArrayU) : (d.putArr a u).fwd = d.fwd := rfl
@[simp] theorem Dev.putArr_vec (a : Nat) (u : ArrayU) : (d.putArr a u).vec = d.vec := rfl
@[simp] theorem Dev.putArr_dma (a : Nat) (u : ArrayU) : (d.putArr a u).dma = d.dma := rfl
@[simp] theorem Dev.putArr_bay (a : Nat) (u : ArrayU) : (d.putArr a u).bay = d.bay := rfl
@[simp] theorem Dev.putArr_ctx (a : Nat) (u : ArrayU) : (d.putArr a u).ctx = d.ctx := rfl
@[simp] theorem Dev.putArr_ring (a : Nat) (u : ArrayU) : (d.putArr a u).ring = d.ring := rfl
@[simp] theorem Dev.putArr_unmapped (a : Nat) (u : ArrayU) : (d.putArr a u).unmapped = d.unmapped := rfl
@[simp] theorem Dev.putArr_snap (a : Nat) (u : ArrayU) : (d.putArr a u).snap = d.snap := rfl
@[simp] theorem Dev.putArr_snapMissing (a : Nat) (u : ArrayU) : (d.putArr a u).snapMissing = d.snapMissing := rfl
@[simp] theorem Dev.putArr_snapTick (a : Nat) (u : ArrayU) : (d.putArr a u).snapTick = d.snapTick := rfl
@[simp] theorem Dev.putArr_snapKeys (a : Nat) (u : ArrayU) : (d.putArr a u).snapKeys = d.snapKeys := rfl
@[simp] theorem Dev.putArr_keySeq (a : Nat) (u : ArrayU) : (d.putArr a u).keySeq = d.keySeq := rfl
@[simp] theorem Dev.putArr_board (a : Nat) (u : ArrayU) : (d.putArr a u).board = d.board := rfl
@[simp] theorem Dev.putArr_rowDue (a : Nat) (u : ArrayU) : (d.putArr a u).rowDue = d.rowDue := rfl
@[simp] theorem Dev.putArr_sppr (a : Nat) (u : ArrayU) : (d.putArr a u).sppr = d.sppr := rfl
@[simp] theorem Dev.putArr_remaps (a : Nat) (u : ArrayU) : (d.putArr a u).remaps = d.remaps := rfl
@[simp] theorem Dev.putArr_dirty (a : Nat) (u : ArrayU) : (d.putArr a u).dirty = d.dirty := rfl
@[simp] theorem Dev.putArr_suspects (a : Nat) (u : ArrayU) : (d.putArr a u).suspects = d.suspects := rfl
@[simp] theorem Dev.putArr_fab (a : Nat) (u : ArrayU) : (d.putArr a u).fab = d.fab := rfl
@[simp] theorem Dev.putArr_flt (a : Nat) (u : ArrayU) : (d.putArr a u).flt = d.flt := rfl
@[simp] theorem Dev.putArr_col (a : Nat) (u : ArrayU) : (d.putArr a u).col = d.col := rfl
@[simp] theorem Dev.putArr_pwr (a : Nat) (u : ArrayU) : (d.putArr a u).pwr = d.pwr := rfl
@[simp] theorem Dev.putArr_fw (a : Nat) (u : ArrayU) : (d.putArr a u).fw = d.fw := rfl
@[simp] theorem Dev.putArr_sec (a : Nat) (u : ArrayU) : (d.putArr a u).sec = d.sec := rfl
@[simp] theorem Dev.putArr_mgt (a : Nat) (u : ArrayU) : (d.putArr a u).mgt = d.mgt := rfl
@[simp] theorem Dev.putArr_boot (a : Nat) (u : ArrayU) : (d.putArr a u).boot = d.boot := rfl
@[simp] theorem Dev.putArr_pcieUp (a : Nat) (u : ArrayU) : (d.putArr a u).pcieUp = d.pcieUp := rfl
@[simp] theorem Dev.putArr_i3cAddr (a : Nat) (u : ArrayU) : (d.putArr a u).i3cAddr = d.i3cAddr := rfl
@[simp] theorem Dev.putArr_i3cPage (a : Nat) (u : ArrayU) : (d.putArr a u).i3cPage = d.i3cPage := rfl
@[simp] theorem Dev.putArr_out (a : Nat) (u : ArrayU) : (d.putArr a u).out = d.out := rfl

/-! ### putAg -/

@[simp] theorem Dev.putAg_regs (n : Nat) (u : AgU) : (d.putAg n u).regs = d.regs := rfl
@[simp] theorem Dev.putAg_clk (n : Nat) (u : AgU) : (d.putAg n u).clk = d.clk := rfl
@[simp] theorem Dev.putAg_jnl (n : Nat) (u : AgU) : (d.putAg n u).jnl = d.jnl := rfl
@[simp] theorem Dev.putAg_jt (n : Nat) (u : AgU) : (d.putAg n u).jt = d.jt := rfl
@[simp] theorem Dev.putAg_mem (n : Nat) (u : AgU) : (d.putAg n u).mem = d.mem := rfl
@[simp] theorem Dev.putAg_arr (n : Nat) (u : AgU) : (d.putAg n u).arr = d.arr := rfl
@[simp] theorem Dev.putAg_ag (n : Nat) (u : AgU) : (d.putAg n u).ag = Tab.put (fun _ => AgU.reset) d.ag n u := rfl
@[simp] theorem Dev.putAg_fwd (n : Nat) (u : AgU) : (d.putAg n u).fwd = d.fwd := rfl
@[simp] theorem Dev.putAg_vec (n : Nat) (u : AgU) : (d.putAg n u).vec = d.vec := rfl
@[simp] theorem Dev.putAg_dma (n : Nat) (u : AgU) : (d.putAg n u).dma = d.dma := rfl
@[simp] theorem Dev.putAg_bay (n : Nat) (u : AgU) : (d.putAg n u).bay = d.bay := rfl
@[simp] theorem Dev.putAg_ctx (n : Nat) (u : AgU) : (d.putAg n u).ctx = d.ctx := rfl
@[simp] theorem Dev.putAg_ring (n : Nat) (u : AgU) : (d.putAg n u).ring = d.ring := rfl
@[simp] theorem Dev.putAg_unmapped (n : Nat) (u : AgU) : (d.putAg n u).unmapped = d.unmapped := rfl
@[simp] theorem Dev.putAg_snap (n : Nat) (u : AgU) : (d.putAg n u).snap = d.snap := rfl
@[simp] theorem Dev.putAg_snapMissing (n : Nat) (u : AgU) : (d.putAg n u).snapMissing = d.snapMissing := rfl
@[simp] theorem Dev.putAg_snapTick (n : Nat) (u : AgU) : (d.putAg n u).snapTick = d.snapTick := rfl
@[simp] theorem Dev.putAg_snapKeys (n : Nat) (u : AgU) : (d.putAg n u).snapKeys = d.snapKeys := rfl
@[simp] theorem Dev.putAg_keySeq (n : Nat) (u : AgU) : (d.putAg n u).keySeq = d.keySeq := rfl
@[simp] theorem Dev.putAg_board (n : Nat) (u : AgU) : (d.putAg n u).board = d.board := rfl
@[simp] theorem Dev.putAg_rowDue (n : Nat) (u : AgU) : (d.putAg n u).rowDue = d.rowDue := rfl
@[simp] theorem Dev.putAg_sppr (n : Nat) (u : AgU) : (d.putAg n u).sppr = d.sppr := rfl
@[simp] theorem Dev.putAg_remaps (n : Nat) (u : AgU) : (d.putAg n u).remaps = d.remaps := rfl
@[simp] theorem Dev.putAg_dirty (n : Nat) (u : AgU) : (d.putAg n u).dirty = d.dirty := rfl
@[simp] theorem Dev.putAg_suspects (n : Nat) (u : AgU) : (d.putAg n u).suspects = d.suspects := rfl
@[simp] theorem Dev.putAg_fab (n : Nat) (u : AgU) : (d.putAg n u).fab = d.fab := rfl
@[simp] theorem Dev.putAg_flt (n : Nat) (u : AgU) : (d.putAg n u).flt = d.flt := rfl
@[simp] theorem Dev.putAg_col (n : Nat) (u : AgU) : (d.putAg n u).col = d.col := rfl
@[simp] theorem Dev.putAg_pwr (n : Nat) (u : AgU) : (d.putAg n u).pwr = d.pwr := rfl
@[simp] theorem Dev.putAg_fw (n : Nat) (u : AgU) : (d.putAg n u).fw = d.fw := rfl
@[simp] theorem Dev.putAg_sec (n : Nat) (u : AgU) : (d.putAg n u).sec = d.sec := rfl
@[simp] theorem Dev.putAg_mgt (n : Nat) (u : AgU) : (d.putAg n u).mgt = d.mgt := rfl
@[simp] theorem Dev.putAg_boot (n : Nat) (u : AgU) : (d.putAg n u).boot = d.boot := rfl
@[simp] theorem Dev.putAg_pcieUp (n : Nat) (u : AgU) : (d.putAg n u).pcieUp = d.pcieUp := rfl
@[simp] theorem Dev.putAg_i3cAddr (n : Nat) (u : AgU) : (d.putAg n u).i3cAddr = d.i3cAddr := rfl
@[simp] theorem Dev.putAg_i3cPage (n : Nat) (u : AgU) : (d.putAg n u).i3cPage = d.i3cPage := rfl
@[simp] theorem Dev.putAg_out (n : Nat) (u : AgU) : (d.putAg n u).out = d.out := rfl

/-! ### putVec -/

@[simp] theorem Dev.putVec_regs (x : Nat) (u : VecU) : (d.putVec x u).regs = d.regs := rfl
@[simp] theorem Dev.putVec_clk (x : Nat) (u : VecU) : (d.putVec x u).clk = d.clk := rfl
@[simp] theorem Dev.putVec_jnl (x : Nat) (u : VecU) : (d.putVec x u).jnl = d.jnl := rfl
@[simp] theorem Dev.putVec_jt (x : Nat) (u : VecU) : (d.putVec x u).jt = d.jt := rfl
@[simp] theorem Dev.putVec_mem (x : Nat) (u : VecU) : (d.putVec x u).mem = d.mem := rfl
@[simp] theorem Dev.putVec_arr (x : Nat) (u : VecU) : (d.putVec x u).arr = d.arr := rfl
@[simp] theorem Dev.putVec_ag (x : Nat) (u : VecU) : (d.putVec x u).ag = d.ag := rfl
@[simp] theorem Dev.putVec_fwd (x : Nat) (u : VecU) : (d.putVec x u).fwd = d.fwd := rfl
@[simp] theorem Dev.putVec_vec (x : Nat) (u : VecU) : (d.putVec x u).vec = Tab.put (fun _ => VecU.reset) d.vec x u := rfl
@[simp] theorem Dev.putVec_dma (x : Nat) (u : VecU) : (d.putVec x u).dma = d.dma := rfl
@[simp] theorem Dev.putVec_bay (x : Nat) (u : VecU) : (d.putVec x u).bay = d.bay := rfl
@[simp] theorem Dev.putVec_ctx (x : Nat) (u : VecU) : (d.putVec x u).ctx = d.ctx := rfl
@[simp] theorem Dev.putVec_ring (x : Nat) (u : VecU) : (d.putVec x u).ring = d.ring := rfl
@[simp] theorem Dev.putVec_unmapped (x : Nat) (u : VecU) : (d.putVec x u).unmapped = d.unmapped := rfl
@[simp] theorem Dev.putVec_snap (x : Nat) (u : VecU) : (d.putVec x u).snap = d.snap := rfl
@[simp] theorem Dev.putVec_snapMissing (x : Nat) (u : VecU) : (d.putVec x u).snapMissing = d.snapMissing := rfl
@[simp] theorem Dev.putVec_snapTick (x : Nat) (u : VecU) : (d.putVec x u).snapTick = d.snapTick := rfl
@[simp] theorem Dev.putVec_snapKeys (x : Nat) (u : VecU) : (d.putVec x u).snapKeys = d.snapKeys := rfl
@[simp] theorem Dev.putVec_keySeq (x : Nat) (u : VecU) : (d.putVec x u).keySeq = d.keySeq := rfl
@[simp] theorem Dev.putVec_board (x : Nat) (u : VecU) : (d.putVec x u).board = d.board := rfl
@[simp] theorem Dev.putVec_rowDue (x : Nat) (u : VecU) : (d.putVec x u).rowDue = d.rowDue := rfl
@[simp] theorem Dev.putVec_sppr (x : Nat) (u : VecU) : (d.putVec x u).sppr = d.sppr := rfl
@[simp] theorem Dev.putVec_remaps (x : Nat) (u : VecU) : (d.putVec x u).remaps = d.remaps := rfl
@[simp] theorem Dev.putVec_dirty (x : Nat) (u : VecU) : (d.putVec x u).dirty = d.dirty := rfl
@[simp] theorem Dev.putVec_suspects (x : Nat) (u : VecU) : (d.putVec x u).suspects = d.suspects := rfl
@[simp] theorem Dev.putVec_fab (x : Nat) (u : VecU) : (d.putVec x u).fab = d.fab := rfl
@[simp] theorem Dev.putVec_flt (x : Nat) (u : VecU) : (d.putVec x u).flt = d.flt := rfl
@[simp] theorem Dev.putVec_col (x : Nat) (u : VecU) : (d.putVec x u).col = d.col := rfl
@[simp] theorem Dev.putVec_pwr (x : Nat) (u : VecU) : (d.putVec x u).pwr = d.pwr := rfl
@[simp] theorem Dev.putVec_fw (x : Nat) (u : VecU) : (d.putVec x u).fw = d.fw := rfl
@[simp] theorem Dev.putVec_sec (x : Nat) (u : VecU) : (d.putVec x u).sec = d.sec := rfl
@[simp] theorem Dev.putVec_mgt (x : Nat) (u : VecU) : (d.putVec x u).mgt = d.mgt := rfl
@[simp] theorem Dev.putVec_boot (x : Nat) (u : VecU) : (d.putVec x u).boot = d.boot := rfl
@[simp] theorem Dev.putVec_pcieUp (x : Nat) (u : VecU) : (d.putVec x u).pcieUp = d.pcieUp := rfl
@[simp] theorem Dev.putVec_i3cAddr (x : Nat) (u : VecU) : (d.putVec x u).i3cAddr = d.i3cAddr := rfl
@[simp] theorem Dev.putVec_i3cPage (x : Nat) (u : VecU) : (d.putVec x u).i3cPage = d.i3cPage := rfl
@[simp] theorem Dev.putVec_out (x : Nat) (u : VecU) : (d.putVec x u).out = d.out := rfl

/-! ### putDma -/

@[simp] theorem Dev.putDma_regs (e : Nat) (u : DmaU) : (d.putDma e u).regs = d.regs := rfl
@[simp] theorem Dev.putDma_clk (e : Nat) (u : DmaU) : (d.putDma e u).clk = d.clk := rfl
@[simp] theorem Dev.putDma_jnl (e : Nat) (u : DmaU) : (d.putDma e u).jnl = d.jnl := rfl
@[simp] theorem Dev.putDma_jt (e : Nat) (u : DmaU) : (d.putDma e u).jt = d.jt := rfl
@[simp] theorem Dev.putDma_mem (e : Nat) (u : DmaU) : (d.putDma e u).mem = d.mem := rfl
@[simp] theorem Dev.putDma_arr (e : Nat) (u : DmaU) : (d.putDma e u).arr = d.arr := rfl
@[simp] theorem Dev.putDma_ag (e : Nat) (u : DmaU) : (d.putDma e u).ag = d.ag := rfl
@[simp] theorem Dev.putDma_fwd (e : Nat) (u : DmaU) : (d.putDma e u).fwd = d.fwd := rfl
@[simp] theorem Dev.putDma_vec (e : Nat) (u : DmaU) : (d.putDma e u).vec = d.vec := rfl
@[simp] theorem Dev.putDma_dma (e : Nat) (u : DmaU) : (d.putDma e u).dma = Tab.put (fun _ => DmaU.reset) d.dma e u := rfl
@[simp] theorem Dev.putDma_bay (e : Nat) (u : DmaU) : (d.putDma e u).bay = d.bay := rfl
@[simp] theorem Dev.putDma_ctx (e : Nat) (u : DmaU) : (d.putDma e u).ctx = d.ctx := rfl
@[simp] theorem Dev.putDma_ring (e : Nat) (u : DmaU) : (d.putDma e u).ring = d.ring := rfl
@[simp] theorem Dev.putDma_unmapped (e : Nat) (u : DmaU) : (d.putDma e u).unmapped = d.unmapped := rfl
@[simp] theorem Dev.putDma_snap (e : Nat) (u : DmaU) : (d.putDma e u).snap = d.snap := rfl
@[simp] theorem Dev.putDma_snapMissing (e : Nat) (u : DmaU) : (d.putDma e u).snapMissing = d.snapMissing := rfl
@[simp] theorem Dev.putDma_snapTick (e : Nat) (u : DmaU) : (d.putDma e u).snapTick = d.snapTick := rfl
@[simp] theorem Dev.putDma_snapKeys (e : Nat) (u : DmaU) : (d.putDma e u).snapKeys = d.snapKeys := rfl
@[simp] theorem Dev.putDma_keySeq (e : Nat) (u : DmaU) : (d.putDma e u).keySeq = d.keySeq := rfl
@[simp] theorem Dev.putDma_board (e : Nat) (u : DmaU) : (d.putDma e u).board = d.board := rfl
@[simp] theorem Dev.putDma_rowDue (e : Nat) (u : DmaU) : (d.putDma e u).rowDue = d.rowDue := rfl
@[simp] theorem Dev.putDma_sppr (e : Nat) (u : DmaU) : (d.putDma e u).sppr = d.sppr := rfl
@[simp] theorem Dev.putDma_remaps (e : Nat) (u : DmaU) : (d.putDma e u).remaps = d.remaps := rfl
@[simp] theorem Dev.putDma_dirty (e : Nat) (u : DmaU) : (d.putDma e u).dirty = d.dirty := rfl
@[simp] theorem Dev.putDma_suspects (e : Nat) (u : DmaU) : (d.putDma e u).suspects = d.suspects := rfl
@[simp] theorem Dev.putDma_fab (e : Nat) (u : DmaU) : (d.putDma e u).fab = d.fab := rfl
@[simp] theorem Dev.putDma_flt (e : Nat) (u : DmaU) : (d.putDma e u).flt = d.flt := rfl
@[simp] theorem Dev.putDma_col (e : Nat) (u : DmaU) : (d.putDma e u).col = d.col := rfl
@[simp] theorem Dev.putDma_pwr (e : Nat) (u : DmaU) : (d.putDma e u).pwr = d.pwr := rfl
@[simp] theorem Dev.putDma_fw (e : Nat) (u : DmaU) : (d.putDma e u).fw = d.fw := rfl
@[simp] theorem Dev.putDma_sec (e : Nat) (u : DmaU) : (d.putDma e u).sec = d.sec := rfl
@[simp] theorem Dev.putDma_mgt (e : Nat) (u : DmaU) : (d.putDma e u).mgt = d.mgt := rfl
@[simp] theorem Dev.putDma_boot (e : Nat) (u : DmaU) : (d.putDma e u).boot = d.boot := rfl
@[simp] theorem Dev.putDma_pcieUp (e : Nat) (u : DmaU) : (d.putDma e u).pcieUp = d.pcieUp := rfl
@[simp] theorem Dev.putDma_i3cAddr (e : Nat) (u : DmaU) : (d.putDma e u).i3cAddr = d.i3cAddr := rfl
@[simp] theorem Dev.putDma_i3cPage (e : Nat) (u : DmaU) : (d.putDma e u).i3cPage = d.i3cPage := rfl
@[simp] theorem Dev.putDma_out (e : Nat) (u : DmaU) : (d.putDma e u).out = d.out := rfl

/-! ### putBay -/

@[simp] theorem Dev.putBay_regs (b : Nat) (u : BayU) : (d.putBay b u).regs = d.regs := rfl
@[simp] theorem Dev.putBay_clk (b : Nat) (u : BayU) : (d.putBay b u).clk = d.clk := rfl
@[simp] theorem Dev.putBay_jnl (b : Nat) (u : BayU) : (d.putBay b u).jnl = d.jnl := rfl
@[simp] theorem Dev.putBay_jt (b : Nat) (u : BayU) : (d.putBay b u).jt = d.jt := rfl
@[simp] theorem Dev.putBay_mem (b : Nat) (u : BayU) : (d.putBay b u).mem = d.mem := rfl
@[simp] theorem Dev.putBay_arr (b : Nat) (u : BayU) : (d.putBay b u).arr = d.arr := rfl
@[simp] theorem Dev.putBay_ag (b : Nat) (u : BayU) : (d.putBay b u).ag = d.ag := rfl
@[simp] theorem Dev.putBay_fwd (b : Nat) (u : BayU) : (d.putBay b u).fwd = d.fwd := rfl
@[simp] theorem Dev.putBay_vec (b : Nat) (u : BayU) : (d.putBay b u).vec = d.vec := rfl
@[simp] theorem Dev.putBay_dma (b : Nat) (u : BayU) : (d.putBay b u).dma = d.dma := rfl
@[simp] theorem Dev.putBay_bay (b : Nat) (u : BayU) : (d.putBay b u).bay = Tab.put (fun _ => BayU.reset) d.bay b u := rfl
@[simp] theorem Dev.putBay_ctx (b : Nat) (u : BayU) : (d.putBay b u).ctx = d.ctx := rfl
@[simp] theorem Dev.putBay_ring (b : Nat) (u : BayU) : (d.putBay b u).ring = d.ring := rfl
@[simp] theorem Dev.putBay_unmapped (b : Nat) (u : BayU) : (d.putBay b u).unmapped = d.unmapped := rfl
@[simp] theorem Dev.putBay_snap (b : Nat) (u : BayU) : (d.putBay b u).snap = d.snap := rfl
@[simp] theorem Dev.putBay_snapMissing (b : Nat) (u : BayU) : (d.putBay b u).snapMissing = d.snapMissing := rfl
@[simp] theorem Dev.putBay_snapTick (b : Nat) (u : BayU) : (d.putBay b u).snapTick = d.snapTick := rfl
@[simp] theorem Dev.putBay_snapKeys (b : Nat) (u : BayU) : (d.putBay b u).snapKeys = d.snapKeys := rfl
@[simp] theorem Dev.putBay_keySeq (b : Nat) (u : BayU) : (d.putBay b u).keySeq = d.keySeq := rfl
@[simp] theorem Dev.putBay_board (b : Nat) (u : BayU) : (d.putBay b u).board = d.board := rfl
@[simp] theorem Dev.putBay_rowDue (b : Nat) (u : BayU) : (d.putBay b u).rowDue = d.rowDue := rfl
@[simp] theorem Dev.putBay_sppr (b : Nat) (u : BayU) : (d.putBay b u).sppr = d.sppr := rfl
@[simp] theorem Dev.putBay_remaps (b : Nat) (u : BayU) : (d.putBay b u).remaps = d.remaps := rfl
@[simp] theorem Dev.putBay_dirty (b : Nat) (u : BayU) : (d.putBay b u).dirty = d.dirty := rfl
@[simp] theorem Dev.putBay_suspects (b : Nat) (u : BayU) : (d.putBay b u).suspects = d.suspects := rfl
@[simp] theorem Dev.putBay_fab (b : Nat) (u : BayU) : (d.putBay b u).fab = d.fab := rfl
@[simp] theorem Dev.putBay_flt (b : Nat) (u : BayU) : (d.putBay b u).flt = d.flt := rfl
@[simp] theorem Dev.putBay_col (b : Nat) (u : BayU) : (d.putBay b u).col = d.col := rfl
@[simp] theorem Dev.putBay_pwr (b : Nat) (u : BayU) : (d.putBay b u).pwr = d.pwr := rfl
@[simp] theorem Dev.putBay_fw (b : Nat) (u : BayU) : (d.putBay b u).fw = d.fw := rfl
@[simp] theorem Dev.putBay_sec (b : Nat) (u : BayU) : (d.putBay b u).sec = d.sec := rfl
@[simp] theorem Dev.putBay_mgt (b : Nat) (u : BayU) : (d.putBay b u).mgt = d.mgt := rfl
@[simp] theorem Dev.putBay_boot (b : Nat) (u : BayU) : (d.putBay b u).boot = d.boot := rfl
@[simp] theorem Dev.putBay_pcieUp (b : Nat) (u : BayU) : (d.putBay b u).pcieUp = d.pcieUp := rfl
@[simp] theorem Dev.putBay_i3cAddr (b : Nat) (u : BayU) : (d.putBay b u).i3cAddr = d.i3cAddr := rfl
@[simp] theorem Dev.putBay_i3cPage (b : Nat) (u : BayU) : (d.putBay b u).i3cPage = d.i3cPage := rfl
@[simp] theorem Dev.putBay_out (b : Nat) (u : BayU) : (d.putBay b u).out = d.out := rfl

/-! ### putCtx -/

@[simp] theorem Dev.putCtx_regs (k : Nat) (u : CtxU) : (d.putCtx k u).regs = d.regs := rfl
@[simp] theorem Dev.putCtx_clk (k : Nat) (u : CtxU) : (d.putCtx k u).clk = d.clk := rfl
@[simp] theorem Dev.putCtx_jnl (k : Nat) (u : CtxU) : (d.putCtx k u).jnl = d.jnl := rfl
@[simp] theorem Dev.putCtx_jt (k : Nat) (u : CtxU) : (d.putCtx k u).jt = d.jt := rfl
@[simp] theorem Dev.putCtx_mem (k : Nat) (u : CtxU) : (d.putCtx k u).mem = d.mem := rfl
@[simp] theorem Dev.putCtx_arr (k : Nat) (u : CtxU) : (d.putCtx k u).arr = d.arr := rfl
@[simp] theorem Dev.putCtx_ag (k : Nat) (u : CtxU) : (d.putCtx k u).ag = d.ag := rfl
@[simp] theorem Dev.putCtx_fwd (k : Nat) (u : CtxU) : (d.putCtx k u).fwd = d.fwd := rfl
@[simp] theorem Dev.putCtx_vec (k : Nat) (u : CtxU) : (d.putCtx k u).vec = d.vec := rfl
@[simp] theorem Dev.putCtx_dma (k : Nat) (u : CtxU) : (d.putCtx k u).dma = d.dma := rfl
@[simp] theorem Dev.putCtx_bay (k : Nat) (u : CtxU) : (d.putCtx k u).bay = d.bay := rfl
@[simp] theorem Dev.putCtx_ctx (k : Nat) (u : CtxU) : (d.putCtx k u).ctx = Tab.put (fun _ => CtxU.reset) d.ctx k u := rfl
@[simp] theorem Dev.putCtx_ring (k : Nat) (u : CtxU) : (d.putCtx k u).ring = d.ring := rfl
@[simp] theorem Dev.putCtx_unmapped (k : Nat) (u : CtxU) : (d.putCtx k u).unmapped = d.unmapped := rfl
@[simp] theorem Dev.putCtx_snap (k : Nat) (u : CtxU) : (d.putCtx k u).snap = d.snap := rfl
@[simp] theorem Dev.putCtx_snapMissing (k : Nat) (u : CtxU) : (d.putCtx k u).snapMissing = d.snapMissing := rfl
@[simp] theorem Dev.putCtx_snapTick (k : Nat) (u : CtxU) : (d.putCtx k u).snapTick = d.snapTick := rfl
@[simp] theorem Dev.putCtx_snapKeys (k : Nat) (u : CtxU) : (d.putCtx k u).snapKeys = d.snapKeys := rfl
@[simp] theorem Dev.putCtx_keySeq (k : Nat) (u : CtxU) : (d.putCtx k u).keySeq = d.keySeq := rfl
@[simp] theorem Dev.putCtx_board (k : Nat) (u : CtxU) : (d.putCtx k u).board = d.board := rfl
@[simp] theorem Dev.putCtx_rowDue (k : Nat) (u : CtxU) : (d.putCtx k u).rowDue = d.rowDue := rfl
@[simp] theorem Dev.putCtx_sppr (k : Nat) (u : CtxU) : (d.putCtx k u).sppr = d.sppr := rfl
@[simp] theorem Dev.putCtx_remaps (k : Nat) (u : CtxU) : (d.putCtx k u).remaps = d.remaps := rfl
@[simp] theorem Dev.putCtx_dirty (k : Nat) (u : CtxU) : (d.putCtx k u).dirty = d.dirty := rfl
@[simp] theorem Dev.putCtx_suspects (k : Nat) (u : CtxU) : (d.putCtx k u).suspects = d.suspects := rfl
@[simp] theorem Dev.putCtx_fab (k : Nat) (u : CtxU) : (d.putCtx k u).fab = d.fab := rfl
@[simp] theorem Dev.putCtx_flt (k : Nat) (u : CtxU) : (d.putCtx k u).flt = d.flt := rfl
@[simp] theorem Dev.putCtx_col (k : Nat) (u : CtxU) : (d.putCtx k u).col = d.col := rfl
@[simp] theorem Dev.putCtx_pwr (k : Nat) (u : CtxU) : (d.putCtx k u).pwr = d.pwr := rfl
@[simp] theorem Dev.putCtx_fw (k : Nat) (u : CtxU) : (d.putCtx k u).fw = d.fw := rfl
@[simp] theorem Dev.putCtx_sec (k : Nat) (u : CtxU) : (d.putCtx k u).sec = d.sec := rfl
@[simp] theorem Dev.putCtx_mgt (k : Nat) (u : CtxU) : (d.putCtx k u).mgt = d.mgt := rfl
@[simp] theorem Dev.putCtx_boot (k : Nat) (u : CtxU) : (d.putCtx k u).boot = d.boot := rfl
@[simp] theorem Dev.putCtx_pcieUp (k : Nat) (u : CtxU) : (d.putCtx k u).pcieUp = d.pcieUp := rfl
@[simp] theorem Dev.putCtx_i3cAddr (k : Nat) (u : CtxU) : (d.putCtx k u).i3cAddr = d.i3cAddr := rfl
@[simp] theorem Dev.putCtx_i3cPage (k : Nat) (u : CtxU) : (d.putCtx k u).i3cPage = d.i3cPage := rfl
@[simp] theorem Dev.putCtx_out (k : Nat) (u : CtxU) : (d.putCtx k u).out = d.out := rfl

/-! ### putRing -/

@[simp] theorem Dev.putRing_regs (r : Nat) (u : RingU) : (d.putRing r u).regs = d.regs := rfl
@[simp] theorem Dev.putRing_clk (r : Nat) (u : RingU) : (d.putRing r u).clk = d.clk := rfl
@[simp] theorem Dev.putRing_jnl (r : Nat) (u : RingU) : (d.putRing r u).jnl = d.jnl := rfl
@[simp] theorem Dev.putRing_jt (r : Nat) (u : RingU) : (d.putRing r u).jt = d.jt := rfl
@[simp] theorem Dev.putRing_mem (r : Nat) (u : RingU) : (d.putRing r u).mem = d.mem := rfl
@[simp] theorem Dev.putRing_arr (r : Nat) (u : RingU) : (d.putRing r u).arr = d.arr := rfl
@[simp] theorem Dev.putRing_ag (r : Nat) (u : RingU) : (d.putRing r u).ag = d.ag := rfl
@[simp] theorem Dev.putRing_fwd (r : Nat) (u : RingU) : (d.putRing r u).fwd = d.fwd := rfl
@[simp] theorem Dev.putRing_vec (r : Nat) (u : RingU) : (d.putRing r u).vec = d.vec := rfl
@[simp] theorem Dev.putRing_dma (r : Nat) (u : RingU) : (d.putRing r u).dma = d.dma := rfl
@[simp] theorem Dev.putRing_bay (r : Nat) (u : RingU) : (d.putRing r u).bay = d.bay := rfl
@[simp] theorem Dev.putRing_ctx (r : Nat) (u : RingU) : (d.putRing r u).ctx = d.ctx := rfl
@[simp] theorem Dev.putRing_ring (r : Nat) (u : RingU) : (d.putRing r u).ring = Tab.put (fun _ => RingU.reset) d.ring r u := rfl
@[simp] theorem Dev.putRing_unmapped (r : Nat) (u : RingU) : (d.putRing r u).unmapped = d.unmapped := rfl
@[simp] theorem Dev.putRing_snap (r : Nat) (u : RingU) : (d.putRing r u).snap = d.snap := rfl
@[simp] theorem Dev.putRing_snapMissing (r : Nat) (u : RingU) : (d.putRing r u).snapMissing = d.snapMissing := rfl
@[simp] theorem Dev.putRing_snapTick (r : Nat) (u : RingU) : (d.putRing r u).snapTick = d.snapTick := rfl
@[simp] theorem Dev.putRing_snapKeys (r : Nat) (u : RingU) : (d.putRing r u).snapKeys = d.snapKeys := rfl
@[simp] theorem Dev.putRing_keySeq (r : Nat) (u : RingU) : (d.putRing r u).keySeq = d.keySeq := rfl
@[simp] theorem Dev.putRing_board (r : Nat) (u : RingU) : (d.putRing r u).board = d.board := rfl
@[simp] theorem Dev.putRing_rowDue (r : Nat) (u : RingU) : (d.putRing r u).rowDue = d.rowDue := rfl
@[simp] theorem Dev.putRing_sppr (r : Nat) (u : RingU) : (d.putRing r u).sppr = d.sppr := rfl
@[simp] theorem Dev.putRing_remaps (r : Nat) (u : RingU) : (d.putRing r u).remaps = d.remaps := rfl
@[simp] theorem Dev.putRing_dirty (r : Nat) (u : RingU) : (d.putRing r u).dirty = d.dirty := rfl
@[simp] theorem Dev.putRing_suspects (r : Nat) (u : RingU) : (d.putRing r u).suspects = d.suspects := rfl
@[simp] theorem Dev.putRing_fab (r : Nat) (u : RingU) : (d.putRing r u).fab = d.fab := rfl
@[simp] theorem Dev.putRing_flt (r : Nat) (u : RingU) : (d.putRing r u).flt = d.flt := rfl
@[simp] theorem Dev.putRing_col (r : Nat) (u : RingU) : (d.putRing r u).col = d.col := rfl
@[simp] theorem Dev.putRing_pwr (r : Nat) (u : RingU) : (d.putRing r u).pwr = d.pwr := rfl
@[simp] theorem Dev.putRing_fw (r : Nat) (u : RingU) : (d.putRing r u).fw = d.fw := rfl
@[simp] theorem Dev.putRing_sec (r : Nat) (u : RingU) : (d.putRing r u).sec = d.sec := rfl
@[simp] theorem Dev.putRing_mgt (r : Nat) (u : RingU) : (d.putRing r u).mgt = d.mgt := rfl
@[simp] theorem Dev.putRing_boot (r : Nat) (u : RingU) : (d.putRing r u).boot = d.boot := rfl
@[simp] theorem Dev.putRing_pcieUp (r : Nat) (u : RingU) : (d.putRing r u).pcieUp = d.pcieUp := rfl
@[simp] theorem Dev.putRing_i3cAddr (r : Nat) (u : RingU) : (d.putRing r u).i3cAddr = d.i3cAddr := rfl
@[simp] theorem Dev.putRing_i3cPage (r : Nat) (u : RingU) : (d.putRing r u).i3cPage = d.i3cPage := rfl
@[simp] theorem Dev.putRing_out (r : Nat) (u : RingU) : (d.putRing r u).out = d.out := rfl

/-! ### putFltBay -/

@[simp] theorem Dev.putFltBay_regs (b : Nat) (u : FltBay) : (d.putFltBay b u).regs = d.regs := rfl
@[simp] theorem Dev.putFltBay_clk (b : Nat) (u : FltBay) : (d.putFltBay b u).clk = d.clk := rfl
@[simp] theorem Dev.putFltBay_jnl (b : Nat) (u : FltBay) : (d.putFltBay b u).jnl = d.jnl := rfl
@[simp] theorem Dev.putFltBay_jt (b : Nat) (u : FltBay) : (d.putFltBay b u).jt = d.jt := rfl
@[simp] theorem Dev.putFltBay_mem (b : Nat) (u : FltBay) : (d.putFltBay b u).mem = d.mem := rfl
@[simp] theorem Dev.putFltBay_arr (b : Nat) (u : FltBay) : (d.putFltBay b u).arr = d.arr := rfl
@[simp] theorem Dev.putFltBay_ag (b : Nat) (u : FltBay) : (d.putFltBay b u).ag = d.ag := rfl
@[simp] theorem Dev.putFltBay_fwd (b : Nat) (u : FltBay) : (d.putFltBay b u).fwd = d.fwd := rfl
@[simp] theorem Dev.putFltBay_vec (b : Nat) (u : FltBay) : (d.putFltBay b u).vec = d.vec := rfl
@[simp] theorem Dev.putFltBay_dma (b : Nat) (u : FltBay) : (d.putFltBay b u).dma = d.dma := rfl
@[simp] theorem Dev.putFltBay_bay (b : Nat) (u : FltBay) : (d.putFltBay b u).bay = d.bay := rfl
@[simp] theorem Dev.putFltBay_ctx (b : Nat) (u : FltBay) : (d.putFltBay b u).ctx = d.ctx := rfl
@[simp] theorem Dev.putFltBay_ring (b : Nat) (u : FltBay) : (d.putFltBay b u).ring = d.ring := rfl
@[simp] theorem Dev.putFltBay_unmapped (b : Nat) (u : FltBay) : (d.putFltBay b u).unmapped = d.unmapped := rfl
@[simp] theorem Dev.putFltBay_snap (b : Nat) (u : FltBay) : (d.putFltBay b u).snap = d.snap := rfl
@[simp] theorem Dev.putFltBay_snapMissing (b : Nat) (u : FltBay) : (d.putFltBay b u).snapMissing = d.snapMissing := rfl
@[simp] theorem Dev.putFltBay_snapTick (b : Nat) (u : FltBay) : (d.putFltBay b u).snapTick = d.snapTick := rfl
@[simp] theorem Dev.putFltBay_snapKeys (b : Nat) (u : FltBay) : (d.putFltBay b u).snapKeys = d.snapKeys := rfl
@[simp] theorem Dev.putFltBay_keySeq (b : Nat) (u : FltBay) : (d.putFltBay b u).keySeq = d.keySeq := rfl
@[simp] theorem Dev.putFltBay_board (b : Nat) (u : FltBay) : (d.putFltBay b u).board = d.board := rfl
@[simp] theorem Dev.putFltBay_rowDue (b : Nat) (u : FltBay) : (d.putFltBay b u).rowDue = d.rowDue := rfl
@[simp] theorem Dev.putFltBay_sppr (b : Nat) (u : FltBay) : (d.putFltBay b u).sppr = d.sppr := rfl
@[simp] theorem Dev.putFltBay_remaps (b : Nat) (u : FltBay) : (d.putFltBay b u).remaps = d.remaps := rfl
@[simp] theorem Dev.putFltBay_dirty (b : Nat) (u : FltBay) : (d.putFltBay b u).dirty = d.dirty := rfl
@[simp] theorem Dev.putFltBay_suspects (b : Nat) (u : FltBay) : (d.putFltBay b u).suspects = d.suspects := rfl
@[simp] theorem Dev.putFltBay_fab (b : Nat) (u : FltBay) : (d.putFltBay b u).fab = d.fab := rfl
@[simp] theorem Dev.putFltBay_flt (b : Nat) (u : FltBay) : (d.putFltBay b u).flt = { d.flt with bays := Tab.put (fun _ => FltBay.reset) d.flt.bays b u } := rfl
@[simp] theorem Dev.putFltBay_col (b : Nat) (u : FltBay) : (d.putFltBay b u).col = d.col := rfl
@[simp] theorem Dev.putFltBay_pwr (b : Nat) (u : FltBay) : (d.putFltBay b u).pwr = d.pwr := rfl
@[simp] theorem Dev.putFltBay_fw (b : Nat) (u : FltBay) : (d.putFltBay b u).fw = d.fw := rfl
@[simp] theorem Dev.putFltBay_sec (b : Nat) (u : FltBay) : (d.putFltBay b u).sec = d.sec := rfl
@[simp] theorem Dev.putFltBay_mgt (b : Nat) (u : FltBay) : (d.putFltBay b u).mgt = d.mgt := rfl
@[simp] theorem Dev.putFltBay_boot (b : Nat) (u : FltBay) : (d.putFltBay b u).boot = d.boot := rfl
@[simp] theorem Dev.putFltBay_pcieUp (b : Nat) (u : FltBay) : (d.putFltBay b u).pcieUp = d.pcieUp := rfl
@[simp] theorem Dev.putFltBay_i3cAddr (b : Nat) (u : FltBay) : (d.putFltBay b u).i3cAddr = d.i3cAddr := rfl
@[simp] theorem Dev.putFltBay_i3cPage (b : Nat) (u : FltBay) : (d.putFltBay b u).i3cPage = d.i3cPage := rfl
@[simp] theorem Dev.putFltBay_out (b : Nat) (u : FltBay) : (d.putFltBay b u).out = d.out := rfl

/-! ### putByte -/

@[simp] theorem Dev.putByte_regs (a : Nat) (v : Byte) : (d.putByte a v).regs = d.regs := rfl
@[simp] theorem Dev.putByte_clk (a : Nat) (v : Byte) : (d.putByte a v).clk = d.clk := rfl
@[simp] theorem Dev.putByte_jnl (a : Nat) (v : Byte) : (d.putByte a v).jnl = d.jnl := rfl
@[simp] theorem Dev.putByte_jt (a : Nat) (v : Byte) : (d.putByte a v).jt = d.jt := rfl
@[simp] theorem Dev.putByte_mem (a : Nat) (v : Byte) : (d.putByte a v).mem = { d.mem with loc := Tab.put memDefault d.mem.loc a v } := rfl
@[simp] theorem Dev.putByte_arr (a : Nat) (v : Byte) : (d.putByte a v).arr = d.arr := rfl
@[simp] theorem Dev.putByte_ag (a : Nat) (v : Byte) : (d.putByte a v).ag = d.ag := rfl
@[simp] theorem Dev.putByte_fwd (a : Nat) (v : Byte) : (d.putByte a v).fwd = d.fwd := rfl
@[simp] theorem Dev.putByte_vec (a : Nat) (v : Byte) : (d.putByte a v).vec = d.vec := rfl
@[simp] theorem Dev.putByte_dma (a : Nat) (v : Byte) : (d.putByte a v).dma = d.dma := rfl
@[simp] theorem Dev.putByte_bay (a : Nat) (v : Byte) : (d.putByte a v).bay = d.bay := rfl
@[simp] theorem Dev.putByte_ctx (a : Nat) (v : Byte) : (d.putByte a v).ctx = d.ctx := rfl
@[simp] theorem Dev.putByte_ring (a : Nat) (v : Byte) : (d.putByte a v).ring = d.ring := rfl
@[simp] theorem Dev.putByte_unmapped (a : Nat) (v : Byte) : (d.putByte a v).unmapped = d.unmapped := rfl
@[simp] theorem Dev.putByte_snap (a : Nat) (v : Byte) : (d.putByte a v).snap = d.snap := rfl
@[simp] theorem Dev.putByte_snapMissing (a : Nat) (v : Byte) : (d.putByte a v).snapMissing = d.snapMissing := rfl
@[simp] theorem Dev.putByte_snapTick (a : Nat) (v : Byte) : (d.putByte a v).snapTick = d.snapTick := rfl
@[simp] theorem Dev.putByte_snapKeys (a : Nat) (v : Byte) : (d.putByte a v).snapKeys = d.snapKeys := rfl
@[simp] theorem Dev.putByte_keySeq (a : Nat) (v : Byte) : (d.putByte a v).keySeq = d.keySeq := rfl
@[simp] theorem Dev.putByte_board (a : Nat) (v : Byte) : (d.putByte a v).board = d.board := rfl
@[simp] theorem Dev.putByte_rowDue (a : Nat) (v : Byte) : (d.putByte a v).rowDue = d.rowDue := rfl
@[simp] theorem Dev.putByte_sppr (a : Nat) (v : Byte) : (d.putByte a v).sppr = d.sppr := rfl
@[simp] theorem Dev.putByte_remaps (a : Nat) (v : Byte) : (d.putByte a v).remaps = d.remaps := rfl
@[simp] theorem Dev.putByte_dirty (a : Nat) (v : Byte) : (d.putByte a v).dirty = d.dirty := rfl
@[simp] theorem Dev.putByte_suspects (a : Nat) (v : Byte) : (d.putByte a v).suspects = d.suspects := rfl
@[simp] theorem Dev.putByte_fab (a : Nat) (v : Byte) : (d.putByte a v).fab = d.fab := rfl
@[simp] theorem Dev.putByte_flt (a : Nat) (v : Byte) : (d.putByte a v).flt = d.flt := rfl
@[simp] theorem Dev.putByte_col (a : Nat) (v : Byte) : (d.putByte a v).col = d.col := rfl
@[simp] theorem Dev.putByte_pwr (a : Nat) (v : Byte) : (d.putByte a v).pwr = d.pwr := rfl
@[simp] theorem Dev.putByte_fw (a : Nat) (v : Byte) : (d.putByte a v).fw = d.fw := rfl
@[simp] theorem Dev.putByte_sec (a : Nat) (v : Byte) : (d.putByte a v).sec = d.sec := rfl
@[simp] theorem Dev.putByte_mgt (a : Nat) (v : Byte) : (d.putByte a v).mgt = d.mgt := rfl
@[simp] theorem Dev.putByte_boot (a : Nat) (v : Byte) : (d.putByte a v).boot = d.boot := rfl
@[simp] theorem Dev.putByte_pcieUp (a : Nat) (v : Byte) : (d.putByte a v).pcieUp = d.pcieUp := rfl
@[simp] theorem Dev.putByte_i3cAddr (a : Nat) (v : Byte) : (d.putByte a v).i3cAddr = d.i3cAddr := rfl
@[simp] theorem Dev.putByte_i3cPage (a : Nat) (v : Byte) : (d.putByte a v).i3cPage = d.i3cPage := rfl
@[simp] theorem Dev.putByte_out (a : Nat) (v : Byte) : (d.putByte a v).out = d.out := rfl

/-! ### putPort -/

@[simp] theorem Dev.putPort_regs (p : Nat) (u : PortU) : (d.putPort p u).regs = d.regs := rfl
@[simp] theorem Dev.putPort_clk (p : Nat) (u : PortU) : (d.putPort p u).clk = d.clk := rfl
@[simp] theorem Dev.putPort_jnl (p : Nat) (u : PortU) : (d.putPort p u).jnl = d.jnl := rfl
@[simp] theorem Dev.putPort_jt (p : Nat) (u : PortU) : (d.putPort p u).jt = d.jt := rfl
@[simp] theorem Dev.putPort_mem (p : Nat) (u : PortU) : (d.putPort p u).mem = d.mem := rfl
@[simp] theorem Dev.putPort_arr (p : Nat) (u : PortU) : (d.putPort p u).arr = d.arr := rfl
@[simp] theorem Dev.putPort_ag (p : Nat) (u : PortU) : (d.putPort p u).ag = d.ag := rfl
@[simp] theorem Dev.putPort_fwd (p : Nat) (u : PortU) : (d.putPort p u).fwd = d.fwd := rfl
@[simp] theorem Dev.putPort_vec (p : Nat) (u : PortU) : (d.putPort p u).vec = d.vec := rfl
@[simp] theorem Dev.putPort_dma (p : Nat) (u : PortU) : (d.putPort p u).dma = d.dma := rfl
@[simp] theorem Dev.putPort_bay (p : Nat) (u : PortU) : (d.putPort p u).bay = d.bay := rfl
@[simp] theorem Dev.putPort_ctx (p : Nat) (u : PortU) : (d.putPort p u).ctx = d.ctx := rfl
@[simp] theorem Dev.putPort_ring (p : Nat) (u : PortU) : (d.putPort p u).ring = d.ring := rfl
@[simp] theorem Dev.putPort_unmapped (p : Nat) (u : PortU) : (d.putPort p u).unmapped = d.unmapped := rfl
@[simp] theorem Dev.putPort_snap (p : Nat) (u : PortU) : (d.putPort p u).snap = d.snap := rfl
@[simp] theorem Dev.putPort_snapMissing (p : Nat) (u : PortU) : (d.putPort p u).snapMissing = d.snapMissing := rfl
@[simp] theorem Dev.putPort_snapTick (p : Nat) (u : PortU) : (d.putPort p u).snapTick = d.snapTick := rfl
@[simp] theorem Dev.putPort_snapKeys (p : Nat) (u : PortU) : (d.putPort p u).snapKeys = d.snapKeys := rfl
@[simp] theorem Dev.putPort_keySeq (p : Nat) (u : PortU) : (d.putPort p u).keySeq = d.keySeq := rfl
@[simp] theorem Dev.putPort_board (p : Nat) (u : PortU) : (d.putPort p u).board = d.board := rfl
@[simp] theorem Dev.putPort_rowDue (p : Nat) (u : PortU) : (d.putPort p u).rowDue = d.rowDue := rfl
@[simp] theorem Dev.putPort_sppr (p : Nat) (u : PortU) : (d.putPort p u).sppr = d.sppr := rfl
@[simp] theorem Dev.putPort_remaps (p : Nat) (u : PortU) : (d.putPort p u).remaps = d.remaps := rfl
@[simp] theorem Dev.putPort_dirty (p : Nat) (u : PortU) : (d.putPort p u).dirty = d.dirty := rfl
@[simp] theorem Dev.putPort_suspects (p : Nat) (u : PortU) : (d.putPort p u).suspects = d.suspects := rfl
@[simp] theorem Dev.putPort_fab (p : Nat) (u : PortU) : (d.putPort p u).fab = { d.fab with ports := Tab.put (fun _ => PortU.reset) d.fab.ports p u } := rfl
@[simp] theorem Dev.putPort_flt (p : Nat) (u : PortU) : (d.putPort p u).flt = d.flt := rfl
@[simp] theorem Dev.putPort_col (p : Nat) (u : PortU) : (d.putPort p u).col = d.col := rfl
@[simp] theorem Dev.putPort_pwr (p : Nat) (u : PortU) : (d.putPort p u).pwr = d.pwr := rfl
@[simp] theorem Dev.putPort_fw (p : Nat) (u : PortU) : (d.putPort p u).fw = d.fw := rfl
@[simp] theorem Dev.putPort_sec (p : Nat) (u : PortU) : (d.putPort p u).sec = d.sec := rfl
@[simp] theorem Dev.putPort_mgt (p : Nat) (u : PortU) : (d.putPort p u).mgt = d.mgt := rfl
@[simp] theorem Dev.putPort_boot (p : Nat) (u : PortU) : (d.putPort p u).boot = d.boot := rfl
@[simp] theorem Dev.putPort_pcieUp (p : Nat) (u : PortU) : (d.putPort p u).pcieUp = d.pcieUp := rfl
@[simp] theorem Dev.putPort_i3cAddr (p : Nat) (u : PortU) : (d.putPort p u).i3cAddr = d.i3cAddr := rfl
@[simp] theorem Dev.putPort_i3cPage (p : Nat) (u : PortU) : (d.putPort p u).i3cPage = d.i3cPage := rfl
@[simp] theorem Dev.putPort_out (p : Nat) (u : PortU) : (d.putPort p u).out = d.out := rfl

/-! ### updPort -/

@[simp] theorem Dev.updPort_regs (p : Nat) (f : PortU → PortU) : (d.updPort p f).regs = d.regs := rfl
@[simp] theorem Dev.updPort_clk (p : Nat) (f : PortU → PortU) : (d.updPort p f).clk = d.clk := rfl
@[simp] theorem Dev.updPort_jnl (p : Nat) (f : PortU → PortU) : (d.updPort p f).jnl = d.jnl := rfl
@[simp] theorem Dev.updPort_jt (p : Nat) (f : PortU → PortU) : (d.updPort p f).jt = d.jt := rfl
@[simp] theorem Dev.updPort_mem (p : Nat) (f : PortU → PortU) : (d.updPort p f).mem = d.mem := rfl
@[simp] theorem Dev.updPort_arr (p : Nat) (f : PortU → PortU) : (d.updPort p f).arr = d.arr := rfl
@[simp] theorem Dev.updPort_ag (p : Nat) (f : PortU → PortU) : (d.updPort p f).ag = d.ag := rfl
@[simp] theorem Dev.updPort_fwd (p : Nat) (f : PortU → PortU) : (d.updPort p f).fwd = d.fwd := rfl
@[simp] theorem Dev.updPort_vec (p : Nat) (f : PortU → PortU) : (d.updPort p f).vec = d.vec := rfl
@[simp] theorem Dev.updPort_dma (p : Nat) (f : PortU → PortU) : (d.updPort p f).dma = d.dma := rfl
@[simp] theorem Dev.updPort_bay (p : Nat) (f : PortU → PortU) : (d.updPort p f).bay = d.bay := rfl
@[simp] theorem Dev.updPort_ctx (p : Nat) (f : PortU → PortU) : (d.updPort p f).ctx = d.ctx := rfl
@[simp] theorem Dev.updPort_ring (p : Nat) (f : PortU → PortU) : (d.updPort p f).ring = d.ring := rfl
@[simp] theorem Dev.updPort_unmapped (p : Nat) (f : PortU → PortU) : (d.updPort p f).unmapped = d.unmapped := rfl
@[simp] theorem Dev.updPort_snap (p : Nat) (f : PortU → PortU) : (d.updPort p f).snap = d.snap := rfl
@[simp] theorem Dev.updPort_snapMissing (p : Nat) (f : PortU → PortU) : (d.updPort p f).snapMissing = d.snapMissing := rfl
@[simp] theorem Dev.updPort_snapTick (p : Nat) (f : PortU → PortU) : (d.updPort p f).snapTick = d.snapTick := rfl
@[simp] theorem Dev.updPort_snapKeys (p : Nat) (f : PortU → PortU) : (d.updPort p f).snapKeys = d.snapKeys := rfl
@[simp] theorem Dev.updPort_keySeq (p : Nat) (f : PortU → PortU) : (d.updPort p f).keySeq = d.keySeq := rfl
@[simp] theorem Dev.updPort_board (p : Nat) (f : PortU → PortU) : (d.updPort p f).board = d.board := rfl
@[simp] theorem Dev.updPort_rowDue (p : Nat) (f : PortU → PortU) : (d.updPort p f).rowDue = d.rowDue := rfl
@[simp] theorem Dev.updPort_sppr (p : Nat) (f : PortU → PortU) : (d.updPort p f).sppr = d.sppr := rfl
@[simp] theorem Dev.updPort_remaps (p : Nat) (f : PortU → PortU) : (d.updPort p f).remaps = d.remaps := rfl
@[simp] theorem Dev.updPort_dirty (p : Nat) (f : PortU → PortU) : (d.updPort p f).dirty = d.dirty := rfl
@[simp] theorem Dev.updPort_suspects (p : Nat) (f : PortU → PortU) : (d.updPort p f).suspects = d.suspects := rfl
@[simp] theorem Dev.updPort_fab (p : Nat) (f : PortU → PortU) : (d.updPort p f).fab = { d.fab with ports := Tab.put (fun _ => PortU.reset) d.fab.ports p (f (d.port p)) } := rfl
@[simp] theorem Dev.updPort_flt (p : Nat) (f : PortU → PortU) : (d.updPort p f).flt = d.flt := rfl
@[simp] theorem Dev.updPort_col (p : Nat) (f : PortU → PortU) : (d.updPort p f).col = d.col := rfl
@[simp] theorem Dev.updPort_pwr (p : Nat) (f : PortU → PortU) : (d.updPort p f).pwr = d.pwr := rfl
@[simp] theorem Dev.updPort_fw (p : Nat) (f : PortU → PortU) : (d.updPort p f).fw = d.fw := rfl
@[simp] theorem Dev.updPort_sec (p : Nat) (f : PortU → PortU) : (d.updPort p f).sec = d.sec := rfl
@[simp] theorem Dev.updPort_mgt (p : Nat) (f : PortU → PortU) : (d.updPort p f).mgt = d.mgt := rfl
@[simp] theorem Dev.updPort_boot (p : Nat) (f : PortU → PortU) : (d.updPort p f).boot = d.boot := rfl
@[simp] theorem Dev.updPort_pcieUp (p : Nat) (f : PortU → PortU) : (d.updPort p f).pcieUp = d.pcieUp := rfl
@[simp] theorem Dev.updPort_i3cAddr (p : Nat) (f : PortU → PortU) : (d.updPort p f).i3cAddr = d.i3cAddr := rfl
@[simp] theorem Dev.updPort_i3cPage (p : Nat) (f : PortU → PortU) : (d.updPort p f).i3cPage = d.i3cPage := rfl
@[simp] theorem Dev.updPort_out (p : Nat) (f : PortU → PortU) : (d.updPort p f).out = d.out := rfl

/-! ### putStream -/

@[simp] theorem Dev.putStream_regs (k : Nat) (r : RxStream) : (d.putStream k r).regs = d.regs := rfl
@[simp] theorem Dev.putStream_clk (k : Nat) (r : RxStream) : (d.putStream k r).clk = d.clk := rfl
@[simp] theorem Dev.putStream_jnl (k : Nat) (r : RxStream) : (d.putStream k r).jnl = d.jnl := rfl
@[simp] theorem Dev.putStream_jt (k : Nat) (r : RxStream) : (d.putStream k r).jt = d.jt := rfl
@[simp] theorem Dev.putStream_mem (k : Nat) (r : RxStream) : (d.putStream k r).mem = d.mem := rfl
@[simp] theorem Dev.putStream_arr (k : Nat) (r : RxStream) : (d.putStream k r).arr = d.arr := rfl
@[simp] theorem Dev.putStream_ag (k : Nat) (r : RxStream) : (d.putStream k r).ag = d.ag := rfl
@[simp] theorem Dev.putStream_fwd (k : Nat) (r : RxStream) : (d.putStream k r).fwd = d.fwd := rfl
@[simp] theorem Dev.putStream_vec (k : Nat) (r : RxStream) : (d.putStream k r).vec = d.vec := rfl
@[simp] theorem Dev.putStream_dma (k : Nat) (r : RxStream) : (d.putStream k r).dma = d.dma := rfl
@[simp] theorem Dev.putStream_bay (k : Nat) (r : RxStream) : (d.putStream k r).bay = d.bay := rfl
@[simp] theorem Dev.putStream_ctx (k : Nat) (r : RxStream) : (d.putStream k r).ctx = d.ctx := rfl
@[simp] theorem Dev.putStream_ring (k : Nat) (r : RxStream) : (d.putStream k r).ring = d.ring := rfl
@[simp] theorem Dev.putStream_unmapped (k : Nat) (r : RxStream) : (d.putStream k r).unmapped = d.unmapped := rfl
@[simp] theorem Dev.putStream_snap (k : Nat) (r : RxStream) : (d.putStream k r).snap = d.snap := rfl
@[simp] theorem Dev.putStream_snapMissing (k : Nat) (r : RxStream) : (d.putStream k r).snapMissing = d.snapMissing := rfl
@[simp] theorem Dev.putStream_snapTick (k : Nat) (r : RxStream) : (d.putStream k r).snapTick = d.snapTick := rfl
@[simp] theorem Dev.putStream_snapKeys (k : Nat) (r : RxStream) : (d.putStream k r).snapKeys = d.snapKeys := rfl
@[simp] theorem Dev.putStream_keySeq (k : Nat) (r : RxStream) : (d.putStream k r).keySeq = d.keySeq := rfl
@[simp] theorem Dev.putStream_board (k : Nat) (r : RxStream) : (d.putStream k r).board = d.board := rfl
@[simp] theorem Dev.putStream_rowDue (k : Nat) (r : RxStream) : (d.putStream k r).rowDue = d.rowDue := rfl
@[simp] theorem Dev.putStream_sppr (k : Nat) (r : RxStream) : (d.putStream k r).sppr = d.sppr := rfl
@[simp] theorem Dev.putStream_remaps (k : Nat) (r : RxStream) : (d.putStream k r).remaps = d.remaps := rfl
@[simp] theorem Dev.putStream_dirty (k : Nat) (r : RxStream) : (d.putStream k r).dirty = d.dirty := rfl
@[simp] theorem Dev.putStream_suspects (k : Nat) (r : RxStream) : (d.putStream k r).suspects = d.suspects := rfl
@[simp] theorem Dev.putStream_fab (k : Nat) (r : RxStream) : (d.putStream k r).fab = { d.fab with rx := Tab.put (fun _ => RxStream.reset) d.fab.rx k r } := rfl
@[simp] theorem Dev.putStream_flt (k : Nat) (r : RxStream) : (d.putStream k r).flt = d.flt := rfl
@[simp] theorem Dev.putStream_col (k : Nat) (r : RxStream) : (d.putStream k r).col = d.col := rfl
@[simp] theorem Dev.putStream_pwr (k : Nat) (r : RxStream) : (d.putStream k r).pwr = d.pwr := rfl
@[simp] theorem Dev.putStream_fw (k : Nat) (r : RxStream) : (d.putStream k r).fw = d.fw := rfl
@[simp] theorem Dev.putStream_sec (k : Nat) (r : RxStream) : (d.putStream k r).sec = d.sec := rfl
@[simp] theorem Dev.putStream_mgt (k : Nat) (r : RxStream) : (d.putStream k r).mgt = d.mgt := rfl
@[simp] theorem Dev.putStream_boot (k : Nat) (r : RxStream) : (d.putStream k r).boot = d.boot := rfl
@[simp] theorem Dev.putStream_pcieUp (k : Nat) (r : RxStream) : (d.putStream k r).pcieUp = d.pcieUp := rfl
@[simp] theorem Dev.putStream_i3cAddr (k : Nat) (r : RxStream) : (d.putStream k r).i3cAddr = d.i3cAddr := rfl
@[simp] theorem Dev.putStream_i3cPage (k : Nat) (r : RxStream) : (d.putStream k r).i3cPage = d.i3cPage := rfl
@[simp] theorem Dev.putStream_out (k : Nat) (r : RxStream) : (d.putStream k r).out = d.out := rfl

/-! ### putInst -/

@[simp] theorem Dev.putInst_regs (u : Inst) : (d.putInst u).regs = d.regs := rfl
@[simp] theorem Dev.putInst_clk (u : Inst) : (d.putInst u).clk = d.clk := rfl
@[simp] theorem Dev.putInst_jnl (u : Inst) : (d.putInst u).jnl = d.jnl := rfl
@[simp] theorem Dev.putInst_jt (u : Inst) : (d.putInst u).jt = d.jt := rfl
@[simp] theorem Dev.putInst_mem (u : Inst) : (d.putInst u).mem = d.mem := rfl
@[simp] theorem Dev.putInst_arr (u : Inst) : (d.putInst u).arr = d.arr := rfl
@[simp] theorem Dev.putInst_ag (u : Inst) : (d.putInst u).ag = d.ag := rfl
@[simp] theorem Dev.putInst_fwd (u : Inst) : (d.putInst u).fwd = d.fwd := rfl
@[simp] theorem Dev.putInst_vec (u : Inst) : (d.putInst u).vec = d.vec := rfl
@[simp] theorem Dev.putInst_dma (u : Inst) : (d.putInst u).dma = d.dma := rfl
@[simp] theorem Dev.putInst_bay (u : Inst) : (d.putInst u).bay = d.bay := rfl
@[simp] theorem Dev.putInst_ctx (u : Inst) : (d.putInst u).ctx = d.ctx := rfl
@[simp] theorem Dev.putInst_ring (u : Inst) : (d.putInst u).ring = d.ring := rfl
@[simp] theorem Dev.putInst_unmapped (u : Inst) : (d.putInst u).unmapped = d.unmapped := rfl
@[simp] theorem Dev.putInst_snap (u : Inst) : (d.putInst u).snap = d.snap := rfl
@[simp] theorem Dev.putInst_snapMissing (u : Inst) : (d.putInst u).snapMissing = d.snapMissing := rfl
@[simp] theorem Dev.putInst_snapTick (u : Inst) : (d.putInst u).snapTick = d.snapTick := rfl
@[simp] theorem Dev.putInst_snapKeys (u : Inst) : (d.putInst u).snapKeys = d.snapKeys := rfl
@[simp] theorem Dev.putInst_keySeq (u : Inst) : (d.putInst u).keySeq = d.keySeq := rfl
@[simp] theorem Dev.putInst_board (u : Inst) : (d.putInst u).board = d.board := rfl
@[simp] theorem Dev.putInst_rowDue (u : Inst) : (d.putInst u).rowDue = d.rowDue := rfl
@[simp] theorem Dev.putInst_sppr (u : Inst) : (d.putInst u).sppr = d.sppr := rfl
@[simp] theorem Dev.putInst_remaps (u : Inst) : (d.putInst u).remaps = d.remaps := rfl
@[simp] theorem Dev.putInst_dirty (u : Inst) : (d.putInst u).dirty = d.dirty := rfl
@[simp] theorem Dev.putInst_suspects (u : Inst) : (d.putInst u).suspects = d.suspects := rfl
@[simp] theorem Dev.putInst_fab (u : Inst) : (d.putInst u).fab = d.fab := rfl
@[simp] theorem Dev.putInst_flt (u : Inst) : (d.putInst u).flt = d.flt := rfl
@[simp] theorem Dev.putInst_col (u : Inst) : (d.putInst u).col = { d.col with insts := d.col.insts.map fun v => if v.isFor u.bay u.tbl u.step then u else v } := rfl
@[simp] theorem Dev.putInst_pwr (u : Inst) : (d.putInst u).pwr = d.pwr := rfl
@[simp] theorem Dev.putInst_fw (u : Inst) : (d.putInst u).fw = d.fw := rfl
@[simp] theorem Dev.putInst_sec (u : Inst) : (d.putInst u).sec = d.sec := rfl
@[simp] theorem Dev.putInst_mgt (u : Inst) : (d.putInst u).mgt = d.mgt := rfl
@[simp] theorem Dev.putInst_boot (u : Inst) : (d.putInst u).boot = d.boot := rfl
@[simp] theorem Dev.putInst_pcieUp (u : Inst) : (d.putInst u).pcieUp = d.pcieUp := rfl
@[simp] theorem Dev.putInst_i3cAddr (u : Inst) : (d.putInst u).i3cAddr = d.i3cAddr := rfl
@[simp] theorem Dev.putInst_i3cPage (u : Inst) : (d.putInst u).i3cPage = d.i3cPage := rfl
@[simp] theorem Dev.putInst_out (u : Inst) : (d.putInst u).out = d.out := rfl

/-! ### emit -/

@[simp] theorem Dev.emit_regs (o : Output) : (d.emit o).regs = d.regs := rfl
@[simp] theorem Dev.emit_clk (o : Output) : (d.emit o).clk = d.clk := rfl
@[simp] theorem Dev.emit_jnl (o : Output) : (d.emit o).jnl = d.jnl := rfl
@[simp] theorem Dev.emit_jt (o : Output) : (d.emit o).jt = d.jt := rfl
@[simp] theorem Dev.emit_mem (o : Output) : (d.emit o).mem = d.mem := rfl
@[simp] theorem Dev.emit_arr (o : Output) : (d.emit o).arr = d.arr := rfl
@[simp] theorem Dev.emit_ag (o : Output) : (d.emit o).ag = d.ag := rfl
@[simp] theorem Dev.emit_fwd (o : Output) : (d.emit o).fwd = d.fwd := rfl
@[simp] theorem Dev.emit_vec (o : Output) : (d.emit o).vec = d.vec := rfl
@[simp] theorem Dev.emit_dma (o : Output) : (d.emit o).dma = d.dma := rfl
@[simp] theorem Dev.emit_bay (o : Output) : (d.emit o).bay = d.bay := rfl
@[simp] theorem Dev.emit_ctx (o : Output) : (d.emit o).ctx = d.ctx := rfl
@[simp] theorem Dev.emit_ring (o : Output) : (d.emit o).ring = d.ring := rfl
@[simp] theorem Dev.emit_unmapped (o : Output) : (d.emit o).unmapped = d.unmapped := rfl
@[simp] theorem Dev.emit_snap (o : Output) : (d.emit o).snap = d.snap := rfl
@[simp] theorem Dev.emit_snapMissing (o : Output) : (d.emit o).snapMissing = d.snapMissing := rfl
@[simp] theorem Dev.emit_snapTick (o : Output) : (d.emit o).snapTick = d.snapTick := rfl
@[simp] theorem Dev.emit_snapKeys (o : Output) : (d.emit o).snapKeys = d.snapKeys := rfl
@[simp] theorem Dev.emit_keySeq (o : Output) : (d.emit o).keySeq = d.keySeq := rfl
@[simp] theorem Dev.emit_board (o : Output) : (d.emit o).board = d.board := rfl
@[simp] theorem Dev.emit_rowDue (o : Output) : (d.emit o).rowDue = d.rowDue := rfl
@[simp] theorem Dev.emit_sppr (o : Output) : (d.emit o).sppr = d.sppr := rfl
@[simp] theorem Dev.emit_remaps (o : Output) : (d.emit o).remaps = d.remaps := rfl
@[simp] theorem Dev.emit_dirty (o : Output) : (d.emit o).dirty = d.dirty := rfl
@[simp] theorem Dev.emit_suspects (o : Output) : (d.emit o).suspects = d.suspects := rfl
@[simp] theorem Dev.emit_fab (o : Output) : (d.emit o).fab = d.fab := rfl
@[simp] theorem Dev.emit_flt (o : Output) : (d.emit o).flt = d.flt := rfl
@[simp] theorem Dev.emit_col (o : Output) : (d.emit o).col = d.col := rfl
@[simp] theorem Dev.emit_pwr (o : Output) : (d.emit o).pwr = d.pwr := rfl
@[simp] theorem Dev.emit_fw (o : Output) : (d.emit o).fw = d.fw := rfl
@[simp] theorem Dev.emit_sec (o : Output) : (d.emit o).sec = d.sec := rfl
@[simp] theorem Dev.emit_mgt (o : Output) : (d.emit o).mgt = d.mgt := rfl
@[simp] theorem Dev.emit_boot (o : Output) : (d.emit o).boot = d.boot := rfl
@[simp] theorem Dev.emit_pcieUp (o : Output) : (d.emit o).pcieUp = d.pcieUp := rfl
@[simp] theorem Dev.emit_i3cAddr (o : Output) : (d.emit o).i3cAddr = d.i3cAddr := rfl
@[simp] theorem Dev.emit_i3cPage (o : Output) : (d.emit o).i3cPage = d.i3cPage := rfl
@[simp] theorem Dev.emit_out (o : Output) : (d.emit o).out = d.out ++ [o] := rfl

/-! ### setBoot -/

@[simp] theorem Dev.setBoot_regs (f : BootU → BootU) : (d.setBoot f).regs = d.regs := rfl
@[simp] theorem Dev.setBoot_clk (f : BootU → BootU) : (d.setBoot f).clk = d.clk := rfl
@[simp] theorem Dev.setBoot_jnl (f : BootU → BootU) : (d.setBoot f).jnl = d.jnl := rfl
@[simp] theorem Dev.setBoot_jt (f : BootU → BootU) : (d.setBoot f).jt = d.jt := rfl
@[simp] theorem Dev.setBoot_mem (f : BootU → BootU) : (d.setBoot f).mem = d.mem := rfl
@[simp] theorem Dev.setBoot_arr (f : BootU → BootU) : (d.setBoot f).arr = d.arr := rfl
@[simp] theorem Dev.setBoot_ag (f : BootU → BootU) : (d.setBoot f).ag = d.ag := rfl
@[simp] theorem Dev.setBoot_fwd (f : BootU → BootU) : (d.setBoot f).fwd = d.fwd := rfl
@[simp] theorem Dev.setBoot_vec (f : BootU → BootU) : (d.setBoot f).vec = d.vec := rfl
@[simp] theorem Dev.setBoot_dma (f : BootU → BootU) : (d.setBoot f).dma = d.dma := rfl
@[simp] theorem Dev.setBoot_bay (f : BootU → BootU) : (d.setBoot f).bay = d.bay := rfl
@[simp] theorem Dev.setBoot_ctx (f : BootU → BootU) : (d.setBoot f).ctx = d.ctx := rfl
@[simp] theorem Dev.setBoot_ring (f : BootU → BootU) : (d.setBoot f).ring = d.ring := rfl
@[simp] theorem Dev.setBoot_unmapped (f : BootU → BootU) : (d.setBoot f).unmapped = d.unmapped := rfl
@[simp] theorem Dev.setBoot_snap (f : BootU → BootU) : (d.setBoot f).snap = d.snap := rfl
@[simp] theorem Dev.setBoot_snapMissing (f : BootU → BootU) : (d.setBoot f).snapMissing = d.snapMissing := rfl
@[simp] theorem Dev.setBoot_snapTick (f : BootU → BootU) : (d.setBoot f).snapTick = d.snapTick := rfl
@[simp] theorem Dev.setBoot_snapKeys (f : BootU → BootU) : (d.setBoot f).snapKeys = d.snapKeys := rfl
@[simp] theorem Dev.setBoot_keySeq (f : BootU → BootU) : (d.setBoot f).keySeq = d.keySeq := rfl
@[simp] theorem Dev.setBoot_board (f : BootU → BootU) : (d.setBoot f).board = d.board := rfl
@[simp] theorem Dev.setBoot_rowDue (f : BootU → BootU) : (d.setBoot f).rowDue = d.rowDue := rfl
@[simp] theorem Dev.setBoot_sppr (f : BootU → BootU) : (d.setBoot f).sppr = d.sppr := rfl
@[simp] theorem Dev.setBoot_remaps (f : BootU → BootU) : (d.setBoot f).remaps = d.remaps := rfl
@[simp] theorem Dev.setBoot_dirty (f : BootU → BootU) : (d.setBoot f).dirty = d.dirty := rfl
@[simp] theorem Dev.setBoot_suspects (f : BootU → BootU) : (d.setBoot f).suspects = d.suspects := rfl
@[simp] theorem Dev.setBoot_fab (f : BootU → BootU) : (d.setBoot f).fab = d.fab := rfl
@[simp] theorem Dev.setBoot_flt (f : BootU → BootU) : (d.setBoot f).flt = d.flt := rfl
@[simp] theorem Dev.setBoot_col (f : BootU → BootU) : (d.setBoot f).col = d.col := rfl
@[simp] theorem Dev.setBoot_pwr (f : BootU → BootU) : (d.setBoot f).pwr = d.pwr := rfl
@[simp] theorem Dev.setBoot_fw (f : BootU → BootU) : (d.setBoot f).fw = d.fw := rfl
@[simp] theorem Dev.setBoot_sec (f : BootU → BootU) : (d.setBoot f).sec = d.sec := rfl
@[simp] theorem Dev.setBoot_mgt (f : BootU → BootU) : (d.setBoot f).mgt = d.mgt := rfl
@[simp] theorem Dev.setBoot_boot (f : BootU → BootU) : (d.setBoot f).boot = f d.boot := rfl
@[simp] theorem Dev.setBoot_pcieUp (f : BootU → BootU) : (d.setBoot f).pcieUp = d.pcieUp := rfl
@[simp] theorem Dev.setBoot_i3cAddr (f : BootU → BootU) : (d.setBoot f).i3cAddr = d.i3cAddr := rfl
@[simp] theorem Dev.setBoot_i3cPage (f : BootU → BootU) : (d.setBoot f).i3cPage = d.i3cPage := rfl
@[simp] theorem Dev.setBoot_out (f : BootU → BootU) : (d.setBoot f).out = d.out := rfl

/-! ### setFw -/

@[simp] theorem Dev.setFw_regs (f : FwU → FwU) : (d.setFw f).regs = d.regs := rfl
@[simp] theorem Dev.setFw_clk (f : FwU → FwU) : (d.setFw f).clk = d.clk := rfl
@[simp] theorem Dev.setFw_jnl (f : FwU → FwU) : (d.setFw f).jnl = d.jnl := rfl
@[simp] theorem Dev.setFw_jt (f : FwU → FwU) : (d.setFw f).jt = d.jt := rfl
@[simp] theorem Dev.setFw_mem (f : FwU → FwU) : (d.setFw f).mem = d.mem := rfl
@[simp] theorem Dev.setFw_arr (f : FwU → FwU) : (d.setFw f).arr = d.arr := rfl
@[simp] theorem Dev.setFw_ag (f : FwU → FwU) : (d.setFw f).ag = d.ag := rfl
@[simp] theorem Dev.setFw_fwd (f : FwU → FwU) : (d.setFw f).fwd = d.fwd := rfl
@[simp] theorem Dev.setFw_vec (f : FwU → FwU) : (d.setFw f).vec = d.vec := rfl
@[simp] theorem Dev.setFw_dma (f : FwU → FwU) : (d.setFw f).dma = d.dma := rfl
@[simp] theorem Dev.setFw_bay (f : FwU → FwU) : (d.setFw f).bay = d.bay := rfl
@[simp] theorem Dev.setFw_ctx (f : FwU → FwU) : (d.setFw f).ctx = d.ctx := rfl
@[simp] theorem Dev.setFw_ring (f : FwU → FwU) : (d.setFw f).ring = d.ring := rfl
@[simp] theorem Dev.setFw_unmapped (f : FwU → FwU) : (d.setFw f).unmapped = d.unmapped := rfl
@[simp] theorem Dev.setFw_snap (f : FwU → FwU) : (d.setFw f).snap = d.snap := rfl
@[simp] theorem Dev.setFw_snapMissing (f : FwU → FwU) : (d.setFw f).snapMissing = d.snapMissing := rfl
@[simp] theorem Dev.setFw_snapTick (f : FwU → FwU) : (d.setFw f).snapTick = d.snapTick := rfl
@[simp] theorem Dev.setFw_snapKeys (f : FwU → FwU) : (d.setFw f).snapKeys = d.snapKeys := rfl
@[simp] theorem Dev.setFw_keySeq (f : FwU → FwU) : (d.setFw f).keySeq = d.keySeq := rfl
@[simp] theorem Dev.setFw_board (f : FwU → FwU) : (d.setFw f).board = d.board := rfl
@[simp] theorem Dev.setFw_rowDue (f : FwU → FwU) : (d.setFw f).rowDue = d.rowDue := rfl
@[simp] theorem Dev.setFw_sppr (f : FwU → FwU) : (d.setFw f).sppr = d.sppr := rfl
@[simp] theorem Dev.setFw_remaps (f : FwU → FwU) : (d.setFw f).remaps = d.remaps := rfl
@[simp] theorem Dev.setFw_dirty (f : FwU → FwU) : (d.setFw f).dirty = d.dirty := rfl
@[simp] theorem Dev.setFw_suspects (f : FwU → FwU) : (d.setFw f).suspects = d.suspects := rfl
@[simp] theorem Dev.setFw_fab (f : FwU → FwU) : (d.setFw f).fab = d.fab := rfl
@[simp] theorem Dev.setFw_flt (f : FwU → FwU) : (d.setFw f).flt = d.flt := rfl
@[simp] theorem Dev.setFw_col (f : FwU → FwU) : (d.setFw f).col = d.col := rfl
@[simp] theorem Dev.setFw_pwr (f : FwU → FwU) : (d.setFw f).pwr = d.pwr := rfl
@[simp] theorem Dev.setFw_fw (f : FwU → FwU) : (d.setFw f).fw = f d.fw := rfl
@[simp] theorem Dev.setFw_sec (f : FwU → FwU) : (d.setFw f).sec = d.sec := rfl
@[simp] theorem Dev.setFw_mgt (f : FwU → FwU) : (d.setFw f).mgt = d.mgt := rfl
@[simp] theorem Dev.setFw_boot (f : FwU → FwU) : (d.setFw f).boot = d.boot := rfl
@[simp] theorem Dev.setFw_pcieUp (f : FwU → FwU) : (d.setFw f).pcieUp = d.pcieUp := rfl
@[simp] theorem Dev.setFw_i3cAddr (f : FwU → FwU) : (d.setFw f).i3cAddr = d.i3cAddr := rfl
@[simp] theorem Dev.setFw_i3cPage (f : FwU → FwU) : (d.setFw f).i3cPage = d.i3cPage := rfl
@[simp] theorem Dev.setFw_out (f : FwU → FwU) : (d.setFw f).out = d.out := rfl

/-! ### setMgt -/

@[simp] theorem Dev.setMgt_regs (f : MgtU → MgtU) : (d.setMgt f).regs = d.regs := rfl
@[simp] theorem Dev.setMgt_clk (f : MgtU → MgtU) : (d.setMgt f).clk = d.clk := rfl
@[simp] theorem Dev.setMgt_jnl (f : MgtU → MgtU) : (d.setMgt f).jnl = d.jnl := rfl
@[simp] theorem Dev.setMgt_jt (f : MgtU → MgtU) : (d.setMgt f).jt = d.jt := rfl
@[simp] theorem Dev.setMgt_mem (f : MgtU → MgtU) : (d.setMgt f).mem = d.mem := rfl
@[simp] theorem Dev.setMgt_arr (f : MgtU → MgtU) : (d.setMgt f).arr = d.arr := rfl
@[simp] theorem Dev.setMgt_ag (f : MgtU → MgtU) : (d.setMgt f).ag = d.ag := rfl
@[simp] theorem Dev.setMgt_fwd (f : MgtU → MgtU) : (d.setMgt f).fwd = d.fwd := rfl
@[simp] theorem Dev.setMgt_vec (f : MgtU → MgtU) : (d.setMgt f).vec = d.vec := rfl
@[simp] theorem Dev.setMgt_dma (f : MgtU → MgtU) : (d.setMgt f).dma = d.dma := rfl
@[simp] theorem Dev.setMgt_bay (f : MgtU → MgtU) : (d.setMgt f).bay = d.bay := rfl
@[simp] theorem Dev.setMgt_ctx (f : MgtU → MgtU) : (d.setMgt f).ctx = d.ctx := rfl
@[simp] theorem Dev.setMgt_ring (f : MgtU → MgtU) : (d.setMgt f).ring = d.ring := rfl
@[simp] theorem Dev.setMgt_unmapped (f : MgtU → MgtU) : (d.setMgt f).unmapped = d.unmapped := rfl
@[simp] theorem Dev.setMgt_snap (f : MgtU → MgtU) : (d.setMgt f).snap = d.snap := rfl
@[simp] theorem Dev.setMgt_snapMissing (f : MgtU → MgtU) : (d.setMgt f).snapMissing = d.snapMissing := rfl
@[simp] theorem Dev.setMgt_snapTick (f : MgtU → MgtU) : (d.setMgt f).snapTick = d.snapTick := rfl
@[simp] theorem Dev.setMgt_snapKeys (f : MgtU → MgtU) : (d.setMgt f).snapKeys = d.snapKeys := rfl
@[simp] theorem Dev.setMgt_keySeq (f : MgtU → MgtU) : (d.setMgt f).keySeq = d.keySeq := rfl
@[simp] theorem Dev.setMgt_board (f : MgtU → MgtU) : (d.setMgt f).board = d.board := rfl
@[simp] theorem Dev.setMgt_rowDue (f : MgtU → MgtU) : (d.setMgt f).rowDue = d.rowDue := rfl
@[simp] theorem Dev.setMgt_sppr (f : MgtU → MgtU) : (d.setMgt f).sppr = d.sppr := rfl
@[simp] theorem Dev.setMgt_remaps (f : MgtU → MgtU) : (d.setMgt f).remaps = d.remaps := rfl
@[simp] theorem Dev.setMgt_dirty (f : MgtU → MgtU) : (d.setMgt f).dirty = d.dirty := rfl
@[simp] theorem Dev.setMgt_suspects (f : MgtU → MgtU) : (d.setMgt f).suspects = d.suspects := rfl
@[simp] theorem Dev.setMgt_fab (f : MgtU → MgtU) : (d.setMgt f).fab = d.fab := rfl
@[simp] theorem Dev.setMgt_flt (f : MgtU → MgtU) : (d.setMgt f).flt = d.flt := rfl
@[simp] theorem Dev.setMgt_col (f : MgtU → MgtU) : (d.setMgt f).col = d.col := rfl
@[simp] theorem Dev.setMgt_pwr (f : MgtU → MgtU) : (d.setMgt f).pwr = d.pwr := rfl
@[simp] theorem Dev.setMgt_fw (f : MgtU → MgtU) : (d.setMgt f).fw = d.fw := rfl
@[simp] theorem Dev.setMgt_sec (f : MgtU → MgtU) : (d.setMgt f).sec = d.sec := rfl
@[simp] theorem Dev.setMgt_mgt (f : MgtU → MgtU) : (d.setMgt f).mgt = f d.mgt := rfl
@[simp] theorem Dev.setMgt_boot (f : MgtU → MgtU) : (d.setMgt f).boot = d.boot := rfl
@[simp] theorem Dev.setMgt_pcieUp (f : MgtU → MgtU) : (d.setMgt f).pcieUp = d.pcieUp := rfl
@[simp] theorem Dev.setMgt_i3cAddr (f : MgtU → MgtU) : (d.setMgt f).i3cAddr = d.i3cAddr := rfl
@[simp] theorem Dev.setMgt_i3cPage (f : MgtU → MgtU) : (d.setMgt f).i3cPage = d.i3cPage := rfl
@[simp] theorem Dev.setMgt_out (f : MgtU → MgtU) : (d.setMgt f).out = d.out := rfl

/-! ### setPwr -/

@[simp] theorem Dev.setPwr_regs (f : PwrU → PwrU) : (d.setPwr f).regs = d.regs := rfl
@[simp] theorem Dev.setPwr_clk (f : PwrU → PwrU) : (d.setPwr f).clk = d.clk := rfl
@[simp] theorem Dev.setPwr_jnl (f : PwrU → PwrU) : (d.setPwr f).jnl = d.jnl := rfl
@[simp] theorem Dev.setPwr_jt (f : PwrU → PwrU) : (d.setPwr f).jt = d.jt := rfl
@[simp] theorem Dev.setPwr_mem (f : PwrU → PwrU) : (d.setPwr f).mem = d.mem := rfl
@[simp] theorem Dev.setPwr_arr (f : PwrU → PwrU) : (d.setPwr f).arr = d.arr := rfl
@[simp] theorem Dev.setPwr_ag (f : PwrU → PwrU) : (d.setPwr f).ag = d.ag := rfl
@[simp] theorem Dev.setPwr_fwd (f : PwrU → PwrU) : (d.setPwr f).fwd = d.fwd := rfl
@[simp] theorem Dev.setPwr_vec (f : PwrU → PwrU) : (d.setPwr f).vec = d.vec := rfl
@[simp] theorem Dev.setPwr_dma (f : PwrU → PwrU) : (d.setPwr f).dma = d.dma := rfl
@[simp] theorem Dev.setPwr_bay (f : PwrU → PwrU) : (d.setPwr f).bay = d.bay := rfl
@[simp] theorem Dev.setPwr_ctx (f : PwrU → PwrU) : (d.setPwr f).ctx = d.ctx := rfl
@[simp] theorem Dev.setPwr_ring (f : PwrU → PwrU) : (d.setPwr f).ring = d.ring := rfl
@[simp] theorem Dev.setPwr_unmapped (f : PwrU → PwrU) : (d.setPwr f).unmapped = d.unmapped := rfl
@[simp] theorem Dev.setPwr_snap (f : PwrU → PwrU) : (d.setPwr f).snap = d.snap := rfl
@[simp] theorem Dev.setPwr_snapMissing (f : PwrU → PwrU) : (d.setPwr f).snapMissing = d.snapMissing := rfl
@[simp] theorem Dev.setPwr_snapTick (f : PwrU → PwrU) : (d.setPwr f).snapTick = d.snapTick := rfl
@[simp] theorem Dev.setPwr_snapKeys (f : PwrU → PwrU) : (d.setPwr f).snapKeys = d.snapKeys := rfl
@[simp] theorem Dev.setPwr_keySeq (f : PwrU → PwrU) : (d.setPwr f).keySeq = d.keySeq := rfl
@[simp] theorem Dev.setPwr_board (f : PwrU → PwrU) : (d.setPwr f).board = d.board := rfl
@[simp] theorem Dev.setPwr_rowDue (f : PwrU → PwrU) : (d.setPwr f).rowDue = d.rowDue := rfl
@[simp] theorem Dev.setPwr_sppr (f : PwrU → PwrU) : (d.setPwr f).sppr = d.sppr := rfl
@[simp] theorem Dev.setPwr_remaps (f : PwrU → PwrU) : (d.setPwr f).remaps = d.remaps := rfl
@[simp] theorem Dev.setPwr_dirty (f : PwrU → PwrU) : (d.setPwr f).dirty = d.dirty := rfl
@[simp] theorem Dev.setPwr_suspects (f : PwrU → PwrU) : (d.setPwr f).suspects = d.suspects := rfl
@[simp] theorem Dev.setPwr_fab (f : PwrU → PwrU) : (d.setPwr f).fab = d.fab := rfl
@[simp] theorem Dev.setPwr_flt (f : PwrU → PwrU) : (d.setPwr f).flt = d.flt := rfl
@[simp] theorem Dev.setPwr_col (f : PwrU → PwrU) : (d.setPwr f).col = d.col := rfl
@[simp] theorem Dev.setPwr_pwr (f : PwrU → PwrU) : (d.setPwr f).pwr = f d.pwr := rfl
@[simp] theorem Dev.setPwr_fw (f : PwrU → PwrU) : (d.setPwr f).fw = d.fw := rfl
@[simp] theorem Dev.setPwr_sec (f : PwrU → PwrU) : (d.setPwr f).sec = d.sec := rfl
@[simp] theorem Dev.setPwr_mgt (f : PwrU → PwrU) : (d.setPwr f).mgt = d.mgt := rfl
@[simp] theorem Dev.setPwr_boot (f : PwrU → PwrU) : (d.setPwr f).boot = d.boot := rfl
@[simp] theorem Dev.setPwr_pcieUp (f : PwrU → PwrU) : (d.setPwr f).pcieUp = d.pcieUp := rfl
@[simp] theorem Dev.setPwr_i3cAddr (f : PwrU → PwrU) : (d.setPwr f).i3cAddr = d.i3cAddr := rfl
@[simp] theorem Dev.setPwr_i3cPage (f : PwrU → PwrU) : (d.setPwr f).i3cPage = d.i3cPage := rfl
@[simp] theorem Dev.setPwr_out (f : PwrU → PwrU) : (d.setPwr f).out = d.out := rfl

/-! ### setJnl -/

@[simp] theorem Dev.setJnl_regs (f : Journal → Journal) : (d.setJnl f).regs = d.regs := rfl
@[simp] theorem Dev.setJnl_clk (f : Journal → Journal) : (d.setJnl f).clk = d.clk := rfl
@[simp] theorem Dev.setJnl_jnl (f : Journal → Journal) : (d.setJnl f).jnl = f d.jnl := rfl
@[simp] theorem Dev.setJnl_jt (f : Journal → Journal) : (d.setJnl f).jt = d.jt := rfl
@[simp] theorem Dev.setJnl_mem (f : Journal → Journal) : (d.setJnl f).mem = d.mem := rfl
@[simp] theorem Dev.setJnl_arr (f : Journal → Journal) : (d.setJnl f).arr = d.arr := rfl
@[simp] theorem Dev.setJnl_ag (f : Journal → Journal) : (d.setJnl f).ag = d.ag := rfl
@[simp] theorem Dev.setJnl_fwd (f : Journal → Journal) : (d.setJnl f).fwd = d.fwd := rfl
@[simp] theorem Dev.setJnl_vec (f : Journal → Journal) : (d.setJnl f).vec = d.vec := rfl
@[simp] theorem Dev.setJnl_dma (f : Journal → Journal) : (d.setJnl f).dma = d.dma := rfl
@[simp] theorem Dev.setJnl_bay (f : Journal → Journal) : (d.setJnl f).bay = d.bay := rfl
@[simp] theorem Dev.setJnl_ctx (f : Journal → Journal) : (d.setJnl f).ctx = d.ctx := rfl
@[simp] theorem Dev.setJnl_ring (f : Journal → Journal) : (d.setJnl f).ring = d.ring := rfl
@[simp] theorem Dev.setJnl_unmapped (f : Journal → Journal) : (d.setJnl f).unmapped = d.unmapped := rfl
@[simp] theorem Dev.setJnl_snap (f : Journal → Journal) : (d.setJnl f).snap = d.snap := rfl
@[simp] theorem Dev.setJnl_snapMissing (f : Journal → Journal) : (d.setJnl f).snapMissing = d.snapMissing := rfl
@[simp] theorem Dev.setJnl_snapTick (f : Journal → Journal) : (d.setJnl f).snapTick = d.snapTick := rfl
@[simp] theorem Dev.setJnl_snapKeys (f : Journal → Journal) : (d.setJnl f).snapKeys = d.snapKeys := rfl
@[simp] theorem Dev.setJnl_keySeq (f : Journal → Journal) : (d.setJnl f).keySeq = d.keySeq := rfl
@[simp] theorem Dev.setJnl_board (f : Journal → Journal) : (d.setJnl f).board = d.board := rfl
@[simp] theorem Dev.setJnl_rowDue (f : Journal → Journal) : (d.setJnl f).rowDue = d.rowDue := rfl
@[simp] theorem Dev.setJnl_sppr (f : Journal → Journal) : (d.setJnl f).sppr = d.sppr := rfl
@[simp] theorem Dev.setJnl_remaps (f : Journal → Journal) : (d.setJnl f).remaps = d.remaps := rfl
@[simp] theorem Dev.setJnl_dirty (f : Journal → Journal) : (d.setJnl f).dirty = d.dirty := rfl
@[simp] theorem Dev.setJnl_suspects (f : Journal → Journal) : (d.setJnl f).suspects = d.suspects := rfl
@[simp] theorem Dev.setJnl_fab (f : Journal → Journal) : (d.setJnl f).fab = d.fab := rfl
@[simp] theorem Dev.setJnl_flt (f : Journal → Journal) : (d.setJnl f).flt = d.flt := rfl
@[simp] theorem Dev.setJnl_col (f : Journal → Journal) : (d.setJnl f).col = d.col := rfl
@[simp] theorem Dev.setJnl_pwr (f : Journal → Journal) : (d.setJnl f).pwr = d.pwr := rfl
@[simp] theorem Dev.setJnl_fw (f : Journal → Journal) : (d.setJnl f).fw = d.fw := rfl
@[simp] theorem Dev.setJnl_sec (f : Journal → Journal) : (d.setJnl f).sec = d.sec := rfl
@[simp] theorem Dev.setJnl_mgt (f : Journal → Journal) : (d.setJnl f).mgt = d.mgt := rfl
@[simp] theorem Dev.setJnl_boot (f : Journal → Journal) : (d.setJnl f).boot = d.boot := rfl
@[simp] theorem Dev.setJnl_pcieUp (f : Journal → Journal) : (d.setJnl f).pcieUp = d.pcieUp := rfl
@[simp] theorem Dev.setJnl_i3cAddr (f : Journal → Journal) : (d.setJnl f).i3cAddr = d.i3cAddr := rfl
@[simp] theorem Dev.setJnl_i3cPage (f : Journal → Journal) : (d.setJnl f).i3cPage = d.i3cPage := rfl
@[simp] theorem Dev.setJnl_out (f : Journal → Journal) : (d.setJnl f).out = d.out := rfl

/-! ### The state -/

variable (s : State)

@[simp] theorem State.popped_dev (l : List Instr) : (s.popped l).dev = s.dev := rfl
@[simp] theorem State.popped_pending (l : List Instr) : (s.popped l).pending = l := rfl

/-- What a command's effect on the device answers. -/
theorem onDev_eq (f : Dev → Dev) : onDev s f = .next { s with dev := f s.dev } := rfl

end Sys2Proof.Machine
end

