-- ==== Sys2Proof/Laws/Tab.lean ====
section
/-! SUPPORT. Sparse maps: what a changed map reads as, and that every operation on it keeps the canonical form. -/

namespace Sys2Proof.Machine

variable {α : Type}

/-- Looking a key up among the entries that meet a test which the key's entries all meet. -/
theorem Tab.find_filter (t : Tab α) (k : Nat) (p : Nat → Bool) (h : p k = true) :
    (t.filter fun e => p e.1).find? (fun e => e.1 == k) = t.find? fun e => e.1 == k := by
  rw [List.find?_filter]
  congr 1
  funext e
  by_cases hk : e.1 = k <;> simp [hk, h]

/-- Looking a key up among entries that all fail to have it. -/
theorem Tab.find_filter_none (t : Tab α) (k : Nat) (p : Nat → Bool) (h : p k = false) :
    (t.filter fun e => p e.1).find? (fun e => e.1 == k) = none := by
  rw [List.find?_filter, List.find?_eq_none]
  intro e _
  by_cases hk : e.1 = k <;> simp [hk, h]

/-- A key that was written reads as what was written. -/
@[simp] theorem Tab.get_put_same [DecidableEq α] (dflt : Nat → α) (t : Tab α) (k : Nat) (v : α) :
    Tab.get dflt (Tab.put dflt t k v) k = v := by
  unfold Tab.get Tab.put
  rw [List.find?_append, List.find?_append, Tab.find_filter_none t k (fun j => decide (j < k)) (by simp),
    Tab.find_filter_none t k (fun j => decide (k < j)) (by simp)]
  by_cases h : v = dflt k <;> simp [h]

/-- Every other key reads as before. -/
theorem Tab.get_put_other [DecidableEq α] (dflt : Nat → α) (t : Tab α) (k j : Nat) (v : α) (h : j ≠ k) :
    Tab.get dflt (Tab.put dflt t k v) j = Tab.get dflt t j := by
  unfold Tab.get Tab.put
  rw [List.find?_append, List.find?_append]
  have mid : (if v = dflt k then [] else [(k, v)]).find? (fun e => e.1 == j) = none := by
    by_cases hv : v = dflt k <;> simp [hv, Ne.symm h]
  rw [mid]
  rcases Nat.lt_or_gt_of_ne h with hl | hg
  · rw [Tab.find_filter t j (fun i => decide (i < k)) (by simp [hl]),
      Tab.find_filter_none t j (fun i => decide (k < i)) (by simp; omega)]
    simp
  · rw [Tab.find_filter_none t j (fun i => decide (i < k)) (by simp; omega),
      Tab.find_filter t j (fun i => decide (k < i)) (by simp; omega)]
    simp

/-- An empty map reads as its default. -/
@[simp] theorem Tab.get_nil (dflt : Nat → α) (k : Nat) : Tab.get dflt ([] : Tab α) k = dflt k := rfl

/-- The canonical form as two plain facts: strictly rising keys, and no entry at its default. -/
theorem Tab.wf_iff [DecidableEq α] (dflt : Nat → α) (t : Tab α) :
    Tab.wf dflt t = true ↔ t.Pairwise (fun p q => p.1 < q.1) ∧ ∀ p ∈ t, p.2 ≠ dflt p.1 := by
  induction t with
  | nil => simp [Tab.wf]
  | cons p t ih =>
    cases t with
    | nil => simp [Tab.wf]
    | cons q r =>
      simp only [Tab.wf, Bool.and_eq_true, decide_eq_true_eq, ih, List.pairwise_cons, List.mem_cons]
      constructor
      · rintro ⟨⟨hp, hlt⟩, ⟨hq, hr⟩, hall⟩
        refine ⟨⟨?_, hq, hr⟩, ?_⟩
        · rintro x (rfl | hx)
          · exact hlt
          · exact Nat.lt_trans hlt (hq x hx)
        · rintro x (rfl | hx)
          · exact hp
          · exact hall x hx
      · rintro ⟨⟨hlt, hq, hr⟩, hall⟩
        exact ⟨⟨hall p (.inl rfl), hlt q (.inl rfl)⟩, ⟨hq, hr⟩, fun x hx => hall x (.inr hx)⟩

/-- Dropping entries keeps the canonical form. -/
theorem Tab.wf_filter [DecidableEq α] (dflt : Nat → α) (t : Tab α) (p : Nat × α → Bool) (h : Tab.wf dflt t = true) :
    Tab.wf dflt (t.filter p) = true := by
  rw [Tab.wf_iff] at h ⊢
  exact ⟨h.1.filter p, fun x hx => h.2 x (List.mem_of_mem_filter hx)⟩

/-- Writing keeps the canonical form. -/
theorem Tab.wf_put [DecidableEq α] (dflt : Nat → α) (t : Tab α) (k : Nat) (v : α) (h : Tab.wf dflt t = true) :
    Tab.wf dflt (Tab.put dflt t k v) = true := by
  rw [Tab.wf_iff] at h ⊢
  unfold Tab.put
  constructor
  · rw [List.pairwise_append, List.pairwise_append]
    refine ⟨⟨h.1.filter _, ?_, ?_⟩, h.1.filter _, ?_⟩
    · by_cases hv : v = dflt k <;> simp [hv]
    · intro x hx y hy
      by_cases hv : v = dflt k <;> simp [hv] at hy
      subst hy
      simpa using List.of_mem_filter hx
    · intro x hx y hy
      have hy' : k < y.1 := by simpa using List.of_mem_filter hy
      rcases List.mem_append.mp hx with hx | hx
      · have : x.1 < k := by simpa using List.of_mem_filter hx
        omega
      · by_cases hv : v = dflt k <;> simp [hv] at hx
        subst hx
        exact hy'
  · intro x hx
    rcases List.mem_append.mp hx with hx | hx
    · rcases List.mem_append.mp hx with hx | hx
      · exact h.2 x (List.mem_of_mem_filter hx)
      · by_cases hv : v = dflt k <;> simp [hv] at hx
        subst hx
        exact hv
    · exact h.2 x (List.mem_of_mem_filter hx)

end Sys2Proof.Machine
end

