-- ==== Sys2Proof/Laws/Reg.lean ====
section
/-! SUPPORT. Registers and their fields: what a written field reads as, and what it leaves as it was. -/

namespace Sys2Proof.Machine

/-- The number that insField forms. -/
def insNat (v lo w n : Nat) : Nat := v % 2 ^ lo + ((n % 2 ^ w) <<< lo) + ((v >>> (lo + w)) <<< (lo + w))

/-- Its bits below the end of the field, and its bits above. -/
theorem insNat_split (v lo w n : Nat) :
    insNat v lo w n = (v % 2 ^ lo + n % 2 ^ w * 2 ^ lo) + v / 2 ^ (lo + w) * 2 ^ (lo + w) := by
  simp only [insNat, Nat.shiftLeft_eq, Nat.shiftRight_eq_div_pow]

theorem insNat_low_lt (v lo w n : Nat) : v % 2 ^ lo + n % 2 ^ w * 2 ^ lo < 2 ^ (lo + w) := by
  have h1 : v % 2 ^ lo < 2 ^ lo := Nat.mod_lt _ (by positivity)
  have h2 : n % 2 ^ w + 1 ≤ 2 ^ w := Nat.mod_lt _ (by positivity)
  have h3 : (n % 2 ^ w + 1) * 2 ^ lo ≤ 2 ^ w * 2 ^ lo := Nat.mul_le_mul_right _ h2
  rw [Nat.pow_add, Nat.mul_comm (2 ^ lo) (2 ^ w)]
  rw [Nat.add_mul] at h3
  omega

theorem insNat_lt (v lo w n : Nat) (hv : v < 2 ^ 64) (hw : lo + w ≤ 64) : insNat v lo w n < 2 ^ 64 := by
  rw [insNat_split]
  have h1 := insNat_low_lt v lo w n
  have hp : 2 ^ (lo + w) * 2 ^ (64 - (lo + w)) = 2 ^ 64 := by rw [← Nat.pow_add]; congr 1; omega
  have h2 : v / 2 ^ (lo + w) + 1 ≤ 2 ^ (64 - (lo + w)) :=
    Nat.div_lt_of_lt_mul (by rw [hp]; exact hv)
  have h3 : (v / 2 ^ (lo + w) + 1) * 2 ^ (lo + w) ≤ 2 ^ (64 - (lo + w)) * 2 ^ (lo + w) := Nat.mul_le_mul_right _ h2
  rw [Nat.mul_comm (2 ^ (64 - (lo + w))), hp, Nat.add_mul] at h3
  omega

theorem insField_toNat (v : Reg64) (lo w n : Nat) (hw : lo + w ≤ 64) :
    (insField v lo w n).toNat = insNat v.toNat lo w n := by
  have : insField v lo w n = BitVec.ofNat 64 (insNat v.toNat lo w n) := rfl
  rw [this, BitVec.toNat_ofNat]
  exact Nat.mod_eq_of_lt (insNat_lt _ _ _ _ v.isLt hw)

/-- A field reads as the low bits of what was written to it. -/
theorem fieldOf_insField_same (v : Reg64) (lo w n : Nat) (hw : lo + w ≤ 64) :
    fieldOf (insField v lo w n) lo w = n % 2 ^ w := by
  rw [fieldOf, insField_toNat v lo w n hw, insNat_split, Nat.shiftRight_eq_div_pow]
  have e : (v.toNat % 2 ^ lo + n % 2 ^ w * 2 ^ lo) + v.toNat / 2 ^ (lo + w) * 2 ^ (lo + w) =
      v.toNat % 2 ^ lo + 2 ^ lo * (n % 2 ^ w + 2 ^ w * (v.toNat / 2 ^ (lo + w))) := by rw [Nat.pow_add]; ring
  rw [e, Nat.add_mul_div_left _ _ (by positivity), Nat.div_eq_of_lt (Nat.mod_lt _ (by positivity)), Nat.zero_add,
    Nat.add_mul_mod_self_left, Nat.mod_mod]

/-- A field below the written one reads as before. -/
theorem fieldOf_insField_below (v : Reg64) (lo w n lo' w' : Nat) (hw : lo + w ≤ 64) (h : lo' + w' ≤ lo) :
    fieldOf (insField v lo w n) lo' w' = fieldOf v lo' w' := by
  rw [fieldOf, fieldOf, insField_toNat v lo w n hw, insNat_split, Nat.shiftRight_eq_div_pow, Nat.shiftRight_eq_div_pow,
    ← Nat.mod_mul_right_div_self, ← Nat.mod_mul_right_div_self, ← Nat.pow_add]
  congr 1
  have hd : 2 ^ lo = 2 ^ (lo' + w') * 2 ^ (lo - (lo' + w')) := by rw [← Nat.pow_add]; congr 1; omega
  have e : (v.toNat % 2 ^ lo + n % 2 ^ w * 2 ^ lo) + v.toNat / 2 ^ (lo + w) * 2 ^ (lo + w) =
      v.toNat % 2 ^ lo + 2 ^ (lo' + w') * (2 ^ (lo - (lo' + w')) * (n % 2 ^ w + 2 ^ w * (v.toNat / 2 ^ (lo + w)))) := by
    rw [← Nat.mul_assoc, ← hd, Nat.pow_add]; ring
  rw [e, Nat.add_mul_mod_self_left, hd, Nat.mod_mul_right_mod]

/-- A field above the written one reads as before. -/
theorem fieldOf_insField_above (v : Reg64) (lo w n lo' w' : Nat) (hw : lo + w ≤ 64) (h : lo + w ≤ lo') :
    fieldOf (insField v lo w n) lo' w' = fieldOf v lo' w' := by
  rw [fieldOf, fieldOf, insField_toNat v lo w n hw, insNat_split, Nat.shiftRight_eq_div_pow, Nat.shiftRight_eq_div_pow]
  have hd : 2 ^ lo' = 2 ^ (lo + w) * 2 ^ (lo' - (lo + w)) := by rw [← Nat.pow_add]; congr 1; omega
  rw [hd, ← Nat.div_div_eq_div_mul, ← Nat.div_div_eq_div_mul, Nat.add_mul_div_right _ _ (by positivity),
    Nat.div_eq_of_lt (insNat_low_lt _ _ _ _), Nat.zero_add]

variable (d : Dev)

@[simp] theorem Dev.rd_wr_same (off : Nat) (v : Reg64) : (d.wr off v).rd off = v := Tab.get_put_same ..

theorem Dev.rd_wr_other (off off' : Nat) (v : Reg64) (h : off' ≠ off) : (d.wr off v).rd off' = d.rd off' :=
  Tab.get_put_other _ _ _ _ _ h

/-- A written field reads as the low bits of the value. -/
theorem Dev.get_set_same (f : RF) (n : Nat) (hw : f.lo + f.w ≤ 64) : (d.set f n).get f = n % 2 ^ f.w := by
  rw [Dev.get, Dev.set, Dev.rd_wr_same]
  exact fieldOf_insField_same _ _ _ _ hw

/-- A field of another register reads as before. -/
theorem Dev.get_set_reg (f g : RF) (n : Nat) (h : g.off ≠ f.off) : (d.set f n).get g = d.get g := by
  rw [Dev.get, Dev.get, Dev.set, Dev.rd_wr_other _ _ _ _ h]

/-- Another field of the same register reads as before. -/
theorem Dev.get_set_field (f g : RF) (n : Nat) (ho : g.off = f.off) (hw : f.lo + f.w ≤ 64)
    (h : g.lo + g.w ≤ f.lo ∨ f.lo + f.w ≤ g.lo) : (d.set f n).get g = d.get g := by
  rw [Dev.get, Dev.get, Dev.set, ho, Dev.rd_wr_same]
  rcases h with h | h
  · exact fieldOf_insField_below _ _ _ _ _ _ hw h
  · exact fieldOf_insField_above _ _ _ _ _ _ hw h

/-- A register that is not the written one reads as before. -/
theorem Dev.rd_set_other (f : RF) (n off : Nat) (h : off ≠ f.off) : (d.set f n).rd off = d.rd off :=
  Dev.rd_wr_other _ _ _ _ h

/-- Field updates one after the other. -/
@[simp] theorem Dev.sets_nil : d.sets [] = d := rfl
@[simp] theorem Dev.sets_cons (p : RF × Nat) (l : List (RF × Nat)) : d.sets (p :: l) = (d.set p.1 p.2).sets l := rfl

/-- A register that none of the updates names reads as before. -/
theorem Dev.rd_sets_other (l : List (RF × Nat)) (off : Nat) (h : ∀ p ∈ l, p.1.off ≠ off) :
    (d.sets l).rd off = d.rd off := by
  induction l generalizing d with
  | nil => rfl
  | cons p l ih =>
    rw [Dev.sets_cons, ih _ fun q hq => h q (.tail _ hq), Dev.rd_set_other _ _ _ _ (h p (.head _)).symm]

/-- Field updates change registers only. -/
theorem Dev.sets_frame (l : List (RF × Nat)) : ∃ r, d.sets l = { d with regs := r } := by
  induction l generalizing d with
  | nil => exact ⟨d.regs, rfl⟩
  | cons p l ih =>
    obtain ⟨r, h⟩ := ih (d.set p.1 p.2)
    exact ⟨r, by rw [Dev.sets_cons, h]; rfl⟩

/-! ### Units and memories -/

@[simp] theorem Dev.arrU_putArr (a : Nat) (u : ArrayU) : (d.putArr a u).arrU a = u := Tab.get_put_same ..
@[simp] theorem Dev.agU_putAg (n : Nat) (u : AgU) : (d.putAg n u).agU n = u := Tab.get_put_same ..
@[simp] theorem Dev.vecU_putVec (x : Nat) (u : VecU) : (d.putVec x u).vecU x = u := Tab.get_put_same ..
@[simp] theorem Dev.dmaU_putDma (e : Nat) (u : DmaU) : (d.putDma e u).dmaU e = u := Tab.get_put_same ..
@[simp] theorem Dev.bayU_putBay (b : Nat) (u : BayU) : (d.putBay b u).bayU b = u := Tab.get_put_same ..
@[simp] theorem Dev.ctxU_putCtx (k : Nat) (u : CtxU) : (d.putCtx k u).ctxU k = u := Tab.get_put_same ..
@[simp] theorem Dev.ringU_putRing (r : Nat) (u : RingU) : (d.putRing r u).ringU r = u := Tab.get_put_same ..
@[simp] theorem Dev.fltBay_putFltBay (b : Nat) (u : FltBay) : (d.putFltBay b u).fltBay b = u := Tab.get_put_same ..

/-- A stored byte reads back; every other byte reads as before. -/
@[simp] theorem Dev.byte_putByte_same (a : Nat) (v : Byte) : (d.putByte a v).byte a = v := Tab.get_put_same ..
theorem Dev.byte_putByte_other (a a' : Nat) (v : Byte) (h : a' ≠ a) : (d.putByte a v).byte a' = d.byte a' :=
  Tab.get_put_other _ _ _ _ _ h

@[simp] theorem Dev.hostByte_putHostByte_same (p a : Nat) (v : Byte) : (d.putHostByte p a v).hostByte p a = v := by
  by_cases h : p = 0 <;> simp [Dev.putHostByte, Dev.hostByte, h]

/-! ### The canonical form of every memory (R13, R181, R500) -/

/-- Storing one byte of local memory keeps every memory canonical. -/
theorem Dev.putByte_wf (a : Nat) (v : Byte) (h : d.mem.wf = true) : (d.putByte a v).mem.wf = true := by
  simp only [Mems.wf, Memory.wf, Bool.and_eq_true, Dev.putByte_mem] at h ⊢
  exact ⟨⟨Tab.wf_put _ _ _ _ h.1.1, h.1.2⟩, h.2⟩

/-- So does storing one byte of a host's memory. -/
theorem Dev.putHostByte_wf (p a : Nat) (v : Byte) (h : d.mem.wf = true) : (d.putHostByte p a v).mem.wf = true := by
  unfold Dev.putHostByte
  split
  · simp only [Mems.wf, Memory.wf, Bool.and_eq_true] at h ⊢
    exact ⟨⟨h.1.1, Tab.wf_put _ _ _ _ h.1.2⟩, h.2⟩
  · simp only [Mems.wf, Memory.wf, Bool.and_eq_true] at h ⊢
    exact ⟨h.1, Tab.wf_put _ _ _ _ h.2⟩

theorem Dev.putBytes_wf (a : Nat) (l : List Byte) (h : d.mem.wf = true) : (d.putBytes a l).mem.wf = true := by
  induction l generalizing d a with
  | nil => exact h
  | cons v l ih => exact ih _ _ (d.putByte_wf a v h)

theorem Dev.putHostBytes_wf (p a : Nat) (l : List Byte) (h : d.mem.wf = true) : (d.putHostBytes p a l).mem.wf = true := by
  induction l generalizing d a with
  | nil => exact h
  | cons v l ih => exact ih _ _ (d.putHostByte_wf p a v h)

theorem Dev.wrLoc_wf (l : Loc) (v : Byte) (h : d.mem.wf = true) : (d.wrLoc l v).mem.wf = true := by
  cases l
  · exact d.putByte_wf _ _ h
  · exact d.putHostByte_wf _ _ _ h

theorem Dev.putBayByte_wf (b va : Nat) (v : Byte) (h : d.mem.wf = true) : (d.putBayByte b va v).mem.wf = true := by
  unfold Dev.putBayByte
  split
  · exact d.wrLoc_wf _ _ h
  · exact h

theorem Dev.putBayBytes_wf (b va : Nat) (l : List Byte) (h : d.mem.wf = true) : (d.putBayBytes b va l).mem.wf = true := by
  induction l generalizing d va with
  | nil => exact h
  | cons v l ih => exact ih _ _ (d.putBayByte_wf b va v h)

theorem Dev.putLocalByte_wf (a : Nat) (v : Byte) (h : d.mem.wf = true) : (d.putLocalByte a v).mem.wf = true := by
  unfold Dev.putLocalByte
  split
  · split
    · exact d.putBytes_wf _ _ h
    · exact d.putByte_wf _ _ h
  · split
    · exact d.putByte_wf _ _ h
    · exact h
  · exact d.putHostByte_wf _ _ _ h
  · exact h
  · exact h

theorem Dev.putLocalBytes_wf (a : Nat) (l : List Byte) (h : d.mem.wf = true) : (d.putLocalBytes a l).mem.wf = true := by
  induction l generalizing d a with
  | nil => exact h
  | cons v l ih => exact ih _ _ (d.putLocalByte_wf a v h)

/-- Removing entries keeps a memory canonical. -/
theorem Memory.wf_filter (m : Tab Byte) (p : Nat × Byte → Bool) (h : Memory.wf m = true) : Memory.wf (m.filter p) = true :=
  Tab.wf_filter _ _ _ h

theorem Dev.zeroLocal_wf (a n : Nat) (h : d.mem.wf = true) : (d.zeroLocal a n).mem.wf = true := by
  simp only [Mems.wf, Dev.zeroLocal, Bool.and_eq_true] at h ⊢
  exact ⟨⟨Memory.wf_filter _ _ h.1.1, h.1.2⟩, h.2⟩

/-! ### Folds and choices, for lemmas about memory -/

/-- A fold of operations that leave the memories alone leaves them alone. -/
theorem Dev.foldl_mem {α : Type} (f : Dev → α → Dev) (hf : ∀ d x, (f d x).mem = d.mem) (l : List α) (d : Dev) :
    (l.foldl f d).mem = d.mem := by
  induction l generalizing d with
  | nil => rfl
  | cons x l ih => exact (ih _).trans (hf d x)

theorem Dev.foldl_fst_mem {α β : Type} (f : Dev × β → α → Dev × β) (hf : ∀ a x, (f a x).1.mem = a.1.mem) (l : List α) (a : Dev × β) :
    (l.foldl f a).1.mem = a.1.mem := by
  induction l generalizing a with
  | nil => rfl
  | cons x l ih => exact (ih _).trans (hf a x)

/-- A fold of operations that keep the memories canonical keeps them canonical. -/
theorem Dev.foldl_wf {α : Type} (f : Dev → α → Dev) (hf : ∀ d x, d.mem.wf = true → (f d x).mem.wf = true) (l : List α) (d : Dev)
    (h : d.mem.wf = true) : (l.foldl f d).mem.wf = true := by
  induction l generalizing d with
  | nil => exact h
  | cons x l ih => exact ih _ (hf d x h)

theorem Dev.foldl_fst_wf {α β : Type} (f : Dev × β → α → Dev × β) (hf : ∀ a x, a.1.mem.wf = true → (f a x).1.mem.wf = true) (l : List α)
    (a : Dev × β) (h : a.1.mem.wf = true) : (l.foldl f a).1.mem.wf = true := by
  induction l generalizing a with
  | nil => exact h
  | cons x l ih => exact ih _ (hf a x h)

/-- The memories of a choice. -/
@[simp] theorem Dev.ite_mem (c : Prop) [Decidable c] (d e : Dev) : (if c then d else e).mem = if c then d.mem else e.mem :=
  apply_ite Dev.mem c d e

end Sys2Proof.Machine
end

