-- ==== Sys2Proof/Tests/Slice0.lean ====
section
/-! SUPPORT. My tests: the well-formedness checks, expected results from the spec, and for each statement with hypotheses a
concrete state and operands that meet them, clause by clause (the theorems meets_…). -/

namespace Sys2Proof.Tests

set_option Elab.async false

open Sys2Proof.Machine Sys2Proof.Claims

/-- A device that has started up: AO released, `ready` shown, port A's link up, the clocks locked. -/
def up : Dev :=
  ({ Dev.reset with boot := { Dev.reset.boot with released := true, step := 13 }, pcieUp := 1 } : Dev).sets
    [(GLB_STATUS.ready, 1), (HIF_PORT_STATUS.link_up 0, 1)]

/-- A device at a given time. -/
def atNs (d : Dev) (ns : Nat) : Dev := { d with clk := { d.clk with timeNs := ns } }

/-! ### Well-formedness: an ill-formed term for each check -/

theorem test_size0 : Instr.wellFormed (.registerWrite .sec 0 0 0) = false := by decide +kernel
theorem test_size9 : Instr.wellFormed (.registerWrite .sec 0 9 0) = false := by decide +kernel
theorem test_size8 : Instr.wellFormed (.registerWrite .sec 0 8 0) = true := by decide +kernel
theorem test_patrolLine : Instr.wellFormed (.tmPatrol 0 0x300000 .corrected) = false := by decide +kernel
theorem test_lastLine : Instr.wellFormed (.tmPatrol 0 0x2FFFFF .corrected) = true := by decide +kernel
theorem test_retireLine : Instr.wellFormed (.tmLineRetire 0 0x300000) = false := by decide +kernel
theorem test_retireLane : Instr.wellFormed (.retire 0 0 8) = false := by decide +kernel
theorem test_retirePort : Instr.wellFormed (.retire 0 0 0xFF) = true := by decide +kernel
theorem test_fabricSpdm : Instr.wellFormed (.spdmRequest .fabric 0 (List.replicate 4097 0)) = false := by decide +kernel
theorem test_payload : Instr.wellFormed (.packetReceive 0 (.flits 0 0 0)
    ({ dst := 0, src := 0, multicast := false, broadcast := false, det := false, flagsRsv := 0, tc := 0, op := 0, status := 0,
       tag := 0, len := 4097, seq := 0, addr := 0, hops := 0, spec := 0, payload := List.replicate 4097 0 } : Packet) none) = false := by
  decide +kernel

/-! ### Witnesses: registers, joints and control writes -/

/-- PF0 of host port A writes FAB_E2E, a register without an effect of its own. -/
theorem meets_RegisterAndJointWritesTakeEffect_1 :
    pathOpen up (.host 0 0) FAB_E2E.off = true ∧ FAB_E2E.off % 8 = 0 ∧ (findReg FAB_E2E.off).isSome = true ∧
    ((Via.host 0 0 : Via) == .fabric && within FAB_E2E.off 0x1000 0x2000) = false ∧
    (up.specialWrite (.host 0 0) FAB_E2E.off 0 8 (mergeBytes (up.shadowWord FAB_E2E.off) 0 8 0x1234)).isNone = true := by
  decide +kernel

theorem meets_RegisterAndJointWritesTakeEffect_2 :
    pathOpen up .mgmt (jblockOff .tck) = true ∧ jointDefined (jblockOff .tck) 3 = true ∧
    ((up.jnlChange (viaOrigin .mgmt) (jblockOff .tck) 0 0 (jointWord 3 0 0xFFFF)).armedRec (jblockOff .tck) 3).isNone = true ∧
    (up.jnlChange (viaOrigin .mgmt) (jblockOff .tck) 0 0 (jointWord 3 0 0xFFFF)).jointStopped (jblockOff .tck) 3 = false := by
  decide +kernel

theorem meets_RegisterAndJointWritesTakeEffect_3_4 :
    pathOpen up .mgmt (jblockOff .fab) = true ∧ jointDefined (jblockOff .fab) 0x31 = true ∧
    (up.armedRec (jblockOff .fab) 0x31).isNone = true := by decide +kernel

theorem meets_PegPowerAndThawWritesTakeEffect_1 :
    pathOpen up (.cc 15) (AG_PEG_ADD.off 15) = true ∧ (0xFFE : BitVec 12).toNat ≠ 0xFFF := by decide +kernel

/-- PWR asks AG 15's domain for its frozen state from PWR's own path. -/
theorem meets_PegPowerAndThawWritesTakeEffect_2 :
    pathOpen up .mgmt (PWR_DOM.off 16) = true ∧
    let e := up.writeFields (viaOrigin .mgmt) (PWR_DOM.off 16) 0 8
      (insField (BitVec.ofNat 64 (1 : BitVec 2).toNat) 0 2 (up.get (PWR_DOM.req 16)))
    (1 : BitVec 2).toNat ≠ e.get (PWR_DOM.req 16) ∧ e.domainOk 16 1 = true := by decide +kernel

theorem meets_PegPowerAndThawWritesTakeEffect_3 : pathOpen up .mgmt PWR_TARGET.off = true := by decide +kernel

/-- Bay 7, FROZEN and served by port A. -/
def frozen7 : Dev := up.sets [(SCH_BAY_STATE.state 7, bayFrozen), (HIF_BAY_FUNC.ports 7, 1)]

theorem meets_PegPowerAndThawWritesTakeEffect_4 :
    pathOpen frozen7 (.host 0 0) (HIF_BAY_CTL.off 7) = true ∧ frozen7.serves 7 0 = true ∧ frozen7.bayState 7 = bayFrozen := by
  decide +kernel

/-- Bay 7, RAISED and served by port A: its ring 63 may be enabled. -/
def raised7 : Dev := up.sets [(SCH_BAY_STATE.state 7, bayRaised), (HIF_BAY_FUNC.ports 7, 1)]

theorem meets_RingEnableAndDisableTakeEffect_1 :
    pathOpen raised7 (.host 0 0) (ringBase 63) = true ∧ raised7.get (RC.en 63) = 0 ∧
    (raised7.wr (ringBase 63) (insField (raised7.wordWith (RC.en 63) 1) 0 1 0)).ringBad 63 = false := by decide +kernel

theorem meets_RingEnableAndDisableTakeEffect_2 :
    let d := raised7.sets [(RC.en 63, 1), (RS.state 63, 1)]
    pathOpen d (.host 0 0) (ringBase 63) = true ∧ d.get (RC.en 63) = 1 := by decide +kernel

theorem meets_FabricAndFaultControlWritesTakeEffect :
    pathOpen up .mgmt (FABP_CFG.off 49) = true ∧ pathOpen up .mgmt FLT_DEAD_CLR.off = true ∧
    pathOpen up .mgmt FLT_STATUS.off = true ∧ pathOpen up .mgmt (FLT_BAY_STATE.off 7) = true := by decide +kernel

/-- A bundle of 4 KiB at address 0 of HBM, named by GLB_FW_STAGE0 and 1, and role B valid. -/
def withBundle : Dev := up.sets [(GLB_FW_STAGE1.len, 4096), (GLB_FW_SLOTS.b_valid, 1)]

theorem meets_FirmwareCommandsAreServed :
    pathOpen withBundle .mgmt GLB_FW_CMD.off = true ∧ (Via.mgmt ≠ .fabric) ∧
    (withBundle.fwStage .mgmt).get GLB_FW_CMDSTAT.result ≠ 3 ∧
    (withBundle.fwActivate (viaOrigin .mgmt) 0x40000).get GLB_FW_CMDSTAT.result ≠ 3 ∧
    withBundle.fwCancel.get GLB_FW_CMDSTAT.result ≠ 3 ∧
    (withBundle.fwRestart 0x40000).get GLB_FW_CMDSTAT.result ≠ 3 ∧
    (withBundle.fwRevert (viaOrigin .mgmt) 0x7FFFF).get GLB_FW_CMDSTAT.result ≠ 3 := by decide +kernel

/-- SEC restarts, so that its commands wait; the result of a key package or an owner record is the owner's signature's. -/
def secBusy : Dev := up.set (GLB_FW_CORE.state 0) 1

theorem meets_SecurityExportAndMacWritesTakeEffect_1_2_3 :
    pathOpen secBusy .mgmt SEC_CMD.off = true ∧ (secBusy.secCmd .mgmt 1).get SEC_CMDSTAT.result ≠ 3 ∧
    (secBusy.secCmd .mgmt 2).get SEC_CMDSTAT.result ≠ 3 ∧ (secBusy.secCmd .mgmt 3).get SEC_CMDSTAT.result ≠ 3 := by decide +kernel

theorem meets_SecurityExportAndMacWritesTakeEffect_4_5_6_7 :
    pathOpen up .mgmt JNL_CFG.off = true ∧ up.get JNL_CFG.export_en = 0 ∧
    (up.writeFields (viaOrigin .mgmt) JNL_CFG.off 0 8 (up.wordWith JNL_CFG.export_en 1)).get JNL_CFG.export_en = 1 ∧
    pathOpen up .mgmt MGT_CFG.off = true ∧ up.get MGT_CFG.mac_en = 0 ∧
    (up.writeFields (viaOrigin .mgmt) MGT_CFG.off 0 8 (up.wordWith MGT_CFG.mac_en 1)).get MGT_CFG.mac_en = 1 ∧
    pathOpen up .mgmt GLB_RESET.off = true ∧
    let d := up.set MGT_CFG.mac_en 1
    pathOpen d .mgmt MGT_CFG.off = true ∧ d.get MGT_CFG.mac_en = 1 ∧
    (d.writeFields (viaOrigin .mgmt) MGT_CFG.off 0 8 (d.wordWith MGT_CFG.mac_en 0)).get MGT_CFG.mac_en = 0 := by decide +kernel

/-! ### Witnesses: host commands and raises -/

/-- A number with little-endian fields at byte offsets. -/
def packed (fields : List (Nat × Nat)) : Nat := fields.foldl (fun t f => t + f.2 * 2 ^ (8 * f.1)) 0

/-- A command of ring r with an opcode and fields. -/
def cmd (r op : Nat) (fields : List (Nat × Nat)) : Cmd :=
  { ring := r, id := 5, sqHead := 1, entry := BitVec.ofNat 512 (packed ((0, op) :: fields)) }

/-- A command fetched on its ring, which runs with queues of 64 entries. -/
def front (d : Dev) (c : Cmd) : Dev :=
  (d.sets [(RC.en c.ring, 1), (RC.sqLog2 c.ring, 6), (RC.cqLog2 c.ring, 6), (RS.state c.ring, 1), (RS.sqHead c.ring, 1),
    (RS.phase c.ring, 1), (RS.inFlight c.ring, 1)]).putRing c.ring { RingU.reset with tail := 1, fetched := [c] }

/-- Bay 7, RAISED, with one extent, synchronised timing and its context 7 enabled and idle. -/
def bay7 : Dev :=
  (raised7.putBay 7 { BayU.reset with extMap := [(0, 1 + 96 * 15 + 95)], periodUs := 100, guardPct := 5 }).sets
    [(SCH_CTX_CFG.en 7 7, 1), (SCH_CTX_STATE.state 7 7, 1), (TCK_STATUS.synced, 1), (TCK_PERIOD.period_us, 100), (TCK_PERIOD.guard_pct, 5)]

theorem meets_QueueCommandsTakeEffect :
    let d := front bay7 (cmd 63 0 [])
    let e := d.putRing 63 { d.ringU 63 with cqUsed := 2, unsent := 2, firstNs := 0 }
    d.doorbellBad 0 0 63 63 (d.sqSize 63) = false ∧ d.doorbellHeld 63 = false ∧
    e.doorbellBad 0 0 63 1 (e.cqSize 63) = false ∧ e.doorbellHeld 63 = false ∧
    (1 + e.cqSize 63 - (e.ringU 63).cqHead) % e.cqSize 63 ≠ 0 ∧
    (let f := e.sets [(SCH_BAY_STATE.ag_mask 7, 0x8000), (GLB_FW_CORE.state 18, 1)]
     f.doorbellBad 0 0 63 63 (f.cqSize 63) = false ∧ f.doorbellHeld 63 = true) ∧
    (d.putRing 63 { d.ringU 63 with tail := 63 }).ringState 63 = 1 ∧
    (d.putRing 63 { d.ringU 63 with tail := 63 }).get (RS.sqHead 63) ≠ 63 ∧
    d.untranslated (d.ringPort 63) (d.ringFunc 63) (d.get (RQ.sqBase 63) * 64 + d.get (RS.sqHead 63) * 64) 64 = false ∧
    (e.ringU 63).unsent ≠ 0 ∧ (e.ringU 63).firstNs + e.get (RC.coalUs 63) * 1000 ≤ e.clk.timeNs := by decide +kernel

theorem meets_PlainHostCommandsComplete :
    atFront (front bay7 (cmd 63 0 [])) 63 0 (cmd 63 0 []) = true ∧
    (atFront (front bay7 (cmd 63 8 [])) 63 8 (cmd 63 8 []) = true ∧ ((front bay7 (cmd 63 8 [])).ringU 63).started = []) ∧
    atFront (front bay7 (cmd 65 9 [(8, 9), (9, 7), (10, 7)])) 65 9 (cmd 65 9 [(8, 9), (9, 7), (10, 7)]) = true ∧
    (let c := cmd 63 12 [(16, 0x1000)]
     let d := front bay7 c
     atFront d 63 12 c = true ∧ c.isAdmin = false ∧ d.rowsOk c.bay (c.num 16 8) 0 (d.telemetryBytes (c.num 8 1) c.bay).length 1 = true) := by
  decide +kernel

/-- A COPY of the last 64 bytes of the extent, and a FILL of them. -/
theorem meets_CopyAndFillMoveBytes :
    (let c := cmd 63 4 [(8, 0x1FFFC0), (16, 0), (24, 64)]
     let d := front bay7 c
     let q := c.copyDesc 0
     atFront d 63 4 c = true ∧ q.remSrc = false ∧ q.remDst = false ∧ d.rowsOk c.bay q.src 0 q.rowBytes 1 = true ∧
     d.rowsOk c.bay q.dst 0 q.rowBytes 1 = true ∧ d.isResidentCmd c = false ∧ q.rowBytes = 64) ∧
    (let c := cmd 63 5 [(16, 0x1FFFC0), (24, 64), (32, 0xAB)]
     let d := front bay7 c
     let q := c.copyDesc 1
     atFront d 63 5 c = true ∧ q.remSrc = false ∧ q.remDst = false ∧ d.rowsOk c.bay q.dst 0 q.rowBytes 1 = true ∧
     d.isResidentCmd c = false) := by decide +kernel

/-- COPY and FILL leave byte 0 of HBM alone. -/
theorem meets_CopyAndFillLeaveOtherBytes :
    let c := cmd 63 4 [(8, 0), (16, 0x1FFFC0), (24, 64)]
    let d := front bay7 c
    let q := c.copyDesc 0
    atFront d 63 4 c = true ∧ q.remSrc = false ∧ q.remDst = false ∧ d.rowsOk c.bay q.src 0 q.rowBytes 1 = true ∧
    d.rowsOk c.bay q.dst 0 q.rowBytes 1 = true ∧ d.isResidentCmd c = false ∧
    (∀ i, i < 64 → d.xlate c.bay (q.dst + i) ≠ some (.loc 0)) ∧ q.rowBytes = 64 := by decide +kernel

theorem meets_BayHostCommandsTakeEffect_1_2_3 :
    (let c := cmd 64 1 [(8, 0), (14, 1), (32, 2 ^ 30)]
     let d := front bay7 c
     atFront d 64 1 c = true ∧ (d.startCmd c).admitStatus c = none) ∧
    (let c := cmd 64 2 [(8, 7)]
     let d := front bay7 c
     atFront d 64 2 c = true ∧ (d.startCmd c).bayState c.bay = bayRaised) ∧
    (let c := cmd 63 3 [(8, 0xFFFFFFFF)]
     let d := front bay7 c
     atFront d 63 3 c = true ∧ d.stepRefusal c = none) := by decide +kernel

theorem meets_BayHostCommandsTakeEffect_4_5_6_7 :
    (let c := cmd 63 6 []
     let d := front (bay7.sets [(FLT_BAY_CFG.snap_en 7, 1), (FLT_BAY_CFG.host_en 7, 1)]) c
     atFront d 63 6 c = true ∧ d.bayState c.bay = bayRaised ∧ d.flag (FLT_BAY_CFG.snap_en c.bay) = true ∧
     d.flag (FLT_BAY_CFG.host_en c.bay) = true) ∧
    (let c := cmd 64 7 [(8, 7), (10, 0x7FFF)]
     let d := front bay7 c
     atFront d 64 7 c = true ∧ (d.startCmd c).bayState c.bay = bayRaised ∧ ((d.startCmd c).fltBay c.bay).refill = none ∧
     c.num 10 2 < 32768 ∧ c.num 12 2 < 32768) ∧
    (let c := cmd 63 10 [(8, 7)]
     let d := front bay7 c
     atFront d 63 10 c = true ∧ d.flag (SCH_CTX_CFG.en c.bay (c.num 8 1)) = true ∧ d.get (SCH_CTX_STATE.state c.bay (c.num 8 1)) = 1) ∧
    (let c := cmd 63 11 [(8, 7)]
     let d := front (bay7.set (SCH_CTX_STATE.state 7 7) 6) c
     atFront d 63 11 c = true ∧ d.flag (SCH_CTX_CFG.en c.bay (c.num 8 1)) = true ∧ d.get (SCH_CTX_STATE.state c.bay (c.num 8 1)) = 6) := by
  decide +kernel

/-- The header of an image of 384 bytes: signature, version, device, AG 15, period 100 and guard 5, four empty sections. -/
def image : List Byte :=
  toBytes 384 (packed [(0, 0x544E4542), (4, 1), (8, 0x96), (12, 0x8000), (14, 100), (16, 5), (34, 4), (36, 256), (40, 384)])

/-- A RAISE of bay 7 from host A's address 0x1000. -/
def raiseCmd7 : Cmd := cmd 64 1 [(8, 7), (14, 1), (24, 0x1000), (32, 384)]

/-- Bay 7 in a phase of its raise with an image. -/
def raising7 (phase : Nat) (img : List Byte) : Dev :=
  ((up.putHostBytes 0 0x1000 image).sets
    [(SCH_BAY_STATE.state 7, bayRaising), (SCH_BAY_RAISE.phase 7, phase), (SEC_STATUS.owned, 1), (TCK_PERIOD.period_us, 100),
     (TCK_PERIOD.guard_pct, 5), (GLB_STATUS.ag_usable, 0xFFFF), (PWR_DOM.state 16, 0)]).putBay 7
    { BayU.reset with raise := some { cmd := raiseCmd7, order := 0, image := img, reserved := false, commitEdge := none, waitNs := some 0 } }

/-- The record of that raise. -/
def rec7 (img : List Byte) : RaiseRec :=
  { cmd := raiseCmd7, order := 0, image := img, reserved := false, commitEdge := none, waitNs := some 0 }

theorem meets_RaisePhasesAdvance_1 :
    (raising7 2 []).raising 7 2 = some (rec7 []) ∧ (rec7 []).image = [] ∧
    (raising7 2 []).stagedBytes + (rec7 []).cmd.num 32 8 ≤ 2 ^ 30 ∧ (raising7 2 []).sourceOk (rec7 []).cmd = true ∧
    (rec7 []).cmd.num 9 1 = 0 ∧
    imgHeaderOk ((raising7 2 []).hostBytes (rec7 []).cmd.port ((rec7 []).cmd.num 24 8) ((rec7 []).cmd.num 32 8))
      ((raising7 2 []).get GLB_IDENT.stepping) ((rec7 []).cmd.num 32 8) ((rec7 []).cmd.num 12 2) = true ∧
    (raising7 2 []).bitOf GLB_FW_CMDSTAT.pending 0 = false ∧ (raising7 2 []).bitOf GLB_FW_CMDSTAT.pending 2 = false := by
  decide +kernel

theorem meets_RaisePhasesAdvance_2_3_5 :
    ((raising7 3 image).raising 7 3 = some (rec7 image) ∧ (raising7 3 image).behind (rec7 image) 3 = false ∧
      (raising7 3 image).get (GLB_FW_CORE.state 0) = 0 ∧ (raising7 3 image).flag SEC_STATUS.owned = true ∧ (rec7 image).cmd.num 10 1 = 0) ∧
    ((raising7 4 image).raising 7 4 = some (rec7 image) ∧ (raising7 4 image).schRunning = true) ∧
    ((raising7 6 image).raising 7 6 = some (rec7 image) ∧ (raising7 6 image).schRunning = true ∧ (raising7 6 image).jnlFull = false) := by
  decide +kernel

theorem meets_RaisePhasesAdvance_4 :
    (raising7 5 image).raising 7 5 = some (rec7 image) ∧ (raising7 5 image).schRunning = true ∧ (rec7 image).reserved = false ∧
    (raising7 5 image).behind (rec7 image) 5 = false ∧
    (raising7 5 image).reserve 7 (rec7 image).cmd (rec7 image).image = .grant [] [] 0 0 ∧
    ((((raising7 5 image).grantBay 7 (rec7 image) [] [] 0 0).bayAgs 7).all fun n =>
      ((raising7 5 image).grantBay 7 (rec7 image) [] [] 0 0).get (PWR_DOM.state (1 + n)) == 0) = true := by decide +kernel

theorem meets_RaiseFailuresComplete :
    ((raising7 2 []).raising 7 2 = some (rec7 []) ∧ (rec7 []).image = [] ∧
      (raising7 2 []).stagedBytes + (rec7 []).cmd.num 32 8 ≤ 2 ^ 30) ∧
    ((raising7 3 []).raising 7 3 = some (rec7 []) ∧ (raising7 3 []).behind (rec7 []) 3 = false ∧
      (raising7 3 []).get (GLB_FW_CORE.state 0) = 0 ∧ objectVerifies 1 (raising7 3 []).board.ownerKeys (rec7 []).image = false) ∧
    (let d := (raising7 5 image).set GLB_STATUS.ag_usable 0x7FFF
     d.raising 7 5 = some (rec7 image) ∧ d.schRunning = true ∧ (rec7 image).reserved = false ∧ d.behind (rec7 image) 5 = false ∧
     d.reserve 7 (rec7 image).cmd (rec7 image).image = .missing) ∧
    (let d := atNs (raising7 5 image) 2000000000
     d.raising 7 5 = some (rec7 image) ∧ (rec7 image).waitNs = some 0 ∧ 0 + 2000000000 ≤ d.clk.timeNs) ∧
    ((raising7 6 image).raising 7 6 = some (rec7 image) ∧ (raising7 6 image).schRunning = true ∧ (raising7 6 image).jnlFull = false) := by
  decide +kernel

theorem meets_StrikeEndsAndPagesReturn :
    (let d := up.set (SCH_BAY_STATE.state 7) bayStriking
     d.bayState 7 = bayStriking ∧ (d.bayU 7).released = false ∧ d.unitsIdle 7 = true ∧ (d.bayU 7).switch = none ∧
       d.schRunning = true) ∧
    (let d := (up.set (SCH_BAY_STATE.state 7) bayStriking).putBay 7 { BayU.reset with released := true, strike := [cmd 64 2 [(8, 7)]] }
     d.bayState 7 = bayStriking ∧ (d.bayU 7).released = true) ∧
    (let d : Dev := { up with dirty := [(0x3FFFE, 2)] }
     (0x3FFFE, 2) ∈ d.dirty ∧ 0x3FFFE ≤ (0x3FFFF : BitVec 18).toNat ∧ (0x3FFFF : BitVec 18).toNat < 0x3FFFE + 2) := by decide +kernel

/-! ### Witnesses: the tick, arrays, slices, memory and DMA -/

/-- The step of context 7 of bay 7. -/
def step7 : StepRec where
  ctx := 7
  cmd := cmd 63 3 []
  startTick := 0
  no := 0
  measured := 0
  seed := 0
  preempted := false
  draining := false
  preempts := 0
  urgent := 0
  restored := false
  overSeen := false
  early := none
  own := 0
  upstream := 0
  mism := 0
  waits := [0, 0, 0, 0, 0]
  saveUs := 0
  restoreUs := 0
  damaged := false
  returned := false
  justResumed := false
  absorbed := false
  withheld := false
  workEdge := none

/-- Bay 7 with AG 15 and a step that runs; `stage` is the one descriptor of array 95's table at offset 0x1000. -/
def running7 (stage : List Byte) : Dev :=
  let d := (bay7.putBay 7 { bay7.bayU 7 with step := some step7 }).sets
    [(SCH_BAY_STATE.ag_mask 7, 0x8000), (SCH_BAY_RUN.step_running 7, 1), (SCH_BAY_RUN.resident_valid 7, 1), (SCH_BAY_RUN.resident 7, 7),
     (SCH_CTX_STATE.state 7 7, 3), (AG_ARR_TABLE.tbl_base 15 5, 0x1000), (AG_ARR_TABLE.tbl_len 15 5, 1),
     (AG_ARR_STATUS.state 15 5, 1), (AG_ARR_STATUS.groups_ungated 15 5, 16)]
  d.putBayBytes 7 0x1000 stage

/-- A descriptor of m = k = n = 1 with an op, formats and classes: BF16 operands at 0x2000 and 0x2040, output at 0x2080. -/
def stageDesc (op cls fmtA fmtB fmtOut k : Nat) (a b o : Nat) : List Byte :=
  toBytes 8 (op + cls * 16 + fmtA * 64 + fmtB * 2048 + fmtOut * 65536 + k * 2 ^ 48) ++ toBytes 8 a ++ toBytes 8 b ++ toBytes 8 o

/-- Array 95 with a descriptor to issue, a staged block of each operand, and a tile: that of the first piece a pass uses, or of the
piece that a WLOAD loads. -/
def array95 (stage : List Byte) (tile : Bool) (chain : Option Chain) : Dev :=
  let d := running7 stage
  let q := d.descAt 7 95 0
  let one : List (List Val) := [[.fin false 1 0]]
  let s (isB : Bool) : Staged := { desc := 0, tag := 0, isB := isB, block := 0, bytes := 2, rows := one }
  d.putArr 95 { ArrayU.reset with
    disp := { ArrayU.reset.disp with work := [0] }
    staged := [s false, s true]
    active := if tile then (q.pair.map fun p => { key := q.key p (if q.op = 2 then q.wloadPiece else (bPieces q.split).headD 0), rows := one })
      else none
    chain := chain }

theorem meets_TickEventsTakeEffect_1_2 : up.boot.released = true := by decide +kernel

theorem meets_TickEventsTakeEffect_3_4 :
    (let d := up.putAg 15 { AgU.reset with pegDue := true }
     (d.agU 15).pegDue = true ∧ d.ccRunning 15 = true) ∧
    (let f : PegFwd := { srcAg := 0, dstAg := 15, peg := 0xFFF, amount := 1, step8 := 255, bay := 7 }
     let d : Dev := { running7 [] with fwd := [f] }
     let e := d.set (SCH_BAY_STEPNO.step 7) 255
     takeFirst (fun f => f.srcAg == 0 && f.dstAg == 15) e.fwd = some (f, []) ∧ e.bayOfAg 15 = some f.bay ∧
     e.get (SCH_BAY_STEPNO.step f.bay) % 256 = f.step8) := by decide +kernel

/-- One step on, the same increment is stale. -/
theorem meets_StaleForwardsAreDropped :
    let f : PegFwd := { srcAg := 0, dstAg := 15, peg := 0xFFF, amount := 1, step8 := 255, bay := 7 }
    let d : Dev := { running7 [] with fwd := [f] }
    let e := d.set (SCH_BAY_STEPNO.step 7) 256
    takeFirst (fun f => f.srcAg == 0 && f.dstAg == 15) e.fwd = some (f, []) ∧
    (e.bayOfAg 15 ≠ some f.bay ∨ e.get (SCH_BAY_STEPNO.step f.bay) % 256 ≠ f.step8) := by decide +kernel

/-- A WS-GEMM of a loaded tile. -/
def wsDev : Dev := array95 (stageDesc 0 0 2 2 1 1 0x2000 0x2040 0x2080) true none
def wsChoice : Choice := { desc := 0, tag := 0, backlog := false, aged := false }

theorem meets_ChosenPassesRun_1 :
    let d := wsDev.fetchHeads 95
    let q := d.descAt 7 95 0
    let p : Pair := ⟨.bf16, .bf16, 1, 0⟩
    d.chosen 95 0 = some (7, wsChoice, q) ∧ q.pair = some p ∧ Fmt.ofCode q.fmtOut = some .fp32 ∧ d.mayStart 95 0 = true ∧
    d.skips 7 q = false ∧ q.k ≠ 0 ∧ d.ungated 95 = true ∧ ((d.arrU 95).stagedRows wsChoice false 0).isSome = true ∧
    (d.arrU 95).needsB q p (d.get (AG_ARR_STATUS.repair_skew 15 5)) = false := by decide +kernel

/-- A WS-GEMM whose tile is not held takes its staged B block. -/
theorem meets_ChosenPassesRun_1' :
    let d := (array95 (stageDesc 0 0 2 2 1 1 0x2000 0x2040 0x2080) false none).fetchHeads 95
    let q := d.descAt 7 95 0
    let p : Pair := ⟨.bf16, .bf16, 1, 0⟩
    d.chosen 95 0 = some (7, wsChoice, q) ∧ q.pair = some p ∧ (Fmt.ofCode q.fmtOut).isSome = true ∧ d.mayStart 95 2 = true ∧ d.skips 7 q = false ∧ q.k ≠ 0 ∧
    d.ungated 95 = true ∧ ((d.arrU 95).stagedRows wsChoice false 0).isSome = true ∧
    (d.arrU 95).needsB q p (d.get (AG_ARR_STATUS.repair_skew 15 5)) = true ∧
    (d.arrU 95).stagedRows wsChoice true 0 = some [[.fin false 1 0]] ∧ (d.arrU 95).loadFrom + 1 ≤ 2 := by decide +kernel

/-- A WS-GEMM and an OS-GEMM with k = 0. -/
theorem meets_ChosenPassesRun_2_4 :
    (let d := (array95 (stageDesc 0 0 2 2 1 0 0x2000 0x2040 0x2080) false none).fetchHeads 95
     let q := d.descAt 7 95 0
     d.chosen 95 0 = some (7, wsChoice, q) ∧ q.pair.isSome = true ∧ Fmt.ofCode q.fmtOut = some .fp32 ∧ d.mayStart 95 0 = true ∧
     d.skips 7 q = false ∧ q.k = 0) ∧
    (let d := (array95 (stageDesc 1 0 2 2 0 0 0x2000 0x2040 0) false none).fetchHeads 95
     let q := d.descAt 7 95 0
     d.chosen 95 1 = some (7, wsChoice, q) ∧ q.pair.isSome = true ∧ d.mayStart 95 0 = true ∧ d.skips 7 q = false ∧ q.k = 0) := by
  decide +kernel

/-- An OS-GEMM that opens a chain. -/
def osDev : Dev := array95 (stageDesc 1 0 2 2 0 1 0x2000 0x2040 0) false none

theorem meets_ChosenPassesRun_3 :
    let d := osDev.fetchHeads 95
    let q := d.descAt 7 95 0
    let one : List (List Val) := [[.fin false 1 0]]
    d.chosen 95 1 = some (7, wsChoice, q) ∧ q.pair = some ⟨.bf16, .bf16, 1, 0⟩ ∧ d.mayStart 95 0 = true ∧ d.skips 7 q = false ∧
    q.k ≠ 0 ∧ d.ungated 95 = true ∧ (d.arrU 95).stagedRows wsChoice false 0 = some one ∧
    (d.arrU 95).stagedRows wsChoice true 0 = some one := by decide +kernel

/-- A WLOAD of a tile that the array does not hold, of one that it holds, and with k = 0. -/
def wlDev (k : Nat) (tile : Bool) : Dev := array95 (stageDesc 2 0 2 2 0 k 0 0x2040 0) tile none

theorem meets_ChosenPassesRun_5 :
    let d := (wlDev 1 false).fetchHeads 95
    let q := d.descAt 7 95 0
    let p : Pair := ⟨.bf16, .bf16, 1, 0⟩
    d.chosen 95 2 = some (7, wsChoice, q) ∧ q.pair = some p ∧ (d.arrU 95).splitTo ≤ 1 ∧
    ((d.arrU 95).feeding.any fun r => r.desc.split != 0) = false ∧ d.skips 7 q = false ∧
    (d.arrU 95).tileFor (q.key p q.wloadPiece) = none ∧ q.k ≠ 0 ∧ d.ungated 95 = true ∧
    (d.arrU 95).stagedRows wsChoice true 0 = some [[.fin false 1 0]] ∧ (d.arrU 95).loadFrom ≤ 1 := by decide +kernel

theorem meets_ChosenPassesRun_6 :
    [(1, true), (0, false)].all (fun x =>
      let d := (wlDev x.1 x.2).fetchHeads 95
      let q := d.descAt 7 95 0
      let p : Pair := ⟨.bf16, .bf16, 1, 0⟩
      decide (d.chosen 95 2 = some (7, wsChoice, q)) && decide (q.pair = some p) && decide ((d.arrU 95).splitTo ≤ 0) &&
      !((d.arrU 95).feeding.any fun r => r.desc.split != 0) && !d.skips 7 q &&
      ((x.2 && ((d.arrU 95).tileFor (q.key p q.wloadPiece)).isSome) || (!x.2 && q.k == 0))) = true := by decide +kernel

/-- A DRAIN that closes a chain. -/
def drDev : Dev := array95 (stageDesc 3 0 0 0 1 0 0 0 0x2080) false
  (some { cls := 0, checked := 0, split := 0, mode := 0, skipped := false })

theorem meets_ChosenPassesRun_7 :
    let d := drDev.fetchHeads 95
    let q := d.descAt 7 95 0
    d.chosen 95 3 = some (7, wsChoice, q) ∧ (d.arrU 95).chain = some { cls := 0, checked := 0, split := 0, mode := 0, skipped := false } ∧
    Fmt.ofCode q.fmtOut = some .fp32 ∧ d.mayStart 95 0 = true ∧ d.skips 7 q = false ∧
    ((d.arrU 95).inflight.any fun r => r.desc.op == 1) = false ∧ (d.arrU 95).osDone ≤ 0 ∧ d.ungated 95 = true := by decide +kernel

/-- Passes of class 3 pass over once the gate has decided SKIP; the DRAIN closes a chain of class 3. -/
theorem meets_ChosenPassesRun_8_to_11 :
    [(0, none), (1, none), (2, none), (3, some { cls := 3, checked := 0, split := 0, mode := 0, skipped := false })].all
      (fun (x : Nat × Option Chain) =>
        let d := ((array95 (stageDesc x.1 3 (if x.1 = 3 then 0 else 2) (if x.1 = 3 then 0 else 2)
          (if x.1 = 0 || x.1 = 3 then 1 else 0) (if x.1 = 3 then 0 else 1) (if x.1 < 2 then 0x2000 else 0) (if x.1 < 3 then 0x2040 else 0)
          (if x.1 = 0 || x.1 = 3 then 0x2080 else 0)) false x.2).sets [(SCH_BAY_TRAIN.gate 7, 3)]).fetchHeads 95
        let q := d.descAt 7 95 0
        decide (d.chosen 95 x.1 = some (7, wsChoice, q)) && (q.pair.isSome || x.1 == 3) && (Fmt.ofCode q.fmtOut).isSome &&
          ((d.arrU 95).chain.isSome || x.1 != 3) && d.mayStart 95 0 && d.skips 7 q && decide ((d.arrU 95).splitTo ≤ 0) &&
          !((d.arrU 95).feeding.any fun r => r.desc.split != 0)) = true := by decide +kernel

/-- A pass in flight, with rows that wait or without. -/
def flight (rows : List (Nat × List Byte)) : PassRec :=
  { w0 := 0, w1 := 0, w2 := 0, w3 := 0, start := 0, pegCycle := 3, current := true, rowsLeft := rows, mismatch := false }

/-- A WS-GEMM of 129 rows in flight that has not taken its second block of A. -/
def feeding : PassRec := { flight [] with w0 := 2 * 64 + 2 * 2048 + 65536 + 128 * 2 ^ 32 + 2 ^ 48, w1 := 0x2000 + 2 ^ 32, more := 1 }

/-- The device after mesh waits of staging for array 95. -/
def meshed (d : Dev) (m : MeshWait) : Dev :=
  (d.meshWaits 15 m).putArr 95 { (d.meshWaits 15 m).arrU 95 with meshStall := ((d.meshWaits 15 m).arrU 95).meshStall + max m.static m.bestEffort }

theorem meets_ArrayEventsTakeEffect_1_2_5 :
    (let d := wsDev.putArr 95 { wsDev.arrU 95 with inflight := [flight []] }
     d.bayOfAg 15 = some 7 ∧ nextDone (d.arrU 95).inflight = some (flight []) ∧ (flight []).current = true) ∧
    (let d := wsDev.putAg 15 { AgU.reset with startReq := [(100, 5)], lastStart := some 100 }
     (d.agU 15).startReq = [(100, 5)] ∧ ∀ l, (d.agU 15).lastStart = some l → l + 16 ≤ 116) ∧
    (let d := wsDev.putArr 95 { wsDev.arrU 95 with inflight := [flight [(0x1FFFC0, [1])]] }
     d.bayOfAg 15 = some 7 ∧ (d.arrU 95).inflight.find? (fun r => !r.rowsLeft.isEmpty) = some (flight [(0x1FFFC0, [1])]) ∧
     (d.landRows 7 95 [(0x1FFFC0, [1])]).2.length ≠ [(0x1FFFC0, [(1 : Byte)])].length) := by decide +kernel

theorem meets_ArrayEventsTakeEffect_3_4 :
    (let d := meshed (wsDev.putArr 95 { wsDev.arrU 95 with staged := [], active := none }) ⟨3, 0⟩
     d.bayOfAg 15 = some 7 ∧ (d.nextStage 7 95 true).isSome = true ∧ (d.nextStage 7 95 false).isSome = true ∧ d.blockDue 7 95 = none) ∧
    (let d := meshed (wsDev.putArr 95 { wsDev.arrU 95 with staged := [], inflight := [feeding] }) ⟨0, 5⟩
     d.bayOfAg 15 = some 7 ∧ (d.nextStage 7 95 false).isSome = true ∧ (d.blockDue 7 95).isSome = true) := by decide +kernel

theorem meets_ArrayEventsTakeEffect_6_7 :
    (let d := up.putArr 95 { ArrayU.reset with locate := 1 }
     (d.arrU 95).locate = 1 ∧ (d.arrU 95).inflight = [] ∧ d.bayOfAg 15 = none ∧ d.clk.timeNs + 1138 ≤ d.clk.nextEdgeNs - 250) ∧
    ((up.putArr 95 { ArrayU.reset with locate := 2 }).arrU 95).locate = 2 := by decide +kernel

/-- Slice 95 about to run an instruction with an op; its other fields name registers 0, format FP32 (E4M3 as the target). -/
def slice95 (op : Nat) : Dev :=
  (running7 []).putVec 95 { VecU.reset with prog := [BitVec.ofNat 64 (op + 2 ^ 32 + 4 * 2 ^ 37)], running := true, dq := [0] }

/-- Slice 95's next instruction has the op; its class is 0, so that it runs whatever the gate says, and its peg has been reached. -/
def vecReady (op : Nat) : Bool :=
  match (slice95 op).vecNext 95 with
  | some (b, w) => b == 7 && w.op == op && (slice95 op).storeGate b w == .run &&
      (slice95 op).waitOk (AG_VEC_THR.off 15 5 0) (w.imm / 4096) 15 (w.imm % 4096) 0
  | none => false

theorem meets_VectorArithmeticRuns :
    [0x00, 0x01, 0x02, 0x03, 0x04, 0x05, 0x06, 0x07, 0x08, 0x09, 0x0A, 0x0B, 0x0C, 0x0D, 0x0E].all vecReady = true := by decide +kernel

theorem meets_VectorLogicPredicatesAndFunctionsRun :
    [0x10, 0x11, 0x12, 0x13, 0x14, 0x15, 0x18, 0x19, 0x1A, 0x1B, 0x20, 0x21, 0x22, 0x23, 0x24, 0x25, 0x26].all vecReady = true := by decide +kernel

theorem meets_VectorConversionsMovesAndLoadsRun :
    [0x28, 0x30, 0x31, 0x32, 0x38, 0x39, 0x3A, 0x3B, 0x3C, 0x3D, 0x3E, 0x40, 0x42, 0x45].all vecReady = true := by decide +kernel

theorem meets_VectorStoresRun :
    [0x41, 0x43, 0x44, 0x46, 0x47, 0x48].all vecReady = true ∧ ((slice95 0).vecU 95).dq = [0] := by decide +kernel

/-- A store of class 3 that the gate's SKIP passes over. -/
theorem meets_VectorStoresRun_7 :
    [0x41, 0x43, 0x44, 0x46, 0x47].all (fun op =>
      let d := ((running7 []).set (SCH_BAY_TRAIN.gate 7) 3).putVec 95 { VecU.reset with
        prog := [BitVec.ofNat 64 (op + 2 ^ 32 + 4 * 2 ^ 37 + 3 * 2 ^ 46)], running := true }
      match d.vecNext 95 with
      | some (b, w) => b == 7 && w.op == op && d.storeGate b w == .skip
      | none => false) = true := by decide +kernel

theorem meets_VectorScalarAndControlRun :
    [0x50, 0x51, 0x52, 0x53, 0x54, 0x55, 0x56, 0x57, 0x58, 0x59, 0x5C, 0x5D, 0x5E, 0x5F].all vecReady = true ∧
    ((up.putVec 95 { VecU.reset with copying := some [0] }).vecU 95).copying = some [0] := by decide +kernel

/-- A register instruction answers a next state. -/
theorem meets_VectorRegisterInstructionsLeaveTheRest : ∃ e, Answers (.vAdd 95 0) { dev := slice95 1, pending := [] } e := ⟨_, rfl⟩

/-- INT32 ADD under predicate 7 without z: element 127 off. -/
theorem meets_VectorIntegerAddWrapsAndMasks :
    let d := (running7 []).putVec 95 { VecU.reset with prog := [BitVec.ofNat 64 (1 + 7 * 2 ^ 28 + 9 * 2 ^ 32)], running := true }
    ∃ w, d.vecNext 95 = some (7, w) ∧ w.op = 1 ∧ w.fmt = 9 ∧ (d.vecU 95).on w 127 = false ∧ w.z ≠ 1 :=
  ⟨_, rfl, by decide +kernel⟩

theorem meets_PatrolsAndRepairsTakeEffect_1_4_6_7 :
    (let d := up.set (PWR_DOM.state 16) 0
     d.sliceUp 15 = true ∧ (0x2FFFFF : BitVec 22).toNat < 3145728) ∧
    (let d := up.sets [(PWR_DOM.state 19, 0), (GLB_STATUS.stack_usable, 0x80)]
     d.memActive = true ∧ d.bitOf GLB_STATUS.stack_usable ((0x7FFFFFFFFF : BitVec 39).toNat / 2 ^ 36) = true) ∧
    (up.set (PWR_DOM.state 19) 1).get (PWR_DOM.state 19) < 2 := by decide +kernel

theorem meets_PatrolsAndRepairsTakeEffect_2_3 :
    (let d := up.putAg 15 { AgU.reset with retireDue := [(0x2FFFFF, 1)], sparesUsed := [(lineBank 0x2FFFFF, 255)] }
     d.jnlFull = false ∧ (d.agU 15).retireDue.find? (fun p => p.1 == 0x2FFFFF) = some (0x2FFFFF, 1) ∧
     Tab.get (fun _ => 0) (d.agU 15).sparesUsed (lineBank 0x2FFFFF) < 256) ∧
    (let d := up.putAg 15 { AgU.reset with retireDue := [(0x2FFFFF, 1)], sparesUsed := [(lineBank 0x2FFFFF, 256)] }
     d.jnlFull = false ∧ (d.agU 15).retireDue.find? (fun p => p.1 == 0x2FFFFF) = some (0x2FFFFF, 1) ∧
     256 ≤ Tab.get (fun _ => 0) (d.agU 15).sparesUsed (lineBank 0x2FFFFF) ∧
     (d.agU 15).failed.contains (0x2FFFFF / 32768) = false) := by decide +kernel

theorem meets_PatrolsAndRepairsTakeEffect_8_9 :
    let d : Dev := { up with rowDue := [(hbmRow 0x7FFFFFFFFF, 0)] }
    let e : Dev := { d with sppr := [(hbmChannel 0x7FFFFFFFFF, Config.hbmBank (hbmRow 0x7FFFFFFFFF))], remaps := [(hbmChannel 0x7FFFFFFFFF, 63)] }
    d.jnlFull = false ∧ d.rowDue.find? (fun p => p.1 == hbmRow 0x7FFFFFFFFF) = some (hbmRow 0x7FFFFFFFFF, 0) ∧
    d.sppr.contains (hbmChannel 0x7FFFFFFFFF, Config.hbmBank (hbmRow 0x7FFFFFFFFF)) = false ∧
    e.sppr.contains (hbmChannel 0x7FFFFFFFFF, Config.hbmBank (hbmRow 0x7FFFFFFFFF)) = true ∧
    Tab.get (fun _ => 0) e.remaps (hbmChannel 0x7FFFFFFFFF) < 64 := by
  refine ⟨by decide +kernel, by decide +kernel, rfl, by simp, by decide +kernel⟩

/-- DMA engine 63 with a descriptor of the extent's last line. -/
def dma63 (op : Nat) : Dev :=
  (((running7 []).putBayBytes 7 0x1000 (toBytes 8 op ++ toBytes 8 0x1FFFC0 ++ toBytes 8 0x1FFF80 ++ toBytes 8 64)).putDma 63
    { DmaU.reset with running := true }).sets
    [(AG_DMA_TABLE.tbl_base 15 3, 0x1000), (AG_DMA_TABLE.tbl_len 15 3, 1), (AG_DMA_STATUS.state 15 3, 2)]

/-- The descriptor word of engine 63. -/
def dw (d : Dev) (k : Nat) : Nat := d.dmaWord 7 63 k
def dq63 (d : Dev) : DmaDesc := DmaDesc.of (dw d 0) (dw d 1) (dw d 2) (dw d 3)

theorem meets_DmaDescriptorsRun_1 :
    let d := dma63 0
    d.dmaReady 63 = some 7 ∧ (dq63 d).op = 0 ∧ (dq63 d).remSrc = false ∧ (dq63 d).remDst = false ∧
    d.dmaCheck 7 (dw d 0) (dw d 1) (dw d 2) (dw d 3) = none := by decide +kernel

theorem meets_DmaDescriptorsRun_2 :
    let d := dma63 (0x40 + 0x7FFE * 256)
    d.dmaReady 63 = some 7 ∧ (dq63 d).op = 0 ∧ ((dq63 d).remSrc || (dq63 d).remDst) = true ∧
    d.dmaCheck 7 (dw d 0) (dw d 1) (dw d 2) (dw d 3) = none := by decide +kernel

theorem meets_DmaDescriptorsRun_3 :
    let d := (dma63 0).putBayBytes 7 0x1000 (toBytes 8 1 ++ toBytes 8 0 ++ toBytes 8 0x1FFFC0 ++ toBytes 8 (64 + 0xABCD * 2 ^ 48))
    d.dmaReady 63 = some 7 ∧ (dq63 d).op = 1 ∧ (dq63 d).remSrc = false ∧ (dq63 d).remDst = false ∧
    d.dmaCheck 7 (dw d 0) (dw d 1) (dw d 2) (dw d 3) = none := by decide +kernel

theorem meets_DmaDescriptorsRun_4 :
    let r : DmaRec := { id := 0, w0 := 0xFFE * 2 ^ 40, w1 := 0, w2 := 0, w3 := 0 }
    let d := (up.putDma 63 { DmaU.reset with inflight := List.replicate 7 { r with w0 := 0 } ++ [r] }).meshWaits 15 ⟨1, 2⟩
    (d.dmaU 63).inflight[7]? = some r ∧ d.owing (Owner.ofDma 63 r.id) = false ∧ (DmaDesc.of r.w0 r.w1 r.w2 r.w3).donePeg ≠ 0xFFF := by
  decide +kernel

/-- A class-3 descriptor whose wait is satisfied has reached the gate. -/
def gateDev : Dev := array95 (stageDesc 0 3 2 2 1 1 0x2000 0x2040 0x2080) true none

theorem meets_SchedulingEventsTakeEffect_1_2 :
    ((gateDev.liveStep 7).isSome = true ∧ gateDev.get (SCH_BAY_TRAIN.gate 7) < 2 ∧ gateDev.gateReached 7 = true ∧
      gateDev.get (SCH_BAY_GATECFG.gate_colls 7) = 0 ∧ (gateDev.fltBay 7).snap = none) ∧
    (let d := gateDev.sets [(SCH_BAY_GATECFG.gate_colls 7, 255), (SCH_BAY_TRAIN.gate_done 7, 255)]
     (d.liveStep 7).isSome = true ∧ d.get (SCH_BAY_TRAIN.gate 7) < 2 ∧ d.gateReached 7 = true ∧
     0 < d.get (SCH_BAY_GATECFG.gate_colls 7) ∧ d.get (SCH_BAY_GATECFG.gate_colls 7) ≤ d.get (SCH_BAY_TRAIN.gate_done 7) ∧
     (d.fltBay 7).snap = none) := by decide +kernel

theorem meets_SchedulingEventsTakeEffect_3_4_5 :
    (let d := bay7.putBay 7 { bay7.bayU 7 with step := some { step7 with draining := true } }
     (d.bayU 7).step = some { step7 with draining := true } ∧ ((d.drainEnd 7).bayU 7).step = none ∧
     (d.drainEnd 7).get (SCH_CTX_STATE.state 7 7) = 2) ∧
    (let d := bay7.putBay 7 { bay7.bayU 7 with switch := some { inn := 7, out := some 6, doneEdge := none } }
     (d.bayU 7).switch = some { inn := 7, out := some 6, doneEdge := none } ∧ d.bayState 7 ≠ bayStriking) ∧
    (let sv : SavedState :=
       { mid := false, pegs := [], dmaReps := [], arrays := [], slices := [], dma := [], fields := [], area := [], stamp := 0 }
     let d := (bay7.putBay 7 { bay7.bayU 7 with switch := some { inn := 7, out := none, doneEdge := none } }).putCtx 63
       { CtxU.reset with saved := some sv }
     (d.bayU 7).switch = some { inn := 7, out := none, doneEdge := none } ∧ d.bayState 7 ≠ bayStriking ∧
     ((d.set (SCH_BAY_RUN.switching 7) 0).ctxU 63).saved = some sv) := by decide +kernel

/-! ### Witnesses: links and packets -/

/-- Port 49 in DIRECT mode in a state, at 1 ms. -/
def port49 (state : Nat) : Dev :=
  atNs (up.sets [(FABP_CFG.mode 49, 1), (FABP_CFG.admin_en 49, 1), (FABP_CFG.face 49, 7), (FABP_STATUS.state 49, state),
    (FABP_STATUS.lane_mask 49, 0xFF)]) 1000000

/-- The same with a change to the port's record. -/
def port49With (state : Nat) (f : PortU → PortU) : Dev := (port49 state).putPort 49 (f PortU.reset)

theorem meets_LinkBringUp_1_to_6 :
    ((port49 psDetect).portState 49 = psDetect ∧ (port49 psDetect).retiredLanes 49 = [] ∧ ((port49 psDetect).port 49).toRecord = none) ∧
    (port49 psTrain).portState 49 = psTrain ∧
    (let d := atNs (port49 psTrain) 500000000
     d.portState 49 = psTrain ∧ (d.port 49).stateNs + 500000000 ≤ d.clk.timeNs) ∧
    ((port49 psAlign).portState 49 = psAlign ∧ (port49 psAlign).isDirect 49 = true ∧
      (((port49 psAlign).set (FABP_STATUS.lane_mask 49) ((port49 psAlign).port 49).lanes).setPort 49 psLinkInit).isDirect 49 = true) ∧
    (let d := atNs (port49 psAlign) 2000000
     d.portState 49 = psAlign ∧ (d.port 49).stateNs + 2000000 ≤ d.clk.timeNs) ∧
    ((port49 psLinkInit).portState 49 = psLinkInit ∧ (port49 psLinkInit).isEthernet 49 = false) := by decide +kernel

theorem meets_LinkBringUp_7 :
    let d := (port49 psLinkInit).set (FABP_CFG.mode 49) 2
    d.portState 49 = psLinkInit ∧ d.isEthernet 49 = true := by decide +kernel

/-- A record of an unassigned C96 on face 7 that reports a match, all lanes usable. -/
def record49 : BitVec 384 := BitVec.ofNat 384 (packed [(0, 1), (1, 8), (2, 0x0096), (6, 7), (7, 0xFF), (8, 1)])

/-- A port in HANDSHAKE that already holds this record of its peer, and the device after the check for an ID conflict. -/
def held49 : Dev := (List.range 6).foldl (fun d i => d.set (FABP_PEER.record 49 i) (record49.toNat / 2 ^ (64 * i))) (port49 psHandshake)
def checked49 : Dev :=
  ((List.range 6).foldl (fun d i => d.set (FABP_PEER.record 49 i) (record49.toNat / 2 ^ (64 * i))) held49).checkConflict record49.toNat

theorem meets_LinkBringUp_8_9 :
    held49.isDirect 49 = true ∧ held49.portState 49 = psHandshake ∧
    ((List.range 6).all fun i => held49.get (FABP_PEER.record 49 i) == record49.toNat / 2 ^ (64 * i) % 2 ^ 64) = true ∧
    checked49.recordFails 49 record49.toNat = 0 ∧
    (((((checked49.set (FABP_STATUS.hs_fail 49) 0).updPort 49 fun u =>
      { u with accepted := true, matched := (record49.toNat / 2 ^ 11) % 2 == 1 }).sendRecord 49).port 49).matched = true) ∧
    (held49.port 49).recordNs + 10000 ≤ held49.clk.timeNs := by decide +kernel

theorem meets_LinkCreditsAndRetry :
    (let f : Flit := { seq := 4095, tc := 7, shared := false, resent := 4 }
     let d := port49With psActive fun u => { u with retry := [f] }
     d.isDirect 49 = true ∧ d.portState 49 = psActive ∧ (coverFlits 4095 (d.port 49).retry).length < (d.port 49).retry.length ∧
     (d.port 49).retry = [] ++ f :: [] ∧ f.seq = 4095 ∧ ((d.port 49).retry.any fun f => decide (4 ≤ f.resent)) = true ∧
     (d.port 49).retry ≠ [] ∧ (d.port 49).progressNs + 5000 ≤ d.clk.timeNs) ∧
    (let d := port49With psActive fun u => { u with unrep := 1, unrepNs := 999900 }
     (d.port 49).unrep ≠ 0 ∧ (d.port 49).unrepNs + 100 ≤ d.clk.timeNs) ∧
    ((port49With psActive fun u => { u with owed := true, unrepNs := 999900 }).port 49).owed = true ∧
    (let d := (port49 psActive).set (FABP_CFG.mode 49) 2
     d.isEthernet 49 = true ∧ d.portState 49 = psActive) := by decide +kernel

theorem meets_HeartbeatsTakeEffect_1_2_3_4 :
    ((port49 psActive).isDirect 49 = true ∧ (port49 psActive).portState 49 = psActive ∧
      ((port49 psActive).port 49).hbSentNs + 1000 ≤ (port49 psActive).clk.timeNs) ∧
    ((port49 psHandshake).isDirect 49 = true ∧ (port49 psHandshake).portState 49 = psHandshake) ∧
    ((port49 psWithdrawn).isDirect 49 = true ∧ (port49 psWithdrawn).portState 49 = psWithdrawn) ∧
    (let d := port49With psRetrain fun u => { u with hbNs := some 991950 }
     d.isDirect 49 = true ∧ (d.port 49).hbNs = some 991950 ∧ 991950 + 8050 ≤ d.clk.timeNs ∧ d.portState 49 ≠ psWithdrawn ∧
     d.portState 49 ≠ psDisabled ∧ (d.port 49).returning = false) := by decide +kernel

/-- Port 49 in ETHERNET mode and ACTIVE, with peer 0x7FFE named. -/
def ether49 (f : PortU → PortU) : Dev :=
  (port49With psActive f).sets [(FABP_CFG.mode 49, 2), (FABP_HBPEER.peers 49 15, 0xFFFE * 2 ^ 48)]

theorem meets_HeartbeatsTakeEffect_5 :
    let d := ether49 fun u => { u with hbNs := some 991950, hbPeers := [(0x7FFE, 991951)] }
    d.isDirect 49 = false ∧ d.isEthernet 49 = true ∧ (d.port 49).hbNs = some 991950 ∧ 991950 + 8050 ≤ d.clk.timeNs ∧
    Tab.get (fun _ => 0) (d.port 49).hbPeers 0x7FFE - 1 + 8050 ≤ d.clk.timeNs ∧ d.portState 49 ≠ psWithdrawn ∧
    d.portState 49 ≠ psDisabled ∧ (d.hbPeersOf 49).contains 0x7FFE = true ∧ (d.port 49).deadPeers.contains 0x7FFE = false := by
  decide +kernel

/-- A packet from device 0x7FFE with an op and header fields from byte 24 on. -/
def packet (op tag addr : Nat) (fields : List (Nat × Nat)) (payload : List Byte) : Packet :=
  { dst := 0, src := 0x7FFE, multicast := false, broadcast := false, det := false, flagsRsv := 0, tc := 7, op := BitVec.ofNat 8 op,
    status := 0, tag := BitVec.ofNat 12 tag, len := BitVec.ofNat 16 payload.length, seq := 0, addr := BitVec.ofNat 48 addr, hops := 0,
    spec := BitVec.ofNat 288 (packed (fields.map fun f => (f.1 - 24, f.2))), payload := payload }

/-- A device with a packet that port 49 delivered. -/
def delivered (d : Dev) (pkt : Packet) : Dev := { d with fab := { d.fab with inbox := [{ port := 49, pkt := pkt, buf := none }] } }

/-- The device once its oldest packet of an op (and control type) has been taken. -/
def taken (d : Dev) (op : Nat) (type : Option Nat) : Dev :=
  match d.takePacket op type with
  | some (_, _, e) => e
  | none => d

theorem meets_HeartbeatsTakeEffect_6 :
    let d := delivered (ether49 id) (packet 6 0 0 [(24, 7)] [])
    d.takePacket opControl (some 7) = some (49, packet 6 0 0 [(24, 7)] [], taken d opControl (some 7)) ∧
    (taken d opControl (some 7)).isEthernet 49 = true ∧ (taken d opControl (some 7)).portState 49 = psActive ∧
    ((taken d opControl (some 7)).hbPeersOf 49).contains 0x7FFE = true := by decide +kernel

theorem meets_LaneRetirementTakesEffect :
    (let d := port49 psActive
     d.isDirect 49 = true ∧ d.portState 49 = psActive ∧ (d.port 49).reqNs = none) ∧
    (let d := port49With psActive fun u => { u with want := some 0xFF, reqNs := some 990000 }
     (d.port 49).want = some 0xFF ∧ d.portState 49 = psActive ∧ (d.port 49).reqNs = some 990000 ∧ 990000 + 10000 ≤ d.clk.timeNs) ∧
    (let d := port49With psWithdrawn fun u => { u with disabling := true }
     d.portState 49 = psWithdrawn ∧ (d.port 49).retry = [] ∧ (d.port 49).disabling = true) ∧
    (let d := port49With psActive fun u => { u with laneDue := [7] }
     (d.port 49).laneDue.contains 7 = true ∧ d.portState 49 = psActive ∧ d.jnlFull = false) := by decide +kernel

/-- A WRITE of two flits; the expected sequence is its HEAD's, or the next one. -/
theorem meets_PacketsAreTakenOrRefused_1 :
    let d := port49With psActive fun u => { u with rxSeq := 4095 }
    let e := port49With psWithdrawn fun u => { u with rxSeq := 4095 }
    let pkt := packet 0 0 0 [] [1]
    d.isDirect 49 = true ∧ d.portState 49 = psActive ∧ e.isDirect 49 = true ∧ e.portState 49 = psWithdrawn ∧ flitsOf pkt = 2 ∧
    aheadOf 4096 (d.port 49).rxSeq (4095 : BitVec 12).toNat = 0 ∧ aheadOf 4096 (d.port 49).rxSeq (4094 : BitVec 12).toNat = 1 ∧
    aheadOf 4096 (d.port 49).rxSeq (0 : BitVec 12).toNat = 4095 := by decide +kernel

/-- A DISCOVER on a QUARANTINE port. -/
theorem meets_PacketsAreTakenOrRefused_1' :
    (port49 psQuarantine).isDirect 49 = true ∧ (port49 psQuarantine).portState 49 = psQuarantine ∧
    (packet 6 0 0 [(24, 4)] []).op.toNat = opControl ∧ within (ctlType (packet 6 0 0 [(24, 4)] [])) 4 7 = true := by decide +kernel

/-- Frames of port 49's EtherType and of another one; an association with a key, its next packet number 8. -/
theorem meets_PacketsAreTakenOrRefused_2_3_4 :
    (let d := ether49 id
     let h : FrameHdr := { dst := 0, src := 0, vid := 0, pcp := 7, etype := BitVec.ofNat 16 (d.get (FABP_ETH0.ethertype 49)), sec := none }
     d.isEthernet 49 = true ∧ d.portState 49 = psActive ∧ d.flag (FABP_SEC.sec_en 49) = false ∧ h.sec = none ∧
     h.etype.toNat = d.get (FABP_ETH0.ethertype 49)) ∧
    (let e := (ether49 fun u => { u with rxPn := [0, 0, 0, 8] }).sets [(FABP_SEC.sec_en 49, 1), (FABP_SEC.rx_an_valid 49, 8)]
     let d : Dev := { e with sec := { e.sec with macsec := [(6 * 49 + 2 + 3, some 1)] } }
     let t : SecTag := { an := 3, pn := 8, authentic := true }
     d.isEthernet 49 = true ∧ d.portState 49 = psActive ∧ d.flag (FABP_SEC.sec_en 49) = true ∧ d.secValid 49 t = true ∧
     d.secValid 49 { t with authentic := false } = false) := by decide +kernel

/-- Bay 7 with its extent and the tag 0xFFF. -/
def tagged7 : Dev := (bay7.set (SCH_BAY_STATE.fab_tag 7) 0xFFF).sets [(FABP_CFG.mode 49, 1), (FABP_STATUS.state 49, psActive)]

theorem meets_EndToEndPacketsTakeEffect_1 :
    let pkt := packet 0 0xFFF 0x1FFFFF [] [0xAB]
    let d := delivered tagged7 pkt
    let e := taken d opWrite none
    d.takePacket opWrite none = some (49, pkt, e) ∧ e.rxClass pkt = .fresh ∧ pkt.tag.toNat ≠ 0 ∧
    e.bayOfTag pkt.tag.toNat = some 7 ∧ e.rangeOk 7 pkt.addr.toNat pkt.payload.length = true ∧ d.jnl.held.length < 1024 := by
  decide +kernel

/-- Device 0x7FFE is a manager. -/
def managed (d : Dev) : Dev := d.sets [(FAB_MGR.mgr0, 0x7FFE), (FAB_MGR.mgr0_valid, 1)]

/-- A manager's untagged WRITE to a register, and to HBM. -/
theorem meets_EndToEndPacketsTakeEffect_2 :
    (let pkt := packet 0 0 (regAddr PWR_TARGET.off) [] (toBytes 8 7)
     let d := delivered (managed tagged7) pkt
     let e := taken d opWrite none
     d.takePacket opWrite none = some (49, pkt, e) ∧ e.rxClass pkt = .fresh ∧ pkt.tag.toNat = 0 ∧ e.isManager pkt.src.toNat = true ∧
     e.managerRange pkt.addr.toNat pkt.payload.length = some .regs ∧ d.jnl.held.length < 1024) ∧
    (let pkt := packet 0 0 0x200000 [] [1]
     let d := delivered (managed (tagged7.set GLB_STATUS.stack_usable 0xFF)) pkt
     let e := taken d opWrite none
     d.takePacket opWrite none = some (49, pkt, e) ∧ e.rxClass pkt = .fresh ∧ pkt.tag.toNat = 0 ∧ e.isManager pkt.src.toNat = true ∧
     e.managerRange pkt.addr.toNat pkt.payload.length = some .hbm) := by decide +kernel

theorem meets_EndToEndPacketsTakeEffect_3 :
    let pkt := packet 1 0xFFF 0x1FF000 [(24, 4096)] []
    let d := delivered tagged7 pkt
    let e := taken d opReadReq none
    d.takePacket opReadReq none = some (49, pkt, e) ∧ e.rxClass pkt = .fresh ∧ 0 < pktNum pkt 24 4 ∧
    pkt.tag.toNat ≠ 0 ∧ (e.rxMark pkt).bayOfTag pkt.tag.toNat = some 7 ∧
    (e.rxMark pkt).rangeOk 7 pkt.addr.toNat (pktNum pkt 24 4) = true := by decide +kernel

/-- A READ_REQ of an engine that waits for its answer. -/
def sentRead : SentPkt :=
  { pkt := { packet 1 0xFFF 0 [(24, 64)] [] with dst := 0x7FFE, src := 0 }, sentNs := 0, tries := 0, owner := .dmaRead 63 0 0, got := [] }

/-- A device that holds it and has taken in a packet. -/
def waitingRead (pkt : Packet) : Dev :=
  let d := delivered tagged7 pkt
  { d with fab := { d.fab with sent := [sentRead] } }

theorem meets_EndToEndPacketsTakeEffect_4_5_6_7 :
    (let pkt := packet 2 0 0 [(24, 0)] (List.replicate 64 1)
     let d := waitingRead pkt
     d.takePacket opReadResp none = some (49, pkt, taken d opReadResp none) ∧ (taken d opReadResp none).answered pkt = some sentRead ∧
     sentRead.pkt.op.toNat = opReadReq ∧ pkt.status = 0) ∧
    (let pkt := { packet 2 0 0 [(24, 0)] [] with status := 3 }
     let d := waitingRead pkt
     d.takePacket opReadResp none = some (49, pkt, taken d opReadResp none) ∧ (taken d opReadResp none).answered pkt = some sentRead ∧
     pkt.status.toNat ≠ 0 ∧ pkt.status.toNat ≠ 4) ∧
    (let pkt := packet 3 0 0 [(28, 2)] []
     let d := waitingRead pkt
     d.takePacket opAck none = some (49, pkt, taken d opAck none) ∧
     ((taken d opAck none).acknowledge fun e => (e.pkt.dst == pkt.src && e.pkt.tc == pkt.tc && !e.pkt.multicast) &&
       e.pkt.op.toNat != opReadReq && ackCovers (pktNum pkt 24 4) (pktNum pkt 28 8) e.pkt.seq.toNat).flt.timers = []) ∧
    (let pkt := packet 4 0 0 [] []
     let d := waitingRead pkt
     d.takePacket opNack none = some (49, pkt, taken d opNack none) ∧ (taken d opNack none).answered pkt = some sentRead) := by
  decide +kernel

theorem meets_EndToEndPacketsTakeEffect_8_9_10 :
    (let d := atNs { up with fab := { up.fab with rx := [(8 * 0x7FFF + 7, { next := 1, beyond := [], due := 1, firstNs := 0 })] } } 1000
     let r := Tab.get (fun _ => RxStream.reset) d.fab.rx (8 * 0x7FFF + 7)
     r.due ≠ 0 ∧ r.firstNs + 1000 ≤ d.clk.timeNs) ∧
    (let d := atNs { up with fab := { up.fab with sent := [sentRead] } } 1000000000
     d.fab.sent.find? (fun e => e.pkt.dst.toNat == 0x7FFE && e.pkt.tc.toNat == 7 && e.pkt.seq.toNat == 0) = some sentRead ∧
     sentRead.sentNs + 1000 * d.get FAB_E2E.e2e_timeout_us ≤ d.clk.timeNs ∧ sentRead.tries < d.get FAB_E2E.e2e_retries ∧
     d.get FAB_E2E.e2e_retries ≤ ({ sentRead with tries := 15 } : SentPkt).tries) := by
  decide +kernel

/-! ### Witnesses: synchronisation, faults, collectives and power -/

/-- A control packet of a type that port 49, DIRECT and ACTIVE, has delivered in domain 1. -/
def control (type : Nat) (fields : List (Nat × Nat)) : Packet := packet 6 0xFFF 0 ((24, type) :: fields) []
def heard (type : Nat) (fields : List (Nat × Nat)) : Dev :=
  delivered ((port49 psActive).set FAB_ID.domain_id 1) (control type fields)

theorem meets_SynchronisationTakesEffect_1_4 :
    (let d := heard 1 [(28, 0x7FFE), (30, 0x7FFE)]
     d.takePacket opControl (some 1) = some (49, control 1 [(28, 0x7FFE), (30, 0x7FFE)], taken d opControl (some 1)) ∧
     (taken d opControl (some 1)).get FAB_ID.domain_id ≠ 0) ∧
    (let d := heard 2 [(28, 7)]
     d.takePacket opControl (some 2) = some (49, control 2 [(28, 7)], taken d opControl (some 2)) ∧
     (taken d opControl (some 2)).isDirect 49 = true) := by decide +kernel

/-- Synchronisation has begun with port 49 as the parent's. -/
def synced (f : SyncU → SyncU) : Dev :=
  let d := (atNs (port49 psActive) 1000000000).sets [(FAB_ID.domain_id, 1), (TCK_SYNC_STATUS.parent_port, 49), (TCK_STATUS.synced, 1)]
  { d with fab := { d.fab with sync := f { SyncU.reset with begun := some 0, everSynced := true } } }

theorem meets_SynchronisationTakesEffect_2 :
    let d := (synced id).sets [(TCK_SYNC_CFG.master_en, 1), (FAB_ID.id_valid, 1)]
    d.fab.sync.begun = some 0 ∧ d.get FAB_ID.domain_id ≠ 0 ∧ d.fab.sync.annNs + d.announceNs ≤ d.clk.timeNs ∧
    d.chooseMaster.knowsKey = true := by decide +kernel

/-- SYNC_RESP of an ETHERNET parent. -/
theorem meets_SynchronisationTakesEffect_5 :
    let d := delivered ((synced fun u => { u with parentId := 0x7FFE }).set (FABP_CFG.mode 49) 2) (control 3 [])
    let e := taken d opControl (some 3)
    d.takePacket opControl (some 3) = some (49, control 3 [], e) ∧ e.flag TCK_STATUS.master = false ∧
    e.get TCK_SYNC_STATUS.parent_port = 49 ∧ e.isDirect 49 = false ∧ (control 3 []).src.toNat = e.fab.sync.parentId := by decide +kernel

theorem meets_SynchronisationTakesEffect_6 :
    let d := delivered (synced fun u => { u with req := some (49, 7) }) (control 3 [(28, 7)])
    let e := taken d opControl (some 3)
    d.takePacket opControl (some 3) = some (49, control 3 [(28, 7)], e) ∧ e.flag TCK_STATUS.master = false ∧
    e.get TCK_SYNC_STATUS.parent_port = 49 ∧ e.isDirect 49 = true ∧ e.fab.sync.req = some (49, 7) ∧
    pktNum (control 3 [(28, 7)]) 28 8 = 7 := by decide +kernel

theorem meets_SynchronisationTakesEffect_7_8_9 :
    let d := (synced fun u => { u with ptp := some (0, 3000), delayT3 := some 0 }).set (FABP_CFG.mode 49) 2
    d.flag TCK_STATUS.master = false ∧ d.get TCK_SYNC_STATUS.parent_port = 49 ∧ d.isEthernet 49 = true ∧ d.portLive 49 = true ∧
    d.fab.sync.ptp = some (0, 3000) ∧ d.fab.sync.delayT3 = some 0 := by decide +kernel

/-- The device after a pulse, before it steers. -/
def pulsed (d : Dev) : Dev :=
  (({ d with fab := { d.fab with sync := { d.fab.sync with ppsNs := some d.clk.timeNs } } } : Dev).set GLB_STATUS.pps_present 1).chooseMaster

theorem meets_SynchronisationTakesEffect_10_11_12 :
    (let d := atNs (synced fun u => { u with ppsNs := some 0 }) 2000000000
     d.fab.sync.ppsNs = some 0 ∧ 0 + 2000000000 ≤ d.clk.timeNs) ∧
    (pulsed (synced id)).flag TCK_STATUS.master = false ∧
    (pulsed ((synced id).sets [(TCK_SYNC_CFG.master_en, 1), (FAB_ID.id_valid, 1)])).flag TCK_STATUS.master = true ∧
    (let d := synced id
     d.fab.sync.begun = some 0 ∧ d.get FAB_ID.domain_id ≠ 0 ∧
     d.fab.sync.measNs + 1000 * d.get TCK_SYNC_CFG.sync_interval_us ≤ d.clk.timeNs) := by decide +kernel

/-- Every control packet that the statements take end to end can be the oldest delivered one, and a new one. -/
theorem meets_ControlTakes :
    [0x11, 0x12, 0x13, 0x14, 0x15, 0x21, 0x22, 0x30].all (fun t =>
      match (heard t []).takePacket opControl (some t) with
      | some (p, pkt, d) => p == 49 && pkt == control t [] && d.rxClass pkt == .fresh
      | none => false) = true := by decide +kernel

/-- A snapshot of bay 7 to its host that is being read. -/
def snap7 : Snap :=
  { version := 1, header := [], startTick := 0, reading := true, gateTicks := 0, dests := [2], failed := false,
    key := none, cmds := [] }

theorem meets_SisterAndSnapshotEventsTakeEffect_3_4 :
    (let d := atNs (up.set (bindField 7 1) biBinding) 1000000
     d.bindState 7 1 = biBinding ∧ (d.bindOf 7 1).sentNs + 1000000 ≤ d.clk.timeNs) ∧
    (let d := bay7.putFltBay 7 { FltBay.reset with snap := some snap7 }
     (d.fltBay 7).snap = some snap7 ∧ snap7.reading = true ∧ snap7.dests = [2]) ∧
    [[], [0], [1]].all (fun l =>
      let n : Snap := { snap7 with dests := l }
      decide (((bay7.putFltBay 7 { FltBay.reset with snap := some n }).fltBay 7).snap = some n) && n.reading) = true := by decide +kernel

theorem meets_RefillAndFaultEventsTakeEffect_3_4_5 :
    (let d := heard 0x10 [(25, 0), (26, 0x7FFF)]
     d.takePacket opControl (some 0x10) = some (49, control 0x10 [(25, 0), (26, 0x7FFF)], taken d opControl (some 0x10)) ∧
     pktNum (control 0x10 [(25, 0), (26, 0x7FFF)]) 25 1 = 0) ∧
    (let d := heard 0x10 [(25, 1)]
     d.takePacket opControl (some 0x10) = some (49, control 0x10 [(25, 1)], taken d opControl (some 0x10)) ∧
     pktNum (control 0x10 [(25, 1)]) 25 1 ≠ 0) ∧
    (let d := atNs { up with flt := { up.flt with timers := [0] } } 6000
     d.flt.timers = [0] ∧ 0 + 6000 ≤ d.clk.timeNs) := by decide +kernel

/-- Bay 7 runs a step whose collective table entry 1 at 0x1000 has an op, one member, done peg 5 of AG 15, no wait. -/
def colDev (op : Nat) (sending : Bool) : Dev :=
  let w := [op + 1 * 2 ^ 4 + 15 * 2 ^ 52, 5, 0, 0, 0, 0, 0, 0]
  let u : Inst := { bay := 7, tbl := 1, step := 0, desc := w, members := [0], counts := [0], t0 := some 0, issued := true,
                    sending := sending, segs := [], landed := [], blocks := [], standIn := none, flags := false, lost := false,
                    defer := [], gaveUp := false }
  let d := (running7 []).putBayBytes 7 0x1040 (w.flatMap (toBytes 8))
  ({ d with col := { d.col with insts := [u] } } : Dev).sets
    [(COL_BAY_TABLE.tbl_base 7, 0x1000), (COL_BAY_TABLE.tbl_len 7, 2), (SCH_BAY_STATE.fab_tag 7, 0xFFF)]

theorem meets_CollectiveEventsTakeEffect_1_to_4 :
    [0, 1, 2, 3].all (fun op =>
      let s := colDev op false
      let q := ColDesc.of (s.colWords 7 1)
      match s.colSteps 7 with
      | [r] =>
        let d := if !q.scheduled && !s.colStarted 7 1 (r.no % 65536) && s.colInput q then s.colIssue 7 1 (r.no % 65536) else s
        match d.inst 7 1 (r.no % 65536) with
        | some u => decide (1 < s.get (COL_BAY_TABLE.tbl_len 7)) && q.op == op && u.issued && !u.sending && d.colInput u.q && u.q.op == op
        | none => false
      | _ => false) = true := by decide +kernel

/-- A COLLECTIVE and a LEAVE for the bay that holds the tag, and for a tag that no bay holds. -/
theorem meets_CollectiveEventsTakeEffect_5_to_8 :
    [(tagged7, some 7), (up, none)].all (fun x =>
      let c := packet 5 0xFFF 0 [] []
      let l := control 0x30 []
      (match (delivered x.1 c).takePacket opColl none with
       | some (_, pkt, e) => pkt == c && e.rxClass pkt == .fresh && e.bayOfTag pkt.tag.toNat == x.2
       | none => false) &&
      (match (delivered x.1 l).takePacket opControl (some 0x30) with
       | some (_, pkt, e) => pkt == l && e.rxClass pkt == .fresh && e.bayOfTag pkt.tag.toNat == x.2
       | none => false)) = true := by decide +kernel

theorem meets_CollectiveEventsTakeEffect_9 : ((colDev 0 true).instDone 7 1).isSome = true := by decide +kernel

theorem meets_GovernorIntervalSetsTheDraw : up.flag PWR_THAW_CFG.site_en = false := by decide +kernel

theorem meets_PowerEventsTakeEffect_1_to_5 :
    (let d := atNs (up.set PWR_STATUS.mode 1) 1000000000
     d.get PWR_STATUS.mode = 1 ∧ d.pwr.causeNs + 1000000000 ≤ d.clk.timeNs) ∧
    (let d := atNs ({ up with pwr := { up.pwr with coolNs := some 0 } } : Dev) 100000000
     (d.set PWR_STATUS.mode 2).get PWR_STATUS.mode = 2 ∧ (d.set PWR_STATUS.mode 2).pwr.coolNs = some 0 ∧ 0 + 100000000 ≤ d.clk.timeNs) ∧
    up.pwrRunning = true ∧
    (atNs up 100000000).pwrRunning = true ∧ (atNs up 100000000).pwr.validNs + 100000000 ≤ (atNs up 100000000).clk.timeNs ∧
    (0x8000 : BitVec 16) ≠ 0 := by decide +kernel

theorem meets_PowerEventsTakeEffect_8_to_14 :
    (let d := ((running7 []).setBit GLB_RAIL.uv 20).incSat GLB_RAIL.uv_count 1
     5 ≤ (20 : Fin 21).val ∧ d.powerMode.bayOfAg 15 = some 7) ∧
    (let d := atNs ({ up with pwr := { up.pwr with clockUp := some 0 } } : Dev) 500000
     d.pwr.clockUp = some 0 ∧ d.pwrRunning = true ∧ 0 + 500000 ≤ d.clk.timeNs) ∧
    (let d := up.set (PWR_DOM.moving 19) 1
     d.flag (PWR_DOM.moving 19) = true ∧ d.pwrRunning = true ∧ d.domainOk 19 (d.get (PWR_DOM.req 19)) = true ∧
     d.holdTakesUp 19 (d.get (PWR_DOM.req 19)) = true) ∧
    up.pwr.trip = false := by decide +kernel

theorem meets_TokenExchangeTakesEffect_1_3 :
    (let d := (atNs up 99999).sets [(TCK_PERIOD.period_us, 100), (PWR_THAW_CFG.tok_window_ticks, 1), (TCK_TICK.tick, 200)]
     d.pwr.window < d.windowNow ∧ d.flag PWR_THAW_CFG.site_en = false ∧ d.pwr.forcedW = 0 ∧ d.pwr.asked = none ∧
     d.flag PWR_COORD.is_coord = false) ∧
    (let d := (atNs up 10000000).set PWR_THAW_CFG.coord_en 1
     d.electCoord.pwrRunning = true ∧ d.electCoord.flag PWR_COORD.is_coord = true ∧
     d.electCoord.pwr.coordNs + 10000000 ≤ d.electCoord.clk.timeNs) := by decide +kernel

theorem meets_TokenExchangeTakesEffect_2_5_7 :
    (let pkt := control 0x20 [(26, 0)]
     let d := heard 0x20 [(26, 0)]
     d.takePacket opControl (some 0x20) = some (49, pkt, taken d opControl (some 0x20)) ∧
     pktNum pkt 26 2 = (taken d opControl (some 0x20)).get PWR_THAW_CFG.site_id) ∧
    (let pkt := control 0x21 []
     let d := heard 0x21 []
     d.takePacket opControl (some 0x21) = some (49, pkt, taken d opControl (some 0x21)) ∧ (taken d opControl (some 0x21)).rxClass pkt = .fresh) ∧
    (let pkt := control 0x22 [(32, 2 ^ 48 - 1)]
     let d := heard 0x22 [(32, 2 ^ 48 - 1)]
     let e := taken d opControl (some 0x22)
     d.takePacket opControl (some 0x22) = some (49, pkt, e) ∧ e.rxClass pkt = .fresh ∧ pktNum pkt 25 2 = e.get PWR_THAW_CFG.site_id) := by
  decide +kernel

/-- A control packet in a frame at the head of the highest receive queue; its sender is peer 3. -/
def segFrame (type : Nat) : Frame :=
  { dst := BitVec.ofNat 48 up.ownMac, src := 0x0123456789AB, tag := none, etype := BitVec.ofNat 16 (up.get MGT_CFG.hor_etype),
    payload := pktHeader { control type [] with tag := 0, src := 0 } }
def onSegment (type : Nat) : Dev :=
  ((up.set MGT_CFG.mac_en 1).sets [(MGT_PEER.valid 3, 1), (MGT_PEER.mac 3, 0x0123456789AB)]).putRxq 3 [segFrame type]

/-- Every type that the segment may bring is taken from its head. -/
theorem meets_segTakes :
    [4, 5, 6, 0x20, 0x21, 0x22].all (fun t =>
      let d := onSegment t
      !(d.fab.inbox.any fun e => e.pkt.op.toNat == opControl && ctlType e.pkt == t) && !d.jnlFull &&
      match d.segHead with
      | some (q, fr, pkt) => q == 3 && ctlType pkt == t && (d.served q).permitted fr.src.toNat false && (d.served q).mayAssign pkt &&
          pktNum pkt 25 2 == (d.served q).get PWR_THAW_CFG.site_id
      | none => false) = true := by decide +kernel

/-! ### Witnesses: firmware, security, management, start-up -/

theorem meets_FirmwareCoreEventsTakeEffect :
    (up.coreState 18 = 0 ∧ (Tab.get (fun _ => []) (up.showRecent 18).fw.times 18).length < 3) ∧
    (let d := up.set (GLB_FW_CORE.state 18) 2
     let e := ((d.sets [(GLB_FW_CORE.state 18, 0), (GLB_FW_CORET.last_restart_us 18, 0xFFFF)]).setFw
       fun u => { u with begun := Tab.put (fun _ => 0) u.begun 18 0 }).coreBack 18
     (18 : CoreId).val ≠ 0 ∧ (d.coreState 18 = 1 ∨ d.coreState 18 = 2) ∧ d.fw.job = none ∧ d.fw.restarts = [] ∧ d.secRunning = true ∧
     e.fw.job = none ∧ e.fw.restarts = []) ∧
    (let d := (withBundle.setFw fun u => { u with stage := some .mgmt }).set GLB_FW_STAGE0.src 0x200000
     d.fw.stage = some .mgmt ∧ d.secFree = true ∧ localKind (d.get GLB_FW_STAGE0.src) = .hbm ∧
     d.get GLB_FW_STAGE0.src ≠ d.get MGT_STAGE.stage_base) := by decide +kernel

/-- One entry that no seal covers, a second ago. -/
def unsealedDev : Dev :=
  atNs (up.setJnl fun j => { j with
    entries := [{ seq := 0, time := 0, tick := 0, origin := 0, addrWord := 0, old := 0, new := 0, hash := 0 }] }) 1000000000

theorem meets_SecurityAndJournalEventsTakeEffect :
    (unsealedDev.sealTime = true ∧ unsealedDev.secRunning = true) ∧
    (let d := unsealedDev.set (GLB_FW_CORE.state 0) 1
     d.sealTime = true ∧ d.secRunning = false) ∧
    (let d := up.sets [(JNL_CFG.export_en, 1), (JNL_EXPORT_BASE.export_base, 0xE000000000)]
     d.flag JNL_CFG.export_en = true ∧ d.exportPlace = some (1, 0) ∧ d.untranslated 1 0 0 64 = false) ∧
    (let d := up.set SEC_STATUS.puf_ok 1
     d.flag (HIF_PORT_STATUS.link_up 0) = true ∧ d.flag SEC_STATUS.puf_ok = true ∧ d.secRunning = true) := by decide +kernel

theorem meets_ManagementMessagesTakeEffect_1_3_5_6 :
    [4, 5, 6].all (fun t =>
      (match (heard t []).takePacket opControl (some t) with
       | some (p, pkt, _) => p == 49 && pkt == control t []
       | none => false) && !(heard t []).jnlFull) = true ∧
    (let e : Nat × Nat × Packet := (5, 0x0123456789AB, control 4 [])
     let d := atNs (up.setMgt fun u => { u with delayed := [e] }) 5
     takeFirst (fun (e : Nat × Nat × Packet) => decide (e.1 ≤ d.clk.timeNs)) d.mgt.delayed = some (e, [])) := by decide +kernel

/-- A request frame of a type with a body, at the head of the highest queue; its sender is no peer. -/
def request (type : Nat) (body : List Byte) : Frame :=
  { dst := 0, src := 0x0123456789AB, tag := none, etype := BitVec.ofNat 16 (up.get MGT_CFG.mgmt_etype),
    payload := [1, BitVec.ofNat 8 type, 0, 0, 0, 0] ++ toBytes 2 body.length ++ body }
def asked (type : Nat) (body : List Byte) : Dev := (up.set MGT_CFG.mac_en 1).putRxq 3 [request type body]

theorem meets_ManagementMessagesTakeEffect_8_9_10 :
    [(1, toBytes 4 PWR_STATUS.off), (2, toBytes 8 PWR_TARGET.off ++ toBytes 8 1), (0x20, toBytes 9 0)].all (fun t =>
      let d := asked t.1 t.2
      match d.mgtHead with
      | some (k, fr) => k == 3 && fr.etype.toNat == d.get MGT_CFG.mgmt_etype && (d.served k).peerIndex fr.src.toNat == none &&
          (match readMsg fr.payload with
           | .ok m => m.type == t.1 &&
               (let e := if t.1 = 1 then (d.served k).regReadMsg m
                  else if t.1 = 2 then (d.served k).regWriteMsg false m else (d.served k).stageMsg false m
                let a := e.1.answerPeer (if t.1 = 0x20 then 0 else 2) fr.src.toNat e.2
                a.jnl.held.length == d.jnl.held.length && decide (d.jnl.held.length < 1024))
           | _ => false)
      | none => false) = true := by decide +kernel

/-- The same from peer 3, whose request with that sequence has been answered. -/
theorem meets_ManagementMessagesTakeEffect_8_9_10' :
    [(1, toBytes 4 PWR_STATUS.off), (2, toBytes 8 PWR_TARGET.off ++ toBytes 8 1), (0x20, toBytes 9 0)].all (fun t =>
      let d := ((asked t.1 t.2).sets [(MGT_PEER.valid 3, 1), (MGT_PEER.mac 3, 0x0123456789AB)]).setMgt fun u =>
        { u with kept := [(3, some (0, request t.1 t.2))] }
      match d.mgtHead with
      | some (k, fr) =>
          (match readMsg fr.payload with
           | .ok m => m.type == t.1 && (d.served k).peerIndex fr.src.toNat == some 3 &&
               (Tab.get (fun _ => none) (d.served k).mgt.kept 3).any (fun g => g.1 == m.seq)
           | _ => false)
      | none => false) = true := by decide +kernel

/-- A broadcast frame of a management message. -/
def bcast : Frame := { request 1 (List.replicate 44 0) with dst := 0xFFFFFFFFFFFF }

theorem meets_MacEventsTakeEffect :
    (let d := up.sets [(MGT_CFG.mac_en, 1), (MGT_RXSTEER.bcast_en, 1)]
     let e := d.incWrap MGT_RXCNT.frames_rx 1
     d.flag MGT_CFG.mac_en = true ∧ frameSizeOk bcast = true ∧ d.addrOk bcast.dst.toNat = true ∧
     bcast.etype.toNat = e.get MGT_CFG.mgmt_etype ∧ (e.rxq (e.steer bcast)).length < 16) ∧
    (let t : TxFrame := { frame := bcast, attempts := 14 }
     let d := (up.set MGT_CFG.mac_en 1).putTxq 3 [t]
     d.mayTransmit = true ∧ d.txHead = some (3, t) ∧
     (let e := d.setMgt fun u => { u with onAir := some (3, t) }
      e.mgt.onAir = some (3, t) ∧
      (((e.setMgt fun u => { u with onAir := none }).incSat MGT_TXCNT.collisions 1).emit .jam).get MGT_STATUS.state ≠ 2 ∧
      t.attempts + 1 < 16)) ∧
    ((up.setMgt fun u => { u with backoff := some 0 }).mgt.backoff = some 0) ∧
    (let d := up.sets [(MGT_CFG.mac_en, 1), (MGT_CFG.plca_en, 1), (MGT_PLCA.node_id, 254)]
     d.flag MGT_CFG.mac_en = true ∧ d.plcaOn = true ∧ d.get MGT_PLCA.node_id ≠ 0) ∧
    (let d := atNs (up.sets [(MGT_STATUS.state, 2), (MGT_PLCA.node_id, 254)]) 10000000
     d.get MGT_STATUS.state = 2 ∧ d.get MGT_PLCA.node_id ≠ 0 ∧ d.mgt.beaconNs + 10000000 ≤ d.clk.timeNs) := by decide +kernel

theorem meets_HostPortEventsTakeEffect :
    up.boot.released = true ∧ up.pcieUp.testBit 0 = true ∧ LossCause.hotReset ≠ .perst ∧ (1 : BitVec 64).toNat ≠ 0 := by decide +kernel

/-- A device in start-up step n. -/
def inStep (n : Nat) : Dev := { Dev.reset with boot := { Dev.reset.boot with released := true, step := n } }

theorem meets_StartUpAndResetEventsTakeEffect :
    Dev.reset.boot.released = false ∧
    (let d := atNs (inStep 5) 2000000
     d.boot.released = true ∧ d.flag GLB_STATUS.aclk_lock = false ∧ d.clk.resetNs + 2000000 ≤ d.clk.timeNs) ∧
    [8, 10].all (fun n => (inStep n).booting && (inStep n).boot.step == n && (inStep n).stepCanEnd n &&
      !((inStep n).stepDoes n 0 0).boot.halted && !(stopCauses n).contains 0) = true ∧
    (let d := ((inStep 5).set GLB_STATUS.aclk_lock 1)
     d.booting = true ∧ d.stepCanEnd 5 = true) ∧
    ((inStep 7).booting = true ∧ (inStep 7).boot.step = 7 ∧ (inStep 7).boot.hbmDone = false) ∧
    (up.boot.released = true ∧ up.pwr.trip = false) := by decide +kernel

/-! ### Witnesses: rules and frames -/

/-- An idle step before the next edge, and at it. -/
theorem meets_AnIdleStepPassesANanosecond :
    (State.mk up []).pending = [] ∧ up.clk.timeNs < up.clk.nextEdgeNs ∧
    (atNs up up.clk.nextEdgeNs).clk.nextEdgeNs ≤ (atNs up up.clk.nextEdgeNs).clk.timeNs := by decide +kernel

theorem meets_StepsKeepTheStateSound :
    ({ dev := Dev.reset.putBytes 0 [1], pending := [.registerWrite .mgmt 0 8 0] } : State).sound = true := by decide +kernel

/-- E4M3's largest number, its NaN, its smallest subnormal; an infinity of E5M2. -/
theorem meets_FloatEncodingsHaveTheirValues :
    (∃ p, Fmt.params .e4m3 = some p ∧ 15 < 2 ^ p.ew ∧ 6 < 2 ^ p.mw ∧ 15 * 2 ^ p.mw + 6 ≤ p.maxEnc ∧ p.maxEnc < 15 * 2 ^ p.mw + 7 ∧
      p.hasInf = false) ∧
    (∃ p, Fmt.params .e5m2 = some p ∧ p.maxEnc < 31 * 2 ^ p.mw + 0 ∧ p.hasInf = true) :=
  ⟨⟨_, rfl, by decide +kernel⟩, ⟨_, rfl, by decide +kernel⟩⟩

theorem meets_SplitPiecesSumToTheElement : 2 ^ 52 ≤ 2 ^ 53 - 1 ∧ 2 ^ 53 - 1 < 2 ^ 53 ∧ 2 ^ 23 ≤ 2 ^ 24 - 1 := by decide +kernel

/-- Bay 7's offset 0x1FFFFF lies in its one extent, and 0x200000 outside it. -/
theorem meets_TileOffsetsFollowTheExtentMap :
    Tab.get (fun _ => 0) (bay7.bayU 7).extMap (0x1FFFFF / 2 ^ 21) = 1 + 96 * 15 + 95 ∧ 95 < 96 ∧ 0x1FFFFF < 2 ^ 32 ∧
    Tab.get (fun _ => 0) (bay7.bayU 7).extMap (0x200000 / 2 ^ 21) = 0 := by decide +kernel

theorem meets_MisfitAccessesAreDiscardedAndCounted :
    pathOpen up .mgmt (PWR_TARGET.off + 4) = true ∧ (PWR_TARGET.off + 4) % 8 ≠ 0 ∧ (PWR_TARGET.off + 2) % 4 ≠ 0 ∧
    PWR_TARGET.off % 8 = 0 := by decide +kernel

/-- A register with a field of each access code. -/
theorem meets_RegisterFieldsFollowTheirAccessCodes :
    [(PWR_STATUS.off, Access.ro), (GLB_RESET.off, .wo), (PWR_TARGET.off, .rw), (PWR_EVENT.off, .w1c), (0x100010, .jw),
        (0x320020, .sw)].all
      (fun x => (match findReg x.1 with
        | some (r, _) => r.fields.any fun f => decide (f.acc = x.2)
        | none => false) && x.1 != JNL_HEAD.off && x.1 != JNL_EVENT.off && x.1 != GLB_BOOTINFO.off && x.1 != FAB_ID.off) = true := by
  decide +kernel

theorem meets_RefusedRequestsChangeNothingElse :
    pathOpen up .mgmt (AG_PEG_ADD.off 15) = true ∧
    (pathOpen up .mgmt (PWR_DOM.off 0) = true ∧
      let e := up.writeFields (viaOrigin .mgmt) (PWR_DOM.off 0) 0 8
        (insField (BitVec.ofNat 64 (1 : BitVec 2).toNat) 0 2 (up.get (PWR_DOM.req 0)))
      (1 : BitVec 2).toNat ≠ e.get (PWR_DOM.req 0) ∧ e.domainOk 0 1 = false) ∧
    bay7.doorbellBad 1 0 63 0 (bay7.sqSize 63) = true ∧ bay7.doorbellBad 1 0 63 0 (bay7.cqSize 63) = true ∧
    (let c := cmd 64 1 [(8, 7), (14, 1)]
     atFront (front bay7 c) 64 1 c = true ∧ (front bay7 c).bayState (c.num 8 1) ≠ bayEmpty) ∧
    (let c := cmd 64 2 [(8, 0)]
     atFront (front bay7 c) 64 2 c = true ∧ (front bay7 c).bayState c.bay = bayEmpty) ∧
    (let c := cmd 63 3 []
     let d := front (bay7.set TCK_PERIOD.period_us 50) c
     atFront d 63 3 c = true ∧ d.flag (SCH_CTX_CFG.en c.bay c.ctx) = true ∧ d.timingSuits c.bay = false) := by decide +kernel

/-! ### Results that the spec states -/

/-- The device that a command leaves. -/
def after (c : Instr) (d : Dev) : Dev :=
  match exec c { dev := d, pending := [] } with
  | .next s => s.dev
  | _ => d

/-- The worked encodings of spec/03_number_formats.md: (FP32 source, destination, encoding). -/
theorem test_workedEncodings :
    [(0xBE99999A, Fmt.bf16, 0xBE9A), (0xBE99999A, .e4m3, 0xAA), (0xBE99999A, .e2m1, 0x9), (0x447A0000, .fp16, 0x63D0),
     (0x447A0000, .e5m2, 0x64), (0x447A0000, .e4m3, 0x7E), (0x447A0000, .int8, 0x7F), (0xC47A0000, .int4, 0x8),
     (0x358637BD, .fp16, 0x0011), (0x7F800000, .e4m3, 0x7F), (0x7F800000, .e2m3, 0x1F), (0x7FC00000, .e3m2, 0x00),
     (0x415B3333, .e8m0, 0x82)].all (fun x => (x.2.1.encode .rne false (Fmt.decode .fp32 x.1)).1 == x.2.2) = true := by decide +kernel

/-- The example after R51: 1 + 2^-9 rounds up to BF16 exactly when u is at least 49,152. -/
theorem test_stochastic :
    [(.stoch 49151, 0x3F80), (.stoch 49152, 0x3F81), (RMode.rne, 0x3F80)].all
      (fun x => (Fmt.encode .bf16 x.1 false (Fmt.decode .fp32 0x3F804000)).1 == x.2) = true := by decide +kernel

/-- The example after R58: the scale of a block whose amax is 13.7, for E2M1, is 0x80. -/
theorem test_blockScale : blockScale .e2m1 ([0x415B3333, 0x40266666, 0xBE99999A].map (Fmt.decode .fp32)) = 0x80 := by decide +kernel

/-- The example after R94: the pieces of FP64 0.1. -/
theorem test_pieces :
    [pieceOf 2 1 (Fmt.decode .fp64 0x3FB999999999999A), pieceOf 2 2 (Fmt.decode .fp64 0x3FB999999999999A),
     pieceOf 2 3 (Fmt.decode .fp64 0x3FB999999999999A)] = [.fin false 0x33333 (-21), .fin false 0xCCCC (-39), .fin false 0x1999A (-56)] := by
  decide +kernel

/-- The example after R261: HBM offset 0x12345000 of a bay on channels 0 to 191 with 4 KiB interleave. -/
theorem test_interleave :
    let d := (up.putBay 0 { BayU.reset with chans := List.range 192 }).set (MEM_BAY_CFG.ilv 0) 2
    d.hbmLoc 0 0x12345000 = some (69 * 2 ^ 31 + 1589248) := by decide +kernel

/-- The example after R121: c = 1; at index i the threshold is i + 1, also across the wrap of the peg. -/
theorem test_pegThreshold : [(0, 1), (1, 2), (65535, 0)].all (fun x => pegOk 1 x.1 x.2) = true ∧ pegOk 1 1 1 = false := by decide +kernel

/-- The example after R322: an offset of +14 ns lies inside the 40 ns bound; with t4 60 ns earlier it would be +44 ns and outside. -/
theorem test_syncOffset :
    let pkt := control 3 [(28, 1000000000), (36, 1000000452), (44, 1000000812)]
    let d := delivered (synced fun u => { u with req := some (49, 1000000000) }) pkt
    (after (.syncResp 1000001236) d).fab.sync.outside = 0 ∧
    (after (.syncResp 1000001176) d).fab.sync.outside = 1 := by decide +kernel

/-- R21, R26: an edge raises the tick by one. -/
theorem test_tick : (up.nextTick.tick, up.tick) = (1, 0) := by decide +kernel

/-- R3: a misaligned write changes nothing and counts. -/
theorem test_badAccess :
    let d := after (.registerWrite .mgmt 0x2800002 4 7) up
    d.get GLB_BAD_ACCESS.count = 1 := by decide +kernel

/-- R151: 0x7FFFFFFF + 1 wraps on INT32 in every element. -/
theorem test_vAdd :
    let d := (running7 []).putVec 95 { VecU.reset with
      prog := [BitVec.ofNat 64 (1 + 3 * 2 ^ 8 + 1 * 2 ^ 13 + 2 * 2 ^ 18 + 9 * 2 ^ 32)], running := true,
      v := [(1, BitVec.ofNat 4096 (packElems 32 (List.replicate 128 0x7FFFFFFF))), (2, BitVec.ofNat 4096 (packElems 32 (List.replicate 128 1)))] }
    ((after (.vAdd 95 0) d).vecU 95).elem .int32 3 127 = 0x80000000 := by decide +kernel

/-- R143: a branch goes to the instruction's own index plus imm. -/
theorem test_vBne :
    let d := (running7 []).putVec 95 { VecU.reset with
      prog := [0, 0, BitVec.ofNat 64 (0x58 + 1 * 2 ^ 13 + 0xFFFE * 2 ^ 48)], running := true, pc := 2, s := [(1, 5)] }
    ((after (.vBne 95 0) d).vecU 95).pc = 0 := by decide +kernel

/-- R445: a COPY moves its bytes within the bay. -/
theorem test_copy :
    let c := cmd 63 4 [(8, 0), (16, 0x1FFFC0), (24, 64)]
    let d := front (bay7.putBayBytes 7 0 (List.replicate 64 0xA5)) c
    (after (.copy 63) d).bayByte 7 0x1FFFFF = 0xA5 := by decide +kernel

/-- R441, R443: the completion of a NOP carries its ID, the SQ head, OK and the phase; a vector is sent. -/
theorem test_nopCompletes :
    let d := front bay7 (cmd 63 0 [])
    let e := after (.nop 63) d
    e.hostBytes 0 (d.get (RQ.cqBase 63) * 64) 6 = [5, 0, 1, 0, 0, 1] ∧ e.out = [.msix 0 0 (d.get (RC.msix 63))] := by decide +kernel

/-- R191: STRIKE of an EMPTY bay has no effect and completes with OK. -/
theorem test_strikeEmpty :
    let c := cmd 64 2 [(8, 0)]
    let e := after (.strike 64) (front bay7 c)
    e.bayState 0 = bayEmpty ∧ e.hostBytes 0 4 1 = [0] := by decide +kernel

/-- R292: a WRITE packet stores its payload in the bay that holds its tag. -/
theorem test_writePacket :
    (after .write (delivered tagged7 (packet 0 0xFFF 0x1FFFFF [] [0xAB]))).bayByte 7 0x1FFFFF = 0xAB := by decide +kernel

/-- R123: a forwarded increment lands in its target, or is dropped and counted. -/
theorem test_forward :
    let f : PegFwd := { srcAg := 0, dstAg := 15, peg := 9, amount := 3, step8 := 0, bay := 7 }
    let d : Dev := { running7 [] with fwd := [f] }
    (after (.pegForwardLand 0 15) d).get (AG_PEG.value 15 9) = 3 ∧
    (after (.pegForwardLand 0 15) (d.set (SCH_BAY_STEPNO.step 7) 1)).get (AG_PEG_STATUS.stale_inc 15) = 1 := by decide +kernel

/-- R220: a clean gate decides RUN, one whose local flag is set SKIP. -/
theorem test_gate :
    (after (.gateDecision 7) gateDev).get (SCH_BAY_TRAIN.gate 7) = 2 ∧
    (after (.gateDecision 7) (gateDev.set (SCH_BAY_VFLAG.nonfinite 7) 1)).get (SCH_BAY_TRAIN.gate 7) = 3 := by decide +kernel

/-- R299: the last heartbeat 8,050 ns ago declares the peer dead; 8,049 ns ago does not. -/
theorem test_peerDead :
    let d := port49With psActive fun u => { u with hbNs := some 991950 }
    (after (.peerDead 49 none) d).flag (FABP_STATUS.dead 49) = true ∧
    (after (.peerDead 49 none) (atNs d 999999)).flag (FABP_STATUS.dead 49) = false := by decide +kernel

/-- An empty queue idles; a command that cannot act leaves the device alone. -/
theorem test_idle :
    (match step { dev := Dev.reset, pending := [] } with
     | .next s => s.dev.clk.timeNs == 1
     | _ => false) = true ∧ after (.passComplete 0) up = up := by decide +kernel

end Sys2Proof.Tests
end

section
/-! Register accesses that do not fit a register (R3): the reading rules of the register table, of the refusal count and of the
register path, and the obligation about them. -/

namespace Sys2Proof.Machine

open Sys2Proof.Claims

/-! ### Registers lie at multiples of 8 bytes -/

/-- The base of a register array and all its strides are multiples of 8 bytes. -/
def RegDef.aligned (r : RegDef) : Bool := decide (8 ∣ r.base) && r.dims.all fun p => decide (8 ∣ p.1)

theorem RegDef.aligned_iff (r : RegDef) : r.aligned = true ↔ 8 ∣ r.base ∧ ∀ p ∈ r.dims, 8 ∣ p.1 := by
  simp [RegDef.aligned]

/-- Every block's register table (R19) is laid out in multiples of 8 bytes. -/
theorem regTableOf_aligned (off : Nat) : (regTableOf off).all RegDef.aligned = true := by
  fun_cases regTableOf off
  all_goals decide +kernel

/-- An element of an array whose strides are multiples of 8 lies a multiple of 8 behind the first one. -/
theorem dvd_of_matchDims_eq_some {ds : List (Nat × Nat)} (hds : ∀ p ∈ ds, 8 ∣ p.1) :
    ∀ {rem : Nat} {ix : List Nat}, matchDims ds rem = some ix → 8 ∣ rem := by
  induction ds with
  | nil =>
    intro rem ix h
    rw [matchDims] at h
    split at h
    case isTrue hzero => exact hzero ▸ dvd_zero 8
    case isFalse => cases h
  | cons p ds ih =>
    obtain ⟨stride, count⟩ := p
    intro rem ix h
    rw [matchDims] at h
    split at h
    case isTrue =>
      obtain ⟨ix', h', -⟩ := Option.map_eq_some_iff.mp h
      have hmod : 8 ∣ rem % stride := ih (fun q hq => hds q (.tail _ hq)) h'
      exact (Nat.dvd_mod_iff (hds _ (.head _))).mp hmod
    case isFalse => cases h

theorem dvd_of_findReg_eq_some {off : Nat} {x : RegDef × List Nat} (h : findReg off = some x) : 8 ∣ off := by
  obtain ⟨r, hr, hx⟩ := List.exists_of_findSome?_eq_some h
  obtain ⟨hbase, hdims⟩ := r.aligned_iff.mp (List.all_eq_true.mp (regTableOf_aligned off) r hr)
  split at hx
  case isTrue hle =>
    obtain ⟨ix, hix, -⟩ := Option.map_eq_some_iff.mp hx
    have hrest : 8 ∣ off - r.base := dvd_of_matchDims_eq_some hdims hix
    exact (Nat.dvd_sub_iff_left hle hbase).mp hrest
  case isFalse => cases hx

/-! ### The count of refused accesses -/

variable (d : Dev)

/-- A refused access is four field updates of GLB_BAD_ACCESS. -/
theorem Dev.badAccess_eq_sets (via : Via) (off : Nat) (w : Bool) :
    ∃ o, d.badAccess via off w =
      d.sets [(GLB_BAD_ACCESS.count, min (d.get GLB_BAD_ACCESS.count + 1) (2 ^ 32 - 1)), (GLB_BAD_ACCESS.last_offset, off),
        (GLB_BAD_ACCESS.last_write, w.toNat), (GLB_BAD_ACCESS.last_origin, o)] :=
  ⟨_, rfl⟩

theorem Dev.badAccess_count (via : Via) (off : Nat) (w : Bool) :
    (d.badAccess via off w).get GLB_BAD_ACCESS.count = min (d.get GLB_BAD_ACCESS.count + 1) (2 ^ 32 - 1) := by
  obtain ⟨o, h⟩ := d.badAccess_eq_sets via off w
  have hlt : min (d.get GLB_BAD_ACCESS.count + 1) (2 ^ 32 - 1) < 2 ^ 32 := by omega
  simp only [h, Dev.sets_cons, Dev.sets_nil]
  rw [Dev.get_set_field _ GLB_BAD_ACCESS.last_origin GLB_BAD_ACCESS.count _ rfl (by decide) (by decide),
    Dev.get_set_field _ GLB_BAD_ACCESS.last_write GLB_BAD_ACCESS.count _ rfl (by decide) (by decide),
    Dev.get_set_field _ GLB_BAD_ACCESS.last_offset GLB_BAD_ACCESS.count _ rfl (by decide) (by decide),
    Dev.get_set_same _ _ _ (by decide)]
  exact Nat.mod_eq_of_lt hlt

theorem Dev.badAccess_frame (via : Via) (off : Nat) (w : Bool) :
    d.badAccess via off w = { d with regs := (d.badAccess via off w).regs } := by
  obtain ⟨o, h⟩ := d.badAccess_eq_sets via off w
  obtain ⟨r, hr⟩ := Dev.sets_frame d _
  rw [h, hr]

theorem Dev.rd_badAccess_other (via : Via) (off : Nat) (w : Bool) {off' : Nat} (h : off' ≠ GLB_BAD_ACCESS.off) :
    (d.badAccess via off w).rd off' = d.rd off' := by
  obtain ⟨o, ho⟩ := d.badAccess_eq_sets via off w
  rw [ho]
  refine Dev.rd_sets_other _ _ _ fun p hp => ?_
  have hoff : p.1.off = GLB_BAD_ACCESS.off := by
    simp only [List.mem_cons, List.not_mem_nil, or_false] at hp
    rcases hp with rfl | rfl | rfl | rfl <;> rfl
  exact hoff ▸ h.symm

/-! ### The register path -/

/-- The test of the register path for size and alignment (R3). -/
theorem misfit_iff (off size : Nat) :
    (!((size == 4 || size == 8) && off % size == 0)) = true ↔ (size = 4 ∨ size = 8 → off % size ≠ 0) := by
  simp [imp_iff_not_or]

/-- On an open path an operation takes effect at once. -/
theorem Dev.throughPath_of_pathOpen {via : Via} {off : Nat} (h : pathOpen d via off = true) (size value : Nat) (f : Dev → Dev) :
    d.throughPath via off size value f = f d := by
  simp only [pathOpen, Bool.and_eq_true, Bool.not_eq_true'] at h
  obtain ⟨⟨⟨hready, hreach⟩, hroom⟩, hheld⟩ := h
  simp [Dev.throughPath, Dev.orHold, hready, hreach, hroom, hheld]

theorem Dev.regEffect_of_misfit (via : Via) {off size : Nat} (value : Nat) (h : size = 4 ∨ size = 8 → off % size ≠ 0) :
    d.regEffect via off size value = d.badAccess via off true := by
  simp [Dev.regEffect, (misfit_iff off size).mpr h]

theorem Dev.regWrite_of_misfit {via : Via} {off size : Nat} (value : Nat) (hopen : pathOpen d via off = true)
    (h : size = 4 ∨ size = 8 → off % size ≠ 0) : d.regWrite via off size value = d.badAccess via off true := by
  rw [Dev.regWrite, d.throughPath_of_pathOpen hopen, d.regEffect_of_misfit via value h]

theorem exec_registerWrite (via : Via) (off : BitVec 26) (size : Nat) (v : Reg64) (s : State) :
    exec (.registerWrite via off size v) s = .next { s with dev := s.dev.regWrite via off.toNat size v.toNat } := rfl

/-- A misfit write counts and does nothing else (R3). -/
theorem answers_registerWrite_of_misfit {via : Via} {off : BitVec 26} {size : Nat} (v : Reg64) {s : State}
    (hopen : pathOpen s.dev via off.toNat = true) (h : size = 4 ∨ size = 8 → off.toNat % size ≠ 0) :
    Answers (.registerWrite via off size v) s (s.dev.badAccess via off.toNat true) := by
  rw [Answers, exec_registerWrite, s.dev.regWrite_of_misfit v.toNat hopen h]

theorem Dev.regRead_of_misfit (via : Via) {off size : Nat} (h : size = 4 ∨ size = 8 → off % size ≠ 0) :
    d.regRead via off size = (2 ^ (8 * size) - 1, d.badAccess via off false) := by
  rw [Dev.regRead, if_pos ((misfit_iff off size).mpr h)]

/-- A fitting read gives its bytes of the register's word, with JNL_STATUS as it stands. -/
theorem Dev.regRead_of_fit (via : Via) {off size : Nat} (hsize : size = 4 ∨ size = 8) (halign : off % size = 0) :
    d.regRead via off size =
      (fieldOf (d.jnlShow.readWord via (off - off % 8)) (8 * (off % 8)) (8 * size), d.jnlShow) := by
  rw [Dev.regRead, if_neg]
  rw [misfit_iff]
  exact fun h => h hsize halign

theorem fieldOf_full (v : Reg64) : fieldOf v 0 64 = v.toNat := Nat.mod_eq_of_lt v.isLt

/-- A word is its low half and its high half. -/
theorem toNat_eq_halves (v : Reg64) : v.toNat = fieldOf v 0 32 + 2 ^ 32 * fieldOf v 32 32 := by
  have hv : v.toNat < 2 ^ 64 := v.isLt
  simp only [fieldOf, Nat.shiftRight_eq_div_pow]
  omega

section
variable {off : Nat} (via : Via) (h8 : off % 8 = 0)
include h8

theorem Dev.regRead_word : (d.regRead via off 8).1 = (d.jnlShow.readWord via off).toNat := by
  rw [d.regRead_of_fit via (.inr rfl) h8, h8]
  exact fieldOf_full _

theorem Dev.regRead_low : (d.regRead via off 4).1 = fieldOf (d.jnlShow.readWord via off) 0 32 := by
  rw [d.regRead_of_fit via (.inl rfl) (by omega), h8]
  rfl

theorem Dev.regRead_high : (d.regRead via (off + 4) 4).1 = fieldOf (d.jnlShow.readWord via off) 32 32 := by
  have hbyte : (off + 4) % 8 = 4 := by omega
  rw [d.regRead_of_fit via (.inl rfl) (by omega), hbyte, Nat.add_sub_cancel]

end

end Sys2Proof.Machine

namespace Sys2Proof.Proofs

open Sys2Proof.Machine

/-- Settles O58: every register table is aligned, the path's size test is decided before anything else, and a refused access
is field updates of GLB_BAD_ACCESS alone (R3). -/
theorem misfitAccessesAreDiscardedAndCounted : Obligations.MisfitAccessesAreDiscardedAndCounted := by
  unfold Obligations.MisfitAccessesAreDiscardedAndCounted
  refine ⟨fun off h => ?_, fun via off size v s hopen h => answers_registerWrite_of_misfit v hopen h,
    fun d via off size h => d.regRead_of_misfit via h,
    fun d via off w => ⟨d.badAccess_count via off w, d.badAccess_frame via off w, fun o ho => d.rd_badAccess_other via off w ho⟩,
    fun d via off h8 => ⟨d.regRead_word via h8, ?_⟩⟩
  · obtain ⟨x, hx⟩ := Option.isSome_iff_exists.mp h
    exact Nat.mod_eq_zero_of_dvd (dvd_of_findReg_eq_some hx)
  · rw [d.regRead_word via h8, d.regRead_low via h8, d.regRead_high via h8]
    exact toNat_eq_halves _

end Sys2Proof.Proofs
end

section
/-! Encodings of float formats by their fields (R42, R43): the reading rules of an encoding put together from sign, exponent and
significand fields, the value of each kind of encoding, and the obligation about them. -/

namespace Sys2Proof.Machine

/-- A float format has its encodings decoded by its parameters. -/
theorem Fmt.decode_of_params {f : Fmt} {p : FloatParams} (h : f.params = some p) (bits : Nat) (table : List Nat) :
    f.decode bits table = p.decode bits := by
  unfold Fmt.decode
  split
  case h_1 => cases h
  case h_2 => cases h
  case h_3 => rw [h]

/-- The largest finite number of every float format is normal (R43), so no subnormal encoding lies above it. -/
theorem Fmt.two_pow_mw_le_maxEnc {f : Fmt} {p : FloatParams} (h : f.params = some p) : 2 ^ p.mw ≤ p.maxEnc := by
  cases f
  all_goals cases h
  all_goals decide

namespace FloatParams

variable (p : FloatParams) (s : Bool) {e m : Nat}

/-- The encoding with the given fields, laid out sign first, then exponent, then significand (R42). -/
def ofFields (e m : Nat) : Nat := s.toNat * 2 ^ (p.ew + p.mw) + e * 2 ^ p.mw + m

/-! ### The fields of an encoding -/

section
variable (hm : m < 2 ^ p.mw)
include hm

theorem magnitude_div : (e * 2 ^ p.mw + m) / 2 ^ p.mw = e := by
  rw [Nat.mul_comm, Nat.mul_add_div (Nat.two_pow_pos _), Nat.div_eq_of_lt hm, Nat.add_zero]

variable (he : e < 2 ^ p.ew)
include he

theorem magnitude_lt : e * 2 ^ p.mw + m < 2 ^ (p.ew + p.mw) :=
  calc e * 2 ^ p.mw + m < (e + 1) * 2 ^ p.mw := by rw [Nat.succ_mul]; omega
    _ ≤ 2 ^ p.ew * 2 ^ p.mw := Nat.mul_le_mul_right _ he
    _ = 2 ^ (p.ew + p.mw) := (Nat.pow_add ..).symm

theorem ofFields_mod : p.ofFields s e m % 2 ^ (p.ew + p.mw) = e * 2 ^ p.mw + m := by
  rw [ofFields, Nat.add_assoc, Nat.mul_add_mod', Nat.mod_eq_of_lt (p.magnitude_lt hm he)]

theorem testBit_ofFields : (p.ofFields s e m).testBit (p.ew + p.mw) = s := by
  rw [ofFields, Nat.add_assoc, Nat.mul_comm, Nat.testBit_two_pow_mul_add _ (p.magnitude_lt hm he)]
  cases s <;> simp

/-! ### The value of an encoding -/

/-- The decoder's choice among the kinds of encodings, in terms of the fields. -/
theorem decode_ofFields : p.decode (p.ofFields s e m) =
    if p.maxEnc < e * 2 ^ p.mw + m then
      if p.hasInf && m == 0 then .inf s
      else if p.mw == 52 || p.mw == 23 then .nan s (m * 2 ^ (52 - p.mw)) else .nan s (2 ^ 51)
    else if e = 0 then .fin s m (1 - (p.bias : Int) - p.mw) else .fin s (2 ^ p.mw + m) ((e : Int) - p.bias - p.mw) := by
  simp only [decode, p.ofFields_mod s hm he, p.testBit_ofFields s hm he, p.magnitude_div hm, Nat.mul_add_mod_of_lt hm, gt_iff_lt]

theorem decode_ofFields_subnormal (h0 : e = 0) (hle : e * 2 ^ p.mw + m ≤ p.maxEnc) :
    p.decode (p.ofFields s e m) = .fin s m (1 - (p.bias : Int) - p.mw) := by
  rw [p.decode_ofFields s hm he, if_neg (Nat.not_lt.mpr hle), if_pos h0]

theorem decode_ofFields_normal (h0 : e ≠ 0) (hle : e * 2 ^ p.mw + m ≤ p.maxEnc) :
    p.decode (p.ofFields s e m) = .fin s (2 ^ p.mw + m) ((e : Int) - p.bias - p.mw) := by
  rw [p.decode_ofFields s hm he, if_neg (Nat.not_lt.mpr hle), if_neg h0]

theorem decode_ofFields_inf (hgt : p.maxEnc < e * 2 ^ p.mw + m) (hinf : p.hasInf = true) (h0 : m = 0) :
    p.decode (p.ofFields s e m) = .inf s := by
  rw [p.decode_ofFields s hm he, if_pos hgt, if_pos (by simp [hinf, h0])]

theorem isNaN_decode_ofFields (hgt : p.maxEnc < e * 2 ^ p.mw + m) (hnot : ¬(p.hasInf = true ∧ m = 0)) :
    (p.decode (p.ofFields s e m)).isNaN = true := by
  rw [p.decode_ofFields s hm he, if_pos hgt, if_neg (by simpa using hnot)]
  split <;> rfl

end

end FloatParams

end Sys2Proof.Machine

namespace Sys2Proof.Proofs

open Sys2Proof.Machine

/-- Settles O54: the encoding's fields are read back as they were put together, and the kind of the encoding picks the branch of
the decoder (R42, R43). -/
theorem floatEncodingsHaveTheirValues : Obligations.FloatEncodingsHaveTheirValues := by
  unfold Obligations.FloatEncodingsHaveTheirValues
  intro f p s e m hp he hm
  have hsub : e = 0 → e * 2 ^ p.mw + m ≤ p.maxEnc := by
    rintro rfl
    have hmax : 2 ^ p.mw ≤ p.maxEnc := Fmt.two_pow_mw_le_maxEnc hp
    omega
  simp only [Fmt.decode_of_params hp]
  exact ⟨fun h0 => p.decode_ofFields_subnormal s hm he h0 (hsub h0), p.decode_ofFields_normal s hm he,
    p.decode_ofFields_inf s hm he, p.isNaN_decode_ofFields s hm he⟩

end Sys2Proof.Proofs
end

section
/-! Pieces of the elements of a split pass (R94, R95): the equations of the cut, one per split value and piece, the sum of the
significand ranges, and the obligation about them. -/

namespace Sys2Proof.Machine

/-! ### The equations of the cut

The significand alone decides whether an element is normal; the split value and the piece then reduce to one branch. -/

variable (s : Bool) {m : Nat} (i : Nat) (e : Int)

theorem pieceOf_fp64_subnormal (hm : m < 2 ^ 52) : pieceOf 2 i (.fin s m e) = .fin s 0 0 :=
  if_pos hm

theorem pieceOf_fp32_subnormal (hm : m < 2 ^ 23) : pieceOf 1 i (.fin s m e) = .fin s 0 0 :=
  if_pos hm

section
variable (hm : 2 ^ 52 ≤ m)
include hm

theorem pieceOf_fp64_one : pieceOf 2 1 (.fin s m e) = .fin s (m / 2 ^ 35) (e + 35) := by
  rw [← Nat.shiftRight_eq_div_pow]
  exact if_neg (Nat.not_lt.mpr hm)

theorem pieceOf_fp64_two : pieceOf 2 2 (.fin s m e) = .fin s (m / 2 ^ 17 % 2 ^ 18) (e + 17) := by
  rw [← Nat.shiftRight_eq_div_pow]
  exact if_neg (Nat.not_lt.mpr hm)

theorem pieceOf_fp64_three : pieceOf 2 3 (.fin s m e) = .fin s (m % 2 ^ 17) e :=
  if_neg (Nat.not_lt.mpr hm)

end

section
variable (hm : 2 ^ 23 ≤ m)
include hm

theorem pieceOf_fp32_one : pieceOf 1 1 (.fin s m e) = .fin s (m / 2 ^ 6) (e + 6) := by
  rw [← Nat.shiftRight_eq_div_pow]
  exact if_neg (Nat.not_lt.mpr hm)

theorem pieceOf_fp32_two : pieceOf 1 2 (.fin s m e) = .fin s (m % 2 ^ 6) e :=
  if_neg (Nat.not_lt.mpr hm)

end

/-! ### The sum of the pieces -/

/-- Adjacent bit ranges of a significand sum to it: the low a bits, the b bits above them, and the rest. -/
theorem sum_of_bit_ranges (m a b : Nat) : m / 2 ^ (a + b) * 2 ^ (a + b) + m / 2 ^ a % 2 ^ b * 2 ^ a + m % 2 ^ a = m :=
  calc m / 2 ^ (a + b) * 2 ^ (a + b) + m / 2 ^ a % 2 ^ b * 2 ^ a + m % 2 ^ a
    _ = (m / 2 ^ a / 2 ^ b * 2 ^ b + m / 2 ^ a % 2 ^ b) * 2 ^ a + m % 2 ^ a := by
      rw [Nat.div_div_eq_div_mul, ← Nat.pow_add]; ring
    _ = m / 2 ^ a * 2 ^ a + m % 2 ^ a := by rw [Nat.div_add_mod']
    _ = m := Nat.div_add_mod' ..

end Sys2Proof.Machine

namespace Sys2Proof.Proofs

open Sys2Proof.Machine

/-- Settles O55: each piece is a bit range of the significand at the exponent of its lowest bit, and adjacent bit ranges sum to
the whole (R94, R95). -/
theorem splitPiecesSumToTheElement : Obligations.SplitPiecesSumToTheElement := by
  unfold Obligations.SplitPiecesSumToTheElement
  refine ⟨fun s m e hmin hmax => ?fp64, fun s m e hmin hmax => ?fp32,
    fun s m i e => ⟨pieceOf_fp64_subnormal s i e, pieceOf_fp32_subnormal s i e⟩⟩
  case fp64 =>
    have htop : m / 2 ^ 35 < 2 ^ 18 := Nat.div_lt_of_lt_mul hmax
    exact ⟨pieceOf_fp64_one s e hmin, pieceOf_fp64_two s e hmin, pieceOf_fp64_three s e hmin, htop, sum_of_bit_ranges m 17 18⟩
  case fp32 =>
    have htop : m / 2 ^ 6 < 2 ^ 18 := Nat.div_lt_of_lt_mul hmax
    exact ⟨pieceOf_fp32_one s e hmin, pieceOf_fp32_two s e hmin, htop, Nat.div_add_mod' ..⟩

end Sys2Proof.Proofs
end

section
/-! Tile-memory offsets (R111): the reading rules of an extent-map entry and of the translation of an offset, and the obligation
about them. -/

namespace Sys2Proof.Machine

/-! ### The coding of an extent-map entry -/

theorem entry_ag {g e : Nat} (he : e < 96) : (1 + 96 * g + e - 1) / 96 = g := by
  omega

theorem entry_extent {g e : Nat} (he : e < 96) : (1 + 96 * g + e - 1) % 96 = e := by
  omega

theorem extentBase_eq (g e : Nat) : extentBase g e = 0x8000000000 + g * 0xC000000 + e * 0x200000 := by
  rw [extentBase, tileBase, Nat.mul_comm 0xC000000, Nat.mul_comm 0x200000]

/-! ### The translation of an offset -/

namespace Dev

variable (d : Dev) (b : Nat) {off : Nat}

/-- The entry of the bay's extent map that bits [31:21] of an offset select (R111). -/
def extEntry (off : Nat) : Nat := Tab.get (fun _ => 0) (d.bayU b).extMap (off / 2 ^ 21)

/-- The first 4 GiB of a bay's virtual addresses are its tile-memory offsets. -/
theorem xlate_of_lt (hoff : off < 2 ^ 32) : d.xlate b off = (d.tileLoc b off).map Loc.loc :=
  if_pos hoff

theorem tileLoc_of_entry_eq_zero (h : d.extEntry b off = 0) : d.tileLoc b off = none := by
  change Tab.get _ _ (off / 0x200000) = 0 at h
  simp [tileLoc, h]

theorem tileLoc_of_entry_pos (hoff : off < 2 ^ 32) (h : 0 < d.extEntry b off) :
    d.tileLoc b off =
      some (extentBase ((d.extEntry b off - 1) / 96) ((d.extEntry b off - 1) % 96) + off % 2 ^ 21) :=
  if_pos (by rw [decide_eq_true hoff, Bool.true_and]; exact decide_eq_true h)

/-- The entry of extent e of AG g leads into that extent. -/
theorem tileLoc_of_entry_eq (hoff : off < 2 ^ 32) {g e : Nat} (he : e < 96) (h : d.extEntry b off = 1 + 96 * g + e) :
    d.tileLoc b off = some (extentBase g e + off % 2 ^ 21) := by
  have hpos : 0 < d.extEntry b off := by omega
  rw [d.tileLoc_of_entry_pos b hoff hpos, h, entry_ag he, entry_extent he]

end Dev

end Sys2Proof.Machine

namespace Sys2Proof.Proofs

open Sys2Proof.Machine

/-- Settles O57: an offset below 2^32 is translated by its extent-map entry alone, and the entry's coding 1 + 96g + e gives back
AG and extent (R111). -/
theorem tileOffsetsFollowTheExtentMap : Obligations.TileOffsetsFollowTheExtentMap := by
  unfold Obligations.TileOffsetsFollowTheExtentMap
  intro d b off hoff
  rw [d.xlate_of_lt b hoff]
  refine ⟨fun habsent => ?absent, fun g e he hentry => ?named⟩
  case absent => rw [d.tileLoc_of_entry_eq_zero b habsent, Option.map_none]
  case named => rw [d.tileLoc_of_entry_eq b hoff he hentry, Option.map_some, extentBase_eq]

end Sys2Proof.Proofs
end

section
/-! ## Memories: what each operation does to them

Of every operation of the model: `…_mem` where it leaves the memories of the device and of both hosts alone, `…_wf` where it
writes them and keeps their canonical form (log entry 3). In the order of the model's text. -/
namespace Sys2Proof.Machine

/-- A device whose memories are those of a device in canonical form is in canonical form. -/
theorem Dev.wf_of_mem_eq {d e : Dev} (he : e.mem = d.mem) (h : d.mem.wf = true) : e.mem.wf = true := he ▸ h

/-- Bytes of the local memory that are dropped leave it canonical. -/
theorem Mems.wf_filterLoc {m : Mems} (h : m.wf = true) (p : Nat × Byte → Bool) : ({ m with loc := m.loc.filter p } : Mems).wf = true := by
  simp only [Mems.wf, Bool.and_eq_true] at h ⊢
  obtain ⟨⟨hl, ha⟩, hb⟩ := h
  exact ⟨⟨Memory.wf_filter _ _ hl, ha⟩, hb⟩

/-- A host memory beside an empty local one stays canonical. -/
theorem Mems.wf_emptyLoc {m : Mems} (h : m.wf = true) : ({ m with loc := [] } : Mems).wf = true := by
  simp only [Mems.wf, Bool.and_eq_true] at h ⊢
  obtain ⟨⟨_, ha⟩, hb⟩ := h
  exact ⟨⟨rfl, ha⟩, hb⟩

/-! ### State and registers -/

@[simp] theorem Dev.incSat_mem (d : Dev) (f : RF) (n : Nat) : (d.incSat f n).mem = d.mem := by
  simp only [Dev.incSat, Dev.set_mem]

@[simp] theorem Dev.incWrap_mem (d : Dev) (f : RF) (n : Nat) : (d.incWrap f n).mem = d.mem := by
  simp only [Dev.incWrap, Dev.set_mem]

@[simp] theorem Dev.sets_mem (d : Dev) (l : List (RF × Nat)) : (d.sets l).mem = d.mem := by
  simp only [Dev.sets]
  refine (Dev.foldl_mem _ (fun d x => ?_) _ _).trans ?_
  · simp only [Dev.set_mem]
  · rfl

@[simp] theorem Dev.setBit_mem (d : Dev) (f : RF) (b : Nat) : (d.setBit f b).mem = d.mem := by
  simp only [Dev.setBit, Dev.set_mem]

@[simp] theorem Dev.clearBit_mem (d : Dev) (f : RF) (b : Nat) : (d.clearBit f b).mem = d.mem := by
  simp only [Dev.clearBit, Dev.set_mem, Dev.ite_mem, ite_self]

@[simp] theorem Dev.resetReg_mem (d : Dev) (off : Nat) : (d.resetReg off).mem = d.mem := by
  simp only [Dev.resetReg, Dev.wr_mem]

@[simp] theorem Dev.resetField_mem (d : Dev) (f : RF) : (d.resetField f).mem = d.mem := by
  simp only [Dev.resetField, Dev.set_mem]

@[simp] theorem Dev.fresh_mem (d : Dev) : d.fresh.2.mem = d.mem := rfl

@[simp] theorem Dev.setTime_mem (d : Dev) (ns : Nat) : (d.setTime ns).mem = d.mem := by
  simp only [Dev.setTime, Dev.set_mem]

@[simp] theorem Dev.idle_mem (d : Dev) : (d.idle).mem = d.mem := by
  simp only [Dev.idle, Dev.setTime_mem, Dev.ite_mem, ite_self]

@[simp] theorem Dev.jnlAppend_mem (d : Dev) (origin addrW old new : Nat) : (d.jnlAppend origin addrW old new).mem = d.mem := by
  simp only [Dev.jnlAppend, Dev.set_mem, Dev.ite_mem, ite_self]

@[simp] theorem Dev.jnlChange_mem (d : Dev) (origin off : Nat) (joint : Nat) (old new : Reg64) : (d.jnlChange origin off joint old new).mem = d.mem := by
  simp only [Dev.jnlChange, Dev.jnlAppend_mem]

@[simp] theorem Dev.jnlRefused_mem (d : Dev) (origin off : Nat) (joint : Nat) (old new : Reg64) : (d.jnlRefused origin off joint old new).mem = d.mem := by
  simp only [Dev.jnlRefused, Dev.jnlAppend_mem]

@[simp] theorem Dev.jnlEvent_mem (d : Dev) (origin code addr detail : Nat) (merged : Nat) : (d.jnlEvent origin code addr detail merged).mem = d.mem := by
  simp only [Dev.jnlEvent, Dev.jnlAppend_mem]

@[simp] theorem Dev.jnlEventAfter_mem (d : Dev) (origin code addr detail : Nat) : (d.jnlEventAfter origin code addr detail).mem = d.mem := by
  simp only [Dev.jnlEventAfter, Dev.jnlEvent_mem, Dev.ite_mem, ite_self]

@[simp] theorem Dev.wrJ_mem (d : Dev) (origin off : Nat) (v : Reg64) : (d.wrJ origin off v).mem = d.mem := by
  simp only [Dev.wrJ, Dev.jnlChange_mem, Dev.wr_mem, Dev.ite_mem, ite_self]

@[simp] theorem Dev.setJ_mem (d : Dev) (origin : Nat) (f : RF) (n : Nat) : (d.setJ origin f n).mem = d.mem := by
  simp only [Dev.setJ, Dev.wrJ_mem]

@[simp] theorem Dev.badAccess_mem (d : Dev) (via : Via) (off : Nat) (isWrite : Bool) : (d.badAccess via off isWrite).mem = d.mem := by
  simp only [Dev.badAccess, Dev.set_mem, Dev.incSat_mem]

@[simp] theorem Dev.moveDomain_mem (d : Dev) (origin dom st : Nat) : (d.moveDomain origin dom st).mem = d.mem := by
  simp only [Dev.moveDomain, Dev.wrJ_mem]

/-! ### The address space (chapter 1) -/

theorem Dev.putCipher_wf {d : Dev} (h : d.mem.wf = true) (k a : Nat) (v : Byte) : (d.putCipher k a v).mem.wf = true := by
  simp only [Dev.putCipher]
  exact Dev.putBytes_wf _ _ _ h

/-! ### Pegs (chapter 6) -/

@[simp] theorem Dev.addPeg_mem (d : Dev) (n p amount cause : Nat) : (d.addPeg n p amount cause).mem = d.mem := by
  simp only [Dev.addPeg, Dev.putAg_mem, Dev.incWrap_mem]

@[simp] theorem Dev.incPeg_mem (d : Dev) (n p amount cause : Nat) : (d.incPeg n p amount cause).mem = d.mem := by
  simp only [Dev.incPeg, Dev.addPeg_mem]

@[simp] theorem Dev.pegForwardLand_mem (d : Dev) (src dst : Nat) : (d.pegForwardLand src dst).mem = d.mem := by
  simp only [Dev.pegForwardLand]
  split <;> simp only [Dev.addPeg_mem, Dev.incSat_mem, Dev.ite_mem, ite_self]

@[simp] theorem Dev.tickPegIncrement_mem (d : Dev) (n : Nat) : (d.tickPegIncrement n).mem = d.mem := by
  simp only [Dev.tickPegIncrement, Dev.incPeg_mem, Dev.putAg_mem, Dev.ite_mem, ite_self]

@[simp] theorem Dev.pegAdd_mem (d : Dev) (origin n peg amount : Nat) : (d.pegAdd origin n peg amount).mem = d.mem := by
  simp only [Dev.pegAdd, Dev.jnlRefused_mem, Dev.jnlChange_mem, Dev.incPeg_mem, Dev.ite_mem, ite_self]

/-! ### Joints (chapter 8) -/

@[simp] theorem Dev.setShadow_mem (d : Dev) (off lo w n origin : Nat) : (d.setShadow off lo w n origin).mem = d.mem := by
  simp only [Dev.setShadow]

@[simp] theorem Dev.dropShadows_mem (d : Dev) (blk id : Nat) : (d.dropShadows blk id).mem = d.mem := by
  simp only [Dev.dropShadows]

@[simp] theorem Dev.unarm_mem (d : Dev) (blk id : Nat) : (d.unarm blk id).mem = d.mem := by
  simp only [Dev.unarm]

@[simp] theorem Dev.refreshArmed_mem (d : Dev) (blk : Nat) : (d.refreshArmed blk).mem = d.mem := by
  simp only [Dev.refreshArmed]
  split
  · refine (Dev.foldl_mem _ (fun d x => ?_) _ _).trans ?_
    · simp only [Dev.set_mem]
    · refine (Dev.foldl_mem _ (fun d x => ?_) _ _).trans ?_
      · simp only [Dev.set_mem]
      · refine (Dev.foldl_mem _ (fun d x => ?_) _ _).trans ?_
        · simp only [Dev.wr_mem]
        · simp only [Dev.set_mem]
  · refine (Dev.foldl_mem _ (fun d x => ?_) _ _).trans ?_
    · simp only [Dev.set_mem]
    · refine (Dev.foldl_mem _ (fun d x => ?_) _ _).trans ?_
      · simp only [Dev.wr_mem]
      · simp only [Dev.set_mem]

@[simp] theorem Dev.jointResult_mem (d : Dev) (blk id result reason token : Nat) : (d.jointResult blk id result reason token).mem = d.mem := by
  simp only [Dev.jointResult, Dev.sets_mem]

@[simp] theorem Dev.applyShadows_mem (d : Dev) (blk id : Nat) : (d.applyShadows blk id).mem = d.mem := by
  simp only [Dev.applyShadows]
  refine (Dev.foldl_mem _ (fun d x => ?_) _ _).trans ?_
  · simp only [Dev.wr_mem]
  · rfl

@[simp] theorem Dev.jnlCommit_mem (d : Dev) (id : Nat) (before : Reg64) (s : Shadow) (r : RegDef) : (d.jnlCommit id before s r).mem = d.mem := by
  unfold Dev.jnlCommit
  exact Dev.foldl_fst_mem _ (fun _ _ => Dev.jnlChange_mem ..) _ _

@[simp] theorem Dev.remapTiles_mem (old d : Dev) (n x : Nat) : (old.remapTiles d n x).mem = d.mem := by
  unfold Dev.remapTiles
  dsimp only
  split
  · rfl
  · simp only [Dev.putArr_mem, Dev.fresh_mem]

@[simp] theorem Dev.refreshRepair_mem (d : Dev) (n x : Nat) : (d.refreshRepair n x).mem = d.mem := by
  simp only [Dev.refreshRepair, Dev.set_mem]

@[simp] theorem Dev.startProgCopy_mem (d : Dev) (n x : Nat) : (d.startProgCopy n x).mem = d.mem := by
  simp only [Dev.startProgCopy, Dev.putVec_mem]

@[simp] theorem Dev.showPrios_mem (d : Dev) (b : Nat) : (d.showPrios b).mem = d.mem := by
  simp only [Dev.showPrios]
  refine (Dev.foldl_mem _ (fun d x => ?_) _ _).trans ?_
  · simp only [Dev.set_mem, Dev.ite_mem, ite_self]
  · rfl

@[simp] theorem Dev.portCommitted_mem (old d : Dev) (p : Nat) : (old.portCommitted d p).mem = d.mem := by
  unfold Dev.portCommitted
  dsimp only
  split <;> simp only [Dev.updPort_mem, Dev.set_mem, Dev.ite_mem, ite_self]

theorem Dev.commitHook_mem {old d : Dev} (h : d.mem = old.mem) (blk id : Nat) : (old.commitHook d blk id).mem = old.mem := by
  unfold Dev.commitHook
  simp only [Dev.ite_mem, Dev.sets_mem, Dev.set_mem, Dev.putCtx_mem, Dev.showPrios_mem, Dev.remapTiles_mem, Dev.refreshRepair_mem, Dev.startProgCopy_mem, Dev.portCommitted_mem, ite_self, Dev.foldl_mem _ (fun d x => Dev.sets_mem d _), h]

@[simp] theorem Dev.refuseCommit_mem (d : Dev) (blk id token origin reason : Nat) : (d.refuseCommit blk id token origin reason).mem = d.mem := by
  unfold Dev.refuseCommit
  extract_lets diff d₁ d₂ d₃ d₄
  have h₂ : d₂.mem = d.mem := by
    unfold d₂
    rw [Dev.ite_mem, Dev.jnlRefused_mem, Dev.foldl_mem _ (fun _ _ => Dev.jnlRefused_mem ..), ite_self]
    exact Dev.unarm_mem ..
  have h₄ : d₄.mem = d.mem := by
    unfold d₄ d₃
    rw [Dev.ite_mem, Dev.set_mem, ite_self, Dev.ite_mem, Dev.set_mem, ite_self, h₂]
  rw [Dev.refreshArmed_mem, Dev.jointResult_mem, h₄]

@[simp] theorem Dev.commitJoint_mem (d : Dev) (blk id token origin : Nat) : (d.commitJoint blk id token origin).mem = d.mem := by
  unfold Dev.commitJoint
  dsimp only
  split
  · exact Dev.refuseCommit_mem ..
  · rw [Dev.refreshArmed_mem, Dev.jointResult_mem]
    refine Dev.commitHook_mem ?_ _ _
    rw [Dev.unarm_mem, Dev.dropShadows_mem, Dev.ite_mem, Dev.wr_mem, ite_self]
    refine (Dev.foldl_mem _ (fun d x => ?_) _ _).trans (Dev.applyShadows_mem ..)
    split
    · exact Dev.jnlCommit_mem ..
    · rfl

@[simp] theorem Dev.refuseJointOp_mem (d : Dev) (origin blk id op token reason : Nat) : (d.refuseJointOp origin blk id op token reason).mem = d.mem := by
  simp only [Dev.refuseJointOp, Dev.jointResult_mem, Dev.jnlRefused_mem]

@[simp] theorem Dev.armJoint_mem (d : Dev) (origin blk id token : Nat) : (d.armJoint origin blk id token).mem = d.mem := by
  simp only [Dev.armJoint]
  repeat' split
  all_goals simp only [Dev.refuseJointOp_mem, Dev.jnlChange_mem, Dev.commitJoint_mem, Dev.refreshArmed_mem]

@[simp] theorem Dev.disarmJoint_mem (d : Dev) (origin blk id token : Nat) : (d.disarmJoint origin blk id token).mem = d.mem := by
  simp only [Dev.disarmJoint, Dev.refuseJointOp_mem, Dev.refreshArmed_mem, Dev.jointResult_mem, Dev.unarm_mem, Dev.jnlChange_mem, Dev.ite_mem, ite_self]

@[simp] theorem Dev.revertJoint_mem (d : Dev) (origin blk id token : Nat) : (d.revertJoint origin blk id token).mem = d.mem := by
  simp only [Dev.revertJoint, Dev.refuseJointOp_mem, Dev.dropShadows_mem, Dev.jnlChange_mem, Dev.ite_mem, ite_self]

@[simp] theorem Dev.jointOp_mem (d : Dev) (origin blk id op token : Nat) : (d.jointOp origin blk id op token).mem = d.mem := by
  unfold Dev.jointOp
  split
  · exact Dev.armJoint_mem ..
  · exact Dev.disarmJoint_mem ..
  · exact Dev.revertJoint_mem ..
  · exact Dev.refuseJointOp_mem ..

@[simp] theorem Dev.discardJoints_mem (d : Dev) (p : Armed → Bool) : (d.discardJoints p).mem = d.mem := by
  simp only [Dev.discardJoints]
  refine (Dev.foldl_mem _ (fun d x => ?_) _ _).trans ?_
  · simp only [Dev.refreshArmed_mem, Dev.jointResult_mem, Dev.unarm_mem]
  · rfl

@[simp] theorem Dev.staticErr_mem (d : Dev) (off : Nat) : (d.staticErr off).mem = d.mem := by
  simp only [Dev.staticErr, Dev.set_mem, Dev.ite_mem, ite_self]

@[simp] theorem Dev.writeFields_mem (d : Dev) (origin off byteLo nbytes : Nat) (att : Reg64) : (d.writeFields origin off byteLo nbytes att).mem = d.mem := by
  unfold Dev.writeFields
  split
  · rfl
  · extract_lets id blk cov old stopped new swRefused wo d₁ d₂ jw sh armed written
    have h₁ : d₁.mem = d.mem := by
      unfold d₁
      split
      · rw [Dev.jnlChange_mem, Dev.wr_mem]
      · rw [Dev.ite_mem, Dev.jnlChange_mem, ite_self]
    have h₂ : d₂.mem = d.mem := by
      unfold d₂
      rw [Dev.ite_mem, Dev.jnlRefused_mem, Dev.staticErr_mem, ite_self, h₁]
    clear_value d₂
    split
    · exact h₂
    · split
      · rw [Dev.jnlRefused_mem, Dev.set_mem, h₂]
      · exact (Dev.foldl_mem _ (fun _ _ => Dev.setShadow_mem ..) _ _).trans h₂

@[simp] theorem Dev.regWriteCore_mem (d : Dev) (via : Via) (off size value : Nat) : (d.regWriteCore via off size value).mem = d.mem := by
  simp only [Dev.regWriteCore]
  repeat' split
  all_goals simp only [Dev.badAccess_mem, Dev.writeFields_mem]

@[simp] theorem Dev.putSuspects_mem (d : Dev) (l : List Suspect) : (d.putSuspects l).mem = d.mem := by
  simp only [Dev.putSuspects, Dev.set_mem]

@[simp] theorem Dev.freeSuspect_mem (d : Dev) (r : Resource) : (d.freeSuspect r).mem = d.mem := by
  simp only [Dev.freeSuspect, Dev.putSuspects_mem]

@[simp] theorem Dev.suspect_mem (d : Dev) (r : Resource) : (d.suspect r).2.mem = d.mem := by
  unfold Dev.suspect
  dsimp only
  repeat' split
  all_goals simp only [Dev.incSat_mem, Dev.incWrap_mem, Dev.freeSuspect_mem, Dev.putSuspects_mem]

@[simp] theorem Dev.writeField_mem (d : Dev) : (d.writeField).mem = d.mem := by
  simp only [Dev.writeField, Dev.jnlEventAfter_mem, Dev.set_mem]

@[simp] theorem Dev.fieldUpdate_mem (d : Dev) (f : Board → Board) : (d.fieldUpdate f).mem = d.mem := by
  simp only [Dev.fieldUpdate, Dev.writeField_mem, Dev.ite_mem, ite_self]

/-! ### Matrix arrays (chapter 4) -/

@[simp] theorem Dev.setStepField_mem (d : Dev) (b c : Nat) (f : RF) (v : Nat) : (d.setStepField b c f v).mem = d.mem := by
  simp only [Dev.setStepField]
  split <;> simp only [Dev.putCtx_mem, Dev.set_mem]

@[simp] theorem Dev.lateFlag_mem (d : Dev) (b : Nat) : (d.lateFlag b).mem = d.mem := by
  simp only [Dev.lateFlag, Dev.incSat_mem, Dev.set_mem]

@[simp] theorem Dev.noteNonfinite_mem (d : Dev) (b n : Nat) : (d.noteNonfinite b n).mem = d.mem := by
  rw [Dev.noteNonfinite]
  split
  · rfl
  · rw [Dev.set_mem, Dev.incSat_mem, Dev.set_mem]
    split
    · refine (Dev.foldl_mem _ (fun d x => ?_) _ _).trans ?_
      · rw [Dev.lateFlag_mem]
      · rfl
    · rfl

@[simp] theorem Dev.orFlags_mem (d : Dev) (b : Nat) (f : FFlags) : (d.orFlags b f).mem = d.mem := by
  simp only [Dev.orFlags, Dev.set_mem]

@[simp] theorem Dev.showDisp_mem (d : Dev) (b a : Nat) : (d.showDisp b a).mem = d.mem := by
  simp only [Dev.showDisp, Dev.sets_mem]

@[simp] theorem Dev.endStepEarly_mem (d : Dev) (b status : Nat) : (d.endStepEarly b status).mem = d.mem := by
  simp only [Dev.endStepEarly]
  split <;> simp only [Dev.putBay_mem, Dev.ite_mem, ite_self]

@[simp] theorem Dev.haltArray_mem (d : Dev) (b a : Nat) : (d.haltArray b a).mem = d.mem := by
  simp only [Dev.haltArray, Dev.endStepEarly_mem, Dev.set_mem]

@[simp] theorem Dev.takeChoice_mem (d : Dev) (b a : Nat) (c : Choice) : (d.takeChoice b a c).mem = d.mem := by
  simp only [Dev.takeChoice, Dev.showDisp_mem, Dev.incSat_mem, Dev.incWrap_mem, Dev.putArr_mem, Dev.ite_mem, ite_self]

@[simp] theorem Dev.unstalled_mem (d : Dev) (a : Nat) : (d.unstalled a).mem = d.mem := by
  simp only [Dev.unstalled, Dev.set_mem]

@[simp] theorem Dev.enterRec_mem (d : Dev) (b a : Nat) (c : Choice) (r : PassRec) : (d.enterRec b a c r).mem = d.mem := by
  simp only [Dev.enterRec, Dev.takeChoice_mem, Dev.unstalled_mem, Dev.set_mem, Dev.putArr_mem]

@[simp] theorem Dev.enterFlight_mem (d : Dev) (b a : Nat) (c : Choice) (start pegCycle : Nat) (rows : List (Nat × List Byte)) (mism : Bool) : (d.enterFlight b a c start pegCycle rows mism).mem = d.mem := by
  simp only [Dev.enterFlight, Dev.enterRec_mem]

theorem Dev.landRows_wf {d : Dev} (h : d.mem.wf = true) (b a : Nat) (rows : List (Nat × List Byte)) : (d.landRows b a rows).1.mem.wf = true := by
  induction rows generalizing d with
  | nil => exact h
  | cons r rest ih =>
    unfold Dev.landRows
    dsimp only
    repeat' split
    · exact ih h
    · exact ih h
    · exact h
    · exact ih (d.putBayBytes_wf _ _ _ h)

theorem Dev.landNew_wf {d : Dev} (h : d.mem.wf = true) (b a : Nat) (rows : List (Nat × List Byte)) : (d.landNew b a rows).1.mem.wf = true := by
  unfold Dev.landNew
  split
  · exact h
  · exact Dev.landRows_wf h _ _ _

@[simp] theorem Dev.drainRows_mem (d : Dev) (b a : Nat) (q : Desc) (fo : Fmt) (first : Nat) (rows : List (List Val)) :
    (d.drainRows b a q fo first rows).1.mem = d.mem := by
  simp only [Dev.drainRows, Dev.noteNonfinite_mem, Dev.orFlags_mem, Dev.putArr_mem]

@[simp] theorem Dev.checkMode_mem (d : Dev) (a : Nat) (q : Desc) : (d.checkMode a q).1.mem = d.mem := by
  unfold Dev.checkMode
  dsimp only
  repeat' split
  all_goals rfl

@[simp] theorem Dev.requestStart_mem (d : Dev) (a cycle : Nat) : (d.requestStart a cycle).mem = d.mem := by
  simp only [Dev.requestStart, Dev.putAg_mem, Dev.ite_mem, ite_self]

@[simp] theorem Dev.countStall_mem (d : Dev) (b a stall : Nat) (c : Choice) : (d.countStall b a stall c).mem = d.mem := by
  simp only [Dev.countStall, Dev.unstalled_mem, Dev.incWrap_mem]
  split <;> simp only [Dev.putBay_mem, Dev.putArr_mem]

@[simp] theorem Dev.stalled_mem (d : Dev) (a : Nat) : (d.stalled a).mem = d.mem := by
  simp only [Dev.stalled, Dev.set_mem]

@[simp] theorem Dev.passWaits_mem (d : Dev) (a cycle : Nat) : (d.passWaits a cycle).mem = d.mem := by
  simp only [Dev.passWaits, Dev.stalled_mem, Dev.ite_mem, ite_self]

@[simp] theorem Dev.skipPass_mem (d : Dev) (b a : Nat) (c : Choice) (cycle : Nat) : (d.skipPass b a c cycle).mem = d.mem := by
  simp only [Dev.skipPass, Dev.enterFlight_mem, Dev.putArr_mem]

@[simp] theorem Dev.fetchHeads_mem (d : Dev) (a : Nat) : (d.fetchHeads a).mem = d.mem := by
  simp only [Dev.fetchHeads]
  split <;> simp only [Dev.haltArray_mem, Dev.ite_mem, ite_self]

@[simp] theorem Dev.osFinish_mem (d : Dev) (a : Nat) (q : Desc) (p : Pair) (r : PassRec) (blocks : List (List (List Val))) : (d.osFinish a q p r blocks).mem = d.mem := by
  simp only [Dev.osFinish, Dev.putArr_mem]

theorem Dev.wsDrain_wf {d : Dev} (h : d.mem.wf = true) (b a : Nat) (q : Desc) (p : Pair) (fo : Fmt) (r : PassRec) (first : Nat) (ra : List (List Val)) :
    (d.wsDrain b a q p fo r first ra).1.mem.wf = true := Dev.landNew_wf (by simpa only [Dev.drainRows_mem] using h) _ _ _

theorem Dev.takeBlock_wf {d : Dev} (h : d.mem.wf = true) (b a : Nat) : (d.takeBlock b a).mem.wf = true := by
  simp only [Dev.takeBlock]
  split
  · exact h
  · split
    · exact h
    · split
      · exact h
      · simp only [Dev.putArr_mem]
        split
        · simpa only [Dev.osFinish_mem, Dev.putArr_mem, Dev.ite_mem, ite_self] using h
        · split
          · simpa only [Dev.putArr_mem] using h
          · split
            · split
              · simpa only [Dev.putArr_mem] using h
              · exact Dev.wsDrain_wf (by simpa only [Dev.putArr_mem] using h) _ _ _ _ _ _ _ _
            · split
              · simpa only [Dev.putArr_mem] using h
              · exact Dev.wsDrain_wf (by simpa only [Dev.putArr_mem] using h) _ _ _ _ _ _ _ _

theorem Dev.takeBlocks_wf {d : Dev} (h : d.mem.wf = true) (b a n : Nat) : (d.takeBlocks b a n).mem.wf = true := by
  induction n generalizing d with
  | zero => exact h
  | succ n ih => exact ih (Dev.takeBlock_wf h _ _)

theorem Dev.wsEmpty_wf {d : Dev} (h : d.mem.wf = true) (b a : Nat) (c : Choice) (q : Desc) (fo : Fmt) (cycle : Nat) : (d.wsEmpty b a c q fo cycle).mem.wf = true := by
  simpa only [Dev.wsEmpty, Dev.enterFlight_mem] using Dev.landNew_wf (by simpa only [Dev.noteNonfinite_mem, Dev.checkMode_mem] using h) _ _ _

theorem Dev.wsRun_wf {d : Dev} (h : d.mem.wf = true) (b a : Nat) (c : Choice) (q : Desc) (p : Pair) (rb : List (List Val)) (cycle stall : Nat) : (d.wsRun b a c q p rb cycle stall).mem.wf = true := by
  simp only [Dev.wsRun]
  exact Dev.takeBlocks_wf (by simpa only [Dev.enterRec_mem, Dev.putArr_mem, Dev.set_mem, Dev.countStall_mem, Dev.checkMode_mem] using h) _ _ _

theorem Dev.wsGemm_wf {d : Dev} (h : d.mem.wf = true) (a cycle stall : Nat) : (d.wsGemm a cycle stall).mem.wf = true := by
  unfold Dev.wsGemm
  extract_lets d₁ u
  have h₁ : d₁.mem.wf = true := Dev.wf_of_mem_eq (Dev.fetchHeads_mem ..) h
  clear_value d₁
  split
  · exact h₁
  · split
    · split
      · rwa [Dev.passWaits_mem]
      · split
        · rwa [Dev.skipPass_mem]
        · split
          · exact Dev.wsEmpty_wf h₁ ..
          · split
            · rwa [Dev.requestStart_mem]
            · split
              · rwa [Dev.stalled_mem]
              · split
                · exact Dev.wsRun_wf h₁ ..
                · split
                  · rwa [Dev.stalled_mem]
                  · split
                    · exact Dev.wsRun_wf h₁ ..
                    · exact h₁
    · exact h₁

theorem Dev.osRun_wf {d : Dev} (h : d.mem.wf = true) (b a : Nat) (c : Choice) (q : Desc) (p : Pair) (rb : List (List Val)) (cycle stall : Nat) : (d.osRun b a c q p rb cycle stall).mem.wf = true := by
  simp only [Dev.osRun]
  exact Dev.takeBlocks_wf (by simpa only [Dev.enterRec_mem, Dev.putArr_mem, Dev.set_mem, Dev.countStall_mem, Dev.checkMode_mem] using h) _ _ _

@[simp] theorem Dev.osEmpty_mem (d : Dev) (b a : Nat) (c : Choice) (q : Desc) (cycle : Nat) : (d.osEmpty b a c q cycle).mem = d.mem := by
  simp only [Dev.osEmpty, Dev.enterFlight_mem, Dev.putArr_mem, Dev.checkMode_mem]

theorem Dev.osGemm_wf {d : Dev} (h : d.mem.wf = true) (a cycle stall : Nat) : (d.osGemm a cycle stall).mem.wf = true := by
  unfold Dev.osGemm
  extract_lets d₁ u
  have h₁ : d₁.mem.wf = true := Dev.wf_of_mem_eq (Dev.fetchHeads_mem ..) h
  clear_value d₁
  split
  · exact h₁
  · split
    · split
      · rwa [Dev.passWaits_mem]
      · split
        · rwa [Dev.skipPass_mem]
        · split
          · rwa [Dev.osEmpty_mem]
          · split
            · rwa [Dev.requestStart_mem]
            · split
              · exact Dev.osRun_wf h₁ ..
              · rwa [Dev.stalled_mem]
    · exact h₁

theorem Dev.drainRun_wf {d : Dev} (h : d.mem.wf = true) (b a : Nat) (c : Choice) (q : Desc) (mode : Nat) (fo : Fmt) (cycle stall : Nat) : (d.drainRun b a c q mode fo cycle stall).mem.wf = true := by
  simpa only [Dev.drainRun, Dev.enterFlight_mem, Dev.putArr_mem, Dev.set_mem, Dev.countStall_mem] using Dev.landNew_wf (by simpa only [Dev.drainRows_mem, Dev.checkMode_mem] using h) _ _ _

theorem Dev.drainPass_wf {d : Dev} (h : d.mem.wf = true) (a cycle stall : Nat) : (d.drainPass a cycle stall).mem.wf = true := by
  unfold Dev.drainPass
  extract_lets d₁
  have h₁ : d₁.mem.wf = true := Dev.wf_of_mem_eq (Dev.fetchHeads_mem ..) h
  clear_value d₁
  split
  · exact h₁
  · split
    · split
      · rwa [Dev.passWaits_mem]
      · split
        · rwa [Dev.skipPass_mem]
        · split
          · exact h₁
          · split
            · rwa [Dev.requestStart_mem]
            · exact Dev.drainRun_wf h₁ ..
    · exact h₁

@[simp] theorem Dev.wloadPass_mem (d : Dev) (a cycle stall : Nat) : (d.wloadPass a cycle stall).mem = d.mem := by
  unfold Dev.wloadPass
  extract_lets d₁
  have h₁ : d₁.mem = d.mem := Dev.fetchHeads_mem ..
  clear_value d₁
  split
  · exact h₁
  · split
    · split
      · rw [Dev.passWaits_mem, h₁]
      · split
        · rw [Dev.skipPass_mem, h₁]
        · extract_lets u
          split
          · rw [Dev.enterFlight_mem, h₁]
          · split
            · rw [Dev.requestStart_mem, h₁]
            · split
              · rw [Dev.stalled_mem, h₁]
              · split
                · exact h₁
                · rw [Dev.enterFlight_mem, Dev.putArr_mem, Dev.set_mem, Dev.countStall_mem, h₁]
    · exact h₁

@[simp] theorem Dev.gateIdle_mem (d : Dev) (a : Nat) : (d.gateIdle a).mem = d.mem := by
  simp only [Dev.gateIdle, Dev.set_mem, Dev.ite_mem, ite_self]

@[simp] theorem Dev.settleArray_mem (d : Dev) (a : Nat) : (d.settleArray a).mem = d.mem := by
  simp only [Dev.settleArray, Dev.gateIdle_mem, Dev.set_mem, Dev.ite_mem, ite_self]

@[simp] theorem Dev.countMismatch_mem (d : Dev) (b a : Nat) : (d.countMismatch b a).mem = d.mem := by
  simp only [Dev.countMismatch]
  split <;> simp only [Dev.putArr_mem, Dev.emit_mem, Dev.suspect_mem, Dev.putBay_mem, Dev.incSat_mem, Dev.set_mem, Dev.ite_mem, ite_self]

@[simp] theorem Dev.passComplete_mem (d : Dev) (a : Nat) : (d.passComplete a).mem = d.mem := by
  simp only [Dev.passComplete]
  split <;> simp only [Dev.settleArray_mem, Dev.incPeg_mem, Dev.countMismatch_mem, Dev.incWrap_mem, Dev.putArr_mem, Dev.ite_mem, ite_self]

theorem Dev.drainRowEnqueue_wf {d : Dev} (h : d.mem.wf = true) (a waited : Nat) : (d.drainRowEnqueue a waited).mem.wf = true := by
  simp only [Dev.drainRowEnqueue]
  split
  · split
    · exact h
    · simpa only [Dev.putArr_mem, Dev.incWrap_mem] using Dev.landRows_wf h _ _ _
  · exact h

@[simp] theorem Dev.arrayStartGrant_mem (d : Dev) (n cycle : Nat) : (d.arrayStartGrant n cycle).mem = d.mem := by
  simp only [Dev.arrayStartGrant]
  split <;> simp only [Dev.set_mem, Dev.putAg_mem, Dev.ite_mem, ite_self]

@[simp] theorem Dev.feederError_mem (d : Dev) (a : Nat) (line : Nat) (f : EccFinding) : (d.feederError a line f).mem = d.mem := by
  cases f with
  | corrected =>
    exact (Dev.set_mem ..).trans ((Dev.set_mem ..).trans ((Dev.incWrap_mem ..).trans (Dev.sets_mem ..)))
  | uncorrectable => rfl

@[simp] theorem Dev.fedLate_mem (d : Dev) (b a stall : Nat) : (d.fedLate b a stall).mem = d.mem := by
  simp only [Dev.fedLate]
  split <;> simp only [Dev.putArr_mem, Dev.countStall_mem]

@[simp] theorem Dev.meshWaits_mem (d : Dev) (n : Nat) (w : MeshWait) : (d.meshWaits n w).mem = d.mem := by
  simp only [Dev.meshWaits, Dev.incWrap_mem]

theorem Dev.stagingComplete_wf {d : Dev} (h : d.mem.wf = true) (a : Nat) (isB : Bool) (stall : Nat) (mesh : MeshWait) (buf : Option (Nat × EccFinding)) : (d.stagingComplete a isB stall mesh buf).mem.wf = true := by
  simp only [Dev.stagingComplete]
  split
  · simpa only [Dev.feederError_mem, Dev.putArr_mem, Dev.meshWaits_mem] using h
  · split
    · simpa only [Dev.feederError_mem, Dev.putArr_mem, Dev.meshWaits_mem] using h
    · simpa only [Dev.putArr_mem, Dev.meshWaits_mem] using h
  · split
    · split
      · simpa only [Dev.feederError_mem, Dev.putArr_mem, Dev.meshWaits_mem] using h
      · simpa only [Dev.putArr_mem, Dev.meshWaits_mem] using h
    · split
      · split
        · exact Dev.takeBlocks_wf (by simpa only [Dev.fedLate_mem, Dev.putArr_mem, Dev.feederError_mem, Dev.meshWaits_mem] using h) _ _ _
        · simpa only [Dev.putArr_mem, Dev.feederError_mem, Dev.meshWaits_mem] using h
      · split
        · exact Dev.takeBlocks_wf (by simpa only [Dev.fedLate_mem, Dev.putArr_mem, Dev.meshWaits_mem] using h) _ _ _
        · simpa only [Dev.putArr_mem, Dev.meshWaits_mem] using h

@[simp] theorem Dev.locateTest_mem (d : Dev) (a : Nat) : (d.locateTest a).mem = d.mem := by
  simp only [Dev.locateTest, Dev.putArr_mem, Dev.ite_mem, ite_self]

@[simp] theorem Dev.addBypass_mem (d : Dev) (a : Nat) (isRow : Bool) (slot index : Nat) : (d.addBypass a isRow slot index).mem = d.mem := by
  simp only [Dev.addBypass, Dev.setShadow_mem]

@[simp] theorem Dev.markUnrepairable_mem (d : Dev) (a : Nat) : (d.markUnrepairable a).mem = d.mem := by
  simp only [Dev.markUnrepairable, Dev.fieldUpdate_mem, Dev.jnlEventAfter_mem, Dev.clearBit_mem, Dev.set_mem]

@[simp] theorem Dev.repairFaults_mem (d : Dev) (a : Nat) (faults : List (Nat × Nat)) : (d.repairFaults a faults).mem = d.mem := by
  simp only [Dev.repairFaults]
  split
  · simp only [Dev.armJoint_mem, Dev.fieldUpdate_mem]
    refine (Dev.foldl_mem _ (fun d x => ?_) _ _).trans ?_
    · simp only [Dev.addBypass_mem]
    · refine (Dev.foldl_mem _ (fun d x => ?_) _ _).trans ?_
      · simp only [Dev.addBypass_mem]
      · rfl
  · simp only [Dev.markUnrepairable_mem]

@[simp] theorem Dev.locateTestDone_mem (d : Dev) (a : Nat) (faults : List (Nat × Nat)) : (d.locateTestDone a faults).mem = d.mem := by
  simp only [Dev.locateTestDone, Dev.set_mem, Dev.putArr_mem, Dev.repairFaults_mem, Dev.ite_mem, ite_self]

/-! ### Rings (chapter 19) -/

@[simp] theorem Dev.showRing_mem (d : Dev) (r : Nat) : (d.showRing r).mem = d.mem := by
  simp only [Dev.showRing, Dev.sets_mem]

@[simp] theorem Dev.signal_mem (d : Dev) (r : Nat) : (d.signal r).mem = d.mem := by
  simp only [Dev.signal, Dev.emit_mem, Dev.putRing_mem]

@[simp] theorem Dev.cqError_mem (d : Dev) (r : Nat) : (d.cqError r).mem = d.mem := by
  simp only [Dev.cqError, Dev.sets_mem]

theorem Dev.writeCpl_wf {d : Dev} (h : d.mem.wf = true) (r : Nat) (c : Cpl) : (d.writeCpl r c).mem.wf = true := by
  simp only [Dev.writeCpl]
  split
  · simpa only [Dev.cqError_mem] using h
  · split
    · split
      · split
        · simpa only [Dev.signal_mem, Dev.putRing_mem, Dev.set_mem] using Dev.putHostBytes_wf _ _ _ _ h
        · simpa only [Dev.putRing_mem, Dev.set_mem] using Dev.putHostBytes_wf _ _ _ _ h
      · split
        · simpa only [Dev.signal_mem, Dev.putRing_mem, Dev.set_mem] using Dev.putHostBytes_wf _ _ _ _ h
        · simpa only [Dev.putRing_mem, Dev.set_mem] using Dev.putHostBytes_wf _ _ _ _ h
    · split
      · split
        · simpa only [Dev.signal_mem, Dev.putRing_mem, Dev.set_mem] using Dev.putHostBytes_wf _ _ _ _ h
        · simpa only [Dev.putRing_mem, Dev.set_mem] using Dev.putHostBytes_wf _ _ _ _ h
      · split
        · simpa only [Dev.signal_mem, Dev.putRing_mem, Dev.set_mem] using Dev.putHostBytes_wf _ _ _ _ h
        · simpa only [Dev.putRing_mem, Dev.set_mem] using Dev.putHostBytes_wf _ _ _ _ h

theorem Dev.releaseHeld_wf {d : Dev} (h : d.mem.wf = true) (r n : Nat) : (d.releaseHeld r n).mem.wf = true := by
  induction n generalizing d with
  | zero => exact h
  | succ n ih =>
    unfold Dev.releaseHeld
    dsimp only
    repeat' split
    · exact h
    · exact ih (Dev.writeCpl_wf (by simpa only [Dev.putRing_mem] using h) _ _)
    · exact h

theorem Dev.post_wf {d : Dev} (h : d.mem.wf = true) (r : Nat) (c : Cpl) : (d.post r c).mem.wf = true := by
  simp only [Dev.post]
  split
  · exact h
  · split
    · exact Dev.writeCpl_wf h _ _
    · simpa only [Dev.putRing_mem] using h

@[simp] theorem Dev.drainRing_mem (d : Dev) (r : Nat) : (d.drainRing r).mem = d.mem := by
  simp only [Dev.drainRing, Dev.set_mem, Dev.ite_mem, ite_self]

theorem Dev.complete_wf {d : Dev} (h : d.mem.wf = true) (c : Cmd) (status result : Nat) : (d.complete c status result).mem.wf = true := by
  simp only [Dev.complete]
  split
  · simpa only [Dev.incSat_mem, Dev.putRing_mem] using h
  · split
    · simpa only [Dev.showRing_mem, Dev.drainRing_mem] using Dev.post_wf (by simpa only [Dev.putRing_mem] using h) _ _
    · exact h

theorem Dev.flushBad_wf {d : Dev} (h : d.mem.wf = true) (r n : Nat) : (d.flushBad r n).mem.wf = true := by
  induction n generalizing d with
  | zero => exact h
  | succ n ih =>
    unfold Dev.flushBad
    repeat' split
    · exact ih (Dev.complete_wf h _ _ _)
    · exact h
    · exact h

@[simp] theorem Dev.startCmd_mem (d : Dev) (c : Cmd) : (d.startCmd c).mem = d.mem := by
  simp only [Dev.startCmd, Dev.putRing_mem]

theorem Dev.hostCmd_wf {d : Dev} {run : Dev → Cmd → Dev} (h : d.mem.wf = true)
    (hrun : ∀ {d : Dev}, d.mem.wf = true → ∀ c, (run d c).mem.wf = true) (r op : Nat) : (d.hostCmd r op run).mem.wf = true := by
  unfold Dev.hostCmd
  repeat' split
  · exact Dev.flushBad_wf (Dev.complete_wf h _ _ _) _ _
  · exact Dev.flushBad_wf (hrun h _) _ _
  · exact h
  · exact h

@[simp] theorem Dev.ringStart_mem (d : Dev) (r : Nat) : (d.ringStart r).mem = d.mem := by
  rw [Dev.ringStart, Dev.showRing_mem, Dev.putRing_mem, Dev.sets_mem]

@[simp] theorem Dev.unready_mem (d : Dev) (k : Nat) : (d.unready k).mem = d.mem := by
  simp only [Dev.unready, Dev.set_mem, Dev.putCtx_mem, Dev.ite_mem, ite_self]

theorem Dev.ringStop_wf {d : Dev} (h : d.mem.wf = true) (r : Nat) : (d.ringStop r).mem.wf = true := by
  simp only [Dev.ringStop]
  split
  · simpa only [Dev.showRing_mem, Dev.set_mem, Dev.putRing_mem] using h
  · split
    · exact h
    · simp only [Dev.showRing_mem, Dev.drainRing_mem, Dev.set_mem]
      split
      · simp only [Dev.unready_mem]
        refine Dev.foldl_wf _ (fun d x h => ?_) _ _ ?_
        · exact Dev.complete_wf h _ _ _
        · exact h
      · refine Dev.foldl_wf _ (fun d x h => ?_) _ _ ?_
        · exact Dev.complete_wf h _ _ _
        · exact h

@[simp] theorem Dev.sqDoorbell_mem (d : Dev) (p f r index : Nat) : (d.sqDoorbell p f r index).mem = d.mem := by
  simp only [Dev.sqDoorbell, Dev.incSat_mem, Dev.putRing_mem, Dev.ite_mem, ite_self]

theorem Dev.takeHead_wf {d : Dev} (h : d.mem.wf = true) (r index : Nat) : (d.takeHead r index).mem.wf = true := by
  simpa only [Dev.takeHead, Dev.showRing_mem] using Dev.releaseHeld_wf (by simpa only [Dev.putRing_mem] using h) _ _

theorem Dev.cqDoorbell_wf {d : Dev} (h : d.mem.wf = true) (p f r index : Nat) : (d.cqDoorbell p f r index).mem.wf = true := by
  simp only [Dev.cqDoorbell]
  split
  · simpa only [Dev.incSat_mem] using h
  · split
    · simpa only [Dev.putRing_mem] using h
    · exact Dev.takeHead_wf h _ _

theorem Dev.takeHeldBells_wf {d : Dev} (h : d.mem.wf = true) (r : Nat) : (d.takeHeldBells r).mem.wf = true := by
  simp only [Dev.takeHeldBells]
  split
  · exact Dev.takeHead_wf (by simpa only [Dev.putRing_mem] using h) _ _
  · simpa only [Dev.putRing_mem] using h

@[simp] theorem Dev.fetchEntries_mem (d : Dev) (r n : Nat) : (d.fetchEntries r n).mem = d.mem := by
  induction n generalizing d with
  | zero => rfl
  | succ n ih =>
    unfold Dev.fetchEntries
    dsimp only
    split
    · rfl
    · simp only [ih, Dev.set_mem, Dev.putRing_mem]

theorem Dev.commandFetch_wf {d : Dev} (h : d.mem.wf = true) (r : Nat) (fails : Bool) : (d.commandFetch r fails).mem.wf = true := by
  simp only [Dev.commandFetch]
  split
  · exact h
  · split
    · simpa only [Dev.sets_mem] using h
    · simpa only [Dev.showRing_mem] using Dev.flushBad_wf (by simpa only [Dev.fetchEntries_mem] using h) _ _

@[simp] theorem Dev.coalesceTimeout_mem (d : Dev) (r : Nat) : (d.coalesceTimeout r).mem = d.mem := by
  simp only [Dev.coalesceTimeout, Dev.signal_mem, Dev.ite_mem, ite_self]

@[simp] theorem Dev.stopRing_mem (d : Dev) (r : Nat) : (d.stopRing r).mem = d.mem := by
  simp only [Dev.stopRing, Dev.showRing_mem, Dev.set_mem]
  split
  · simp only [Dev.unready_mem, Dev.putRing_mem, Dev.incSat_mem]
    refine (Dev.foldl_mem _ (fun d x => ?_) _ _).trans ?_
    · simp only [Dev.wrJ_mem]
    · rfl
  · simp only [Dev.putRing_mem, Dev.incSat_mem]
    refine (Dev.foldl_mem _ (fun d x => ?_) _ _).trans ?_
    · simp only [Dev.wrJ_mem]
    · rfl

@[simp] theorem Dev.clearApertures_mem (d : Dev) (p : Nat) (f : Option Nat) : (d.clearApertures p f).mem = d.mem := by
  simp only [Dev.clearApertures]
  refine (Dev.foldl_mem _ (fun d x => ?_) _ _).trans ?_
  · simp only [Dev.setJ_mem, Dev.ite_mem, ite_self]
  · rfl

/-! ### Tile memory (chapter 6) -/

@[simp] theorem Dev.dueRetire_mem (d : Dev) (n line cause : Nat) : (d.dueRetire n line cause).mem = d.mem := by
  simp only [Dev.dueRetire, Dev.putAg_mem, Dev.ite_mem, ite_self]

theorem Dev.tmLost_wf {d : Dev} (h : d.mem.wf = true) (n line : Nat) : (d.tmLost n line).mem.wf = true := by
  simpa only [Dev.tmLost, Dev.dueRetire_mem, Dev.incSat_mem, Dev.freeSuspect_mem] using Dev.zeroLocal_wf _ _ _ (by simpa only [Dev.set_mem, Dev.incSat_mem, Dev.sets_mem] using h)

theorem Dev.tmError_wf {d : Dev} (h : d.mem.wf = true) (n line : Nat) (f : EccFinding) : (d.tmError n line f).mem.wf = true := by
  simp only [Dev.tmError]
  split
  · simpa only [Dev.dueRetire_mem, Dev.suspect_mem, Dev.set_mem, Dev.incWrap_mem, Dev.sets_mem, Dev.ite_mem, ite_self] using h
  · split
    · simpa only [Dev.endStepEarly_mem] using Dev.tmLost_wf h _ _
    · exact Dev.tmLost_wf h _ _

theorem Dev.tmPatrol_wf {d : Dev} (h : d.mem.wf = true) (n line : Nat) (f : EccFinding) : (d.tmPatrol n line f).mem.wf = true := by
  simp only [Dev.tmPatrol]
  split
  · exact Dev.tmError_wf h _ _ _
  · exact h

@[simp] theorem Dev.tmLineRetire_mem (d : Dev) (n line : Nat) : (d.tmLineRetire n line).mem = d.mem := by
  simp only [Dev.tmLineRetire]
  split <;> simp only [Dev.fieldUpdate_mem, Dev.jnlEvent_mem, Dev.set_mem, Dev.incSat_mem, Dev.putAg_mem, Dev.ite_mem, ite_self]

/-! ### Vector slices (chapter 7) -/

@[simp] theorem Dev.showVec_mem (d : Dev) (x state waitOn : Nat) : (d.showVec x state waitOn).mem = d.mem := by
  simp only [Dev.showVec, Dev.sets_mem]

@[simp] theorem Dev.nextPc_mem (d : Dev) (x : Nat) : (d.nextPc x).mem = d.mem := by
  simp only [Dev.nextPc, Dev.showVec_mem, Dev.putVec_mem]

theorem Dev.vecRun_mem {d : Dev} {sem : Dev → Nat → VWord → Dev} (hsem : ∀ d b w, (sem d b w).mem = d.mem) (x op stall : Nat) :
    (d.vecRun x op stall sem).mem = d.mem := by
  unfold Dev.vecRun
  repeat' split
  · rw [hsem, Dev.incWrap_mem]
  · rfl
  · rfl

theorem Dev.vecRun_wf {d : Dev} {sem : Dev → Nat → VWord → Dev} (h : d.mem.wf = true)
    (hsem : ∀ {d : Dev}, d.mem.wf = true → ∀ b w, (sem d b w).mem.wf = true) (x op stall : Nat) :
    (d.vecRun x op stall sem).mem.wf = true := by
  unfold Dev.vecRun
  repeat' split
  · exact hsem (by simpa only [Dev.incWrap_mem] using h) _ _
  · exact h
  · exact h

@[simp] theorem Dev.vecCalc_mem (d : Dev) (x b : Nat) (r : VecU × FFlags) : (d.vecCalc x b r).mem = d.mem := by
  simp only [Dev.vecCalc, Dev.nextPc_mem, Dev.orFlags_mem, Dev.putVec_mem]

@[simp] theorem Dev.vecMap_mem (d : Dev) (x b : Nat) (w : VWord) (f : Fmt) (g : VecU → Nat → Nat × FFlags) : (d.vecMap x b w f g).mem = d.mem := by
  simp only [Dev.vecMap, Dev.vecCalc_mem]

@[simp] theorem Dev.vecBin_mem (d : Dev) (x b : Nat) (w : VWord) (ff : RMode → Val → Val → Val × FFlags) (fi : Int → Int → Int) : (d.vecBin x b w ff fi).mem = d.mem := by
  simp only [Dev.vecBin, Dev.vecMap_mem]

@[simp] theorem vNop_mem (d : Dev) (x _b : Nat) (_w : VWord) : (vNop d x _b _w).mem = d.mem := by
  simp only [vNop, Dev.nextPc_mem]

@[simp] theorem vAdd_mem (d : Dev) (x b : Nat) (w : VWord) : (vAdd d x b w).mem = d.mem := by
  simp only [vAdd, Dev.vecBin_mem]

@[simp] theorem vSub_mem (d : Dev) (x b : Nat) (w : VWord) : (vSub d x b w).mem = d.mem := by
  simp only [vSub, Dev.vecBin_mem]

@[simp] theorem vMul_mem (d : Dev) (x b : Nat) (w : VWord) : (vMul d x b w).mem = d.mem := by
  simp only [vMul, Dev.vecBin_mem]

@[simp] theorem vDiv_mem (d : Dev) (x b : Nat) (w : VWord) : (vDiv d x b w).mem = d.mem := by
  simp only [vDiv, Dev.vecBin_mem]

@[simp] theorem Dev.vecFma_mem (d : Dev) (x b : Nat) (w : VWord) (neg : Bool) : (d.vecFma x b w neg).mem = d.mem := by
  simp only [Dev.vecFma, Dev.vecMap_mem]

@[simp] theorem vSqrtOp_mem (d : Dev) (x b : Nat) (w : VWord) : (vSqrtOp d x b w).mem = d.mem := by
  simp only [vSqrtOp, Dev.vecMap_mem]

@[simp] theorem vMinMax_mem (mx : Bool) (d : Dev) (x b : Nat) (w : VWord) : (vMinMax mx d x b w).mem = d.mem := by
  simp only [vMinMax, Dev.vecBin_mem]

@[simp] theorem vMinMaxNum_mem (mx : Bool) (d : Dev) (x b : Nat) (w : VWord) : (vMinMaxNum mx d x b w).mem = d.mem := by
  simp only [vMinMaxNum, Dev.vecBin_mem]

@[simp] theorem vSign_mem (flip : Bool) (d : Dev) (x b : Nat) (w : VWord) : (vSign flip d x b w).mem = d.mem := by
  simp only [vSign, Dev.vecMap_mem]

@[simp] theorem vRintOp_mem (d : Dev) (x b : Nat) (w : VWord) : (vRintOp d x b w).mem = d.mem := by
  simp only [vRintOp, Dev.vecMap_mem]

@[simp] theorem vLogic_mem (g : Nat → Nat → Nat) (d : Dev) (x b : Nat) (w : VWord) : (vLogic g d x b w).mem = d.mem := by
  simp only [vLogic, Dev.vecMap_mem]

@[simp] theorem vShift_mem (g : Nat → Nat → Nat) (d : Dev) (x b : Nat) (w : VWord) : (vShift g d x b w).mem = d.mem := by
  simp only [vShift, Dev.vecMap_mem]

@[simp] theorem vCmpOp_mem (d : Dev) (x b : Nat) (w : VWord) : (vCmpOp d x b w).mem = d.mem := by
  simp only [vCmpOp, Dev.vecCalc_mem]

@[simp] theorem vSelOp_mem (d : Dev) (x b : Nat) (w : VWord) : (vSelOp d x b w).mem = d.mem := by
  simp only [vSelOp, Dev.vecCalc_mem]

@[simp] theorem vPsetOp_mem (d : Dev) (x b : Nat) (w : VWord) : (vPsetOp d x b w).mem = d.mem := by
  simp only [vPsetOp, Dev.vecCalc_mem]

@[simp] theorem vPlogOp_mem (d : Dev) (x b : Nat) (w : VWord) : (vPlogOp d x b w).mem = d.mem := by
  simp only [vPlogOp, Dev.vecCalc_mem]

@[simp] theorem vFunc_mem (op : Nat) (d : Dev) (x b : Nat) (w : VWord) : (vFunc op d x b w).mem = d.mem := by
  simp only [vFunc, Dev.vecMap_mem]

@[simp] theorem vCvtOp_mem (d : Dev) (x b : Nat) (w : VWord) : (vCvtOp d x b w).mem = d.mem := by
  simp only [vCvtOp, Dev.vecCalc_mem]

@[simp] theorem vReduce_mem (kind : Nat) (d : Dev) (x b : Nat) (w : VWord) : (vReduce kind d x b w).mem = d.mem := by
  simp only [vReduce, Dev.vecCalc_mem]

@[simp] theorem vPermOp_mem (d : Dev) (x b : Nat) (w : VWord) : (vPermOp d x b w).mem = d.mem := by
  simp only [vPermOp, Dev.vecMap_mem]

@[simp] theorem vShufOp_mem (d : Dev) (x b : Nat) (w : VWord) : (vShufOp d x b w).mem = d.mem := by
  simp only [vShufOp, Dev.vecMap_mem]

@[simp] theorem vPackOp_mem (d : Dev) (x b : Nat) (w : VWord) : (vPackOp d x b w).mem = d.mem := by
  simp only [vPackOp, Dev.vecCalc_mem]

@[simp] theorem vUnpkOp_mem (d : Dev) (x b : Nat) (w : VWord) : (vUnpkOp d x b w).mem = d.mem := by
  simp only [vUnpkOp, Dev.vecMap_mem]

@[simp] theorem vBcastOp_mem (d : Dev) (x b : Nat) (w : VWord) : (vBcastOp d x b w).mem = d.mem := by
  simp only [vBcastOp, Dev.vecMap_mem]

@[simp] theorem vMovsOp_mem (d : Dev) (x b : Nat) (w : VWord) : (vMovsOp d x b w).mem = d.mem := by
  simp only [vMovsOp, Dev.vecMap_mem]

@[simp] theorem vMovvOp_mem (d : Dev) (x b : Nat) (w : VWord) : (vMovvOp d x b w).mem = d.mem := by
  simp only [vMovvOp, Dev.vecCalc_mem]

theorem Dev.vecStoreBytes_wf {d : Dev} (h : d.mem.wf = true) (b a : Nat) (l : List Byte) : (d.vecStoreBytes b a l).mem.wf = true := by
  induction l generalizing d a with
  | nil => exact h
  | cons v vs ih =>
    unfold Dev.vecStoreBytes
    refine ih ?_ _
    split
    · exact d.wrLoc_wf _ _ h
    · exact h

@[simp] theorem Dev.countOut_mem (d : Dev) (x n : Nat) : (d.countOut x n).mem = d.mem := by
  simp only [Dev.countOut, Dev.set_mem, Dev.incSat_mem, Dev.ite_mem, ite_self]

@[simp] theorem Dev.countGather_mem (d : Dev) (x n : Nat) : (d.countGather x n).mem = d.mem := by
  simp only [Dev.countGather, Dev.set_mem, Dev.incSat_mem, Dev.ite_mem, ite_self]

@[simp] theorem Dev.countScatter_mem (d : Dev) (x n : Nat) : (d.countScatter x n).mem = d.mem := by
  simp only [Dev.countScatter, Dev.set_mem, Dev.incSat_mem, Dev.ite_mem, ite_self]

@[simp] theorem vVldOp_mem (d : Dev) (x b : Nat) (w : VWord) : (vVldOp d x b w).mem = d.mem := by
  simp only [vVldOp, Dev.vecCalc_mem, Dev.countOut_mem]

@[simp] theorem vVldcOp_mem (d : Dev) (x b : Nat) (w : VWord) : (vVldcOp d x b w).mem = d.mem := by
  simp only [vVldcOp, Dev.vecCalc_mem, Dev.countOut_mem]

theorem Dev.gated_wf {d : Dev} {k : Dev → Dev} (h : d.mem.wf = true) (hk : ∀ {d : Dev}, d.mem.wf = true → (k d).mem.wf = true)
    (x b : Nat) (w : VWord) : (d.gated x b w k).mem.wf = true := by
  unfold Dev.gated
  split
  · simpa only [Dev.nextPc_mem] using hk h
  · simpa only [Dev.nextPc_mem] using h
  · simpa only [Dev.showVec_mem, Dev.set_mem] using h

@[simp] theorem Dev.examine_mem (d : Dev) (b : Nat) (w : VWord) (vals : List Val) : (d.examine b w vals).mem = d.mem := by
  simp only [Dev.examine, Dev.noteNonfinite_mem, Dev.ite_mem, ite_self]

theorem Dev.storeElems_wf {d : Dev} (h : d.mem.wf = true) (x b a width n : Nat) (on : Nat → Bool) (g : Nat → Nat) : (d.storeElems x b a width n on g).mem.wf = true := by
  simpa only [Dev.storeElems, Dev.countOut_mem] using Dev.vecStoreBytes_wf h _ _ _

theorem vVstOp_wf {d : Dev} (h : d.mem.wf = true) (x b : Nat) (w : VWord) : (vVstOp d x b w).mem.wf = true := by
  refine Dev.gated_wf h (fun h => ?_) x b w
  refine Dev.storeElems_wf ?_ ..
  rwa [Dev.examine_mem]

theorem vVstcOp_wf {d : Dev} (h : d.mem.wf = true) (x b : Nat) (w : VWord) : (vVstcOp d x b w).mem.wf = true := by
  refine Dev.gated_wf h (fun h => ?_) x b w
  refine Dev.storeElems_wf ?_ ..
  rwa [Dev.examine_mem, Dev.orFlags_mem]

theorem vVstbOp_wf {d : Dev} (h : d.mem.wf = true) (x b : Nat) (w : VWord) : (vVstbOp d x b w).mem.wf = true := by
  refine Dev.gated_wf h (fun h => ?_) x b w
  refine Dev.vecStoreBytes_wf (Dev.storeElems_wf ?_ ..) ..
  rwa [Dev.examine_mem, Dev.orFlags_mem]

@[simp] theorem vGathOp_mem (d : Dev) (x b : Nat) (w : VWord) : (vGathOp d x b w).mem = d.mem := by
  simp only [vGathOp, Dev.vecCalc_mem, Dev.countGather_mem]

theorem vScatOp_wf {d : Dev} (h : d.mem.wf = true) (x b : Nat) (w : VWord) : (vScatOp d x b w).mem.wf = true := by
  refine Dev.gated_wf h (fun h => ?_) x b w
  refine Dev.foldl_wf _ (fun _ _ h => Dev.vecStoreBytes_wf h ..) _ _ ?_
  rwa [Dev.examine_mem, Dev.countScatter_mem]

theorem vSctaOp_wf {d : Dev} (h : d.mem.wf = true) (x b : Nat) (w : VWord) : (vSctaOp d x b w).mem.wf = true := by
  refine Dev.gated_wf h (fun h => ?_) x b w
  rw [Dev.examine_mem, Dev.orFlags_mem]
  refine Dev.foldl_fst_wf _ (fun _ _ h => Dev.vecStoreBytes_wf h ..) _ _ ?_
  rwa [Dev.countScatter_mem]

@[simp] theorem vVrecvOp_mem (d : Dev) (x b : Nat) (w : VWord) : (vVrecvOp d x b w).mem = d.mem := by
  simp only [vVrecvOp]
  split <;> simp only [Dev.showVec_mem, Dev.vecCalc_mem]

@[simp] theorem Dev.vecScalar_mem (d : Dev) (x : Nat) (w : VWord) (v : Nat) : (d.vecScalar x w v).mem = d.mem := by
  simp only [Dev.vecScalar, Dev.nextPc_mem, Dev.putVec_mem]

@[simp] theorem vSli_mem (d : Dev) (x _b : Nat) (w : VWord) : (vSli d x _b w).mem = d.mem := by
  simp only [vSli, Dev.vecScalar_mem]

@[simp] theorem vSlih_mem (d : Dev) (x _b : Nat) (w : VWord) : (vSlih d x _b w).mem = d.mem := by
  simp only [vSlih, Dev.vecScalar_mem]

@[simp] theorem vSadd_mem (d : Dev) (x _b : Nat) (w : VWord) : (vSadd d x _b w).mem = d.mem := by
  simp only [vSadd, Dev.vecScalar_mem]

@[simp] theorem vScalarOp_mem (g : Nat → Nat → Nat) (d : Dev) (x b : Nat) (w : VWord) : (vScalarOp g d x b w).mem = d.mem := by
  simp only [vScalarOp, Dev.vecScalar_mem]

@[simp] theorem vSrdOp_mem (d : Dev) (x b : Nat) (w : VWord) : (vSrdOp d x b w).mem = d.mem := by
  simp only [vSrdOp, Dev.vecScalar_mem]

@[simp] theorem Dev.vecBranch_mem (d : Dev) (x : Nat) (w : VWord) (taken : Bool) : (d.vecBranch x w taken).mem = d.mem := by
  simp only [Dev.vecBranch, Dev.showVec_mem, Dev.putVec_mem, Dev.nextPc_mem, Dev.ite_mem, ite_self]

@[simp] theorem vBneOp_mem (d : Dev) (x _b : Nat) (w : VWord) : (vBneOp d x _b w).mem = d.mem := by
  simp only [vBneOp, Dev.vecBranch_mem]

@[simp] theorem vBltOp_mem (d : Dev) (x _b : Nat) (w : VWord) : (vBltOp d x _b w).mem = d.mem := by
  simp only [vBltOp, Dev.vecBranch_mem]

@[simp] theorem vWaitOp_mem (d : Dev) (x _b : Nat) (w : VWord) : (vWaitOp d x _b w).mem = d.mem := by
  simp only [vWaitOp, Dev.nextPc_mem, Dev.showVec_mem, Dev.ite_mem, ite_self]

@[simp] theorem vIncOp_mem (d : Dev) (x _b : Nat) (w : VWord) : (vIncOp d x _b w).mem = d.mem := by
  simp only [vIncOp, Dev.nextPc_mem, Dev.incPeg_mem]

@[simp] theorem vEndOp_mem (d : Dev) (x _b : Nat) (_w : VWord) : (vEndOp d x _b _w).mem = d.mem := by
  simp only [vEndOp, Dev.showVec_mem, Dev.putVec_mem]

@[simp] theorem Dev.programCopyDone_mem (d : Dev) (x : Nat) : (d.programCopyDone x).mem = d.mem := by
  simp only [Dev.programCopyDone]
  split <;> simp only [Dev.putVec_mem]

/-! ### Bays and contexts (chapter 10) -/

@[simp] theorem Dev.reportStage_mem (d : Dev) (a : Nat) : (d.reportStage a).mem = d.mem := by
  simp only [Dev.reportStage]
  split <;> simp only [Dev.emit_mem]

@[simp] theorem Dev.nextIndex_mem (d : Dev) (b a : Nat) : (d.nextIndex b a).mem = d.mem := by
  simp only [Dev.nextIndex]
  split <;> simp only [Dev.showDisp_mem, Dev.putArr_mem, Dev.reportStage_mem, Dev.ite_mem, ite_self]

@[simp] theorem Dev.noteInputs_mem (d : Dev) (b : Nat) : (d.noteInputs b).mem = d.mem := by
  simp only [Dev.noteInputs]
  refine (Dev.foldl_mem _ (fun d x => ?_) _ _).trans ?_
  · simp only [Dev.putArr_mem]
  · rfl

@[simp] theorem Dev.slip_mem (d : Dev) (b : Nat) (own : Bool) : (d.slip b own).mem = d.mem := by
  simp only [Dev.slip]
  split <;> simp only [Dev.putBay_mem, Dev.incSat_mem]

@[simp] theorem Dev.countLate_mem (d : Dev) (b n : Nat) : (d.countLate b n).mem = d.mem := by
  simp only [Dev.countLate, Dev.set_mem, Dev.incSat_mem, Dev.ite_mem, ite_self]

@[simp] theorem Dev.ageArray_mem (d : Dev) (b t a : Nat) : (d.ageArray b t a).mem = d.mem := by
  simp only [Dev.ageArray, Dev.showDisp_mem, Dev.countLate_mem, Dev.incSat_mem, Dev.putArr_mem, Dev.ite_mem, ite_self]

@[simp] theorem Dev.agePre_mem (d : Dev) (b : Nat) (r : StepRec) : (d.agePre b r).mem = d.mem := by
  simp only [Dev.agePre]
  split
  · simp only [Dev.countLate_mem, Dev.putCtx_mem]
  · refine (Dev.foldl_mem _ (fun d x => ?_) _ _).trans ?_
    · simp only [Dev.showDisp_mem, Dev.countLate_mem, Dev.putArr_mem]
    · rfl

@[simp] theorem Dev.agePres_mem (d : Dev) (b : Nat) : (d.agePres b).mem = d.mem := by
  simp only [Dev.agePres]
  refine (Dev.foldl_mem _ (fun d x => ?_) _ _).trans ?_
  · split <;> simp only [Dev.agePre_mem]
  · split <;> simp only [Dev.agePre_mem, Dev.ite_mem, ite_self]

@[simp] theorem Dev.checkStage_mem (d : Dev) (b : Nat) (noSlip : Bool) (a : Nat) : (d.checkStage b noSlip a).mem = d.mem := by
  simp only [Dev.checkStage, Dev.nextIndex_mem, Dev.slip_mem, Dev.ite_mem, ite_self]

@[simp] theorem Dev.checkOver_mem (d : Dev) (b : Nat) : (d.checkOver b).mem = d.mem := by
  rw [Dev.checkOver]
  split
  · rw [Dev.emit_mem, Dev.setBit_mem, Dev.set_mem]
  · rfl

@[simp] theorem Dev.rollWindows_mem (d : Dev) : (d.rollWindows).mem = d.mem := by
  simp only [Dev.rollWindows]
  split
  · refine (Dev.foldl_mem _ (fun d x => ?_) _ _).trans ?_
    · simp only [Dev.sets_mem]
    · rfl
  · rfl

@[simp] theorem Dev.closeTick_mem (d : Dev) (b : Nat) : (d.closeTick b).mem = d.mem := by
  simp only [Dev.closeTick]
  split
  · rfl
  · split
    · simp only [Dev.putBay_mem]
      split
      · refine (Dev.foldl_mem _ (fun d x => ?_) _ _).trans ?_
        · simp only [Dev.ageArray_mem]
        · rfl
      · refine (Dev.foldl_mem _ (fun d x => ?_) _ _).trans ?_
        · simp only [Dev.checkStage_mem]
        · refine (Dev.foldl_mem _ (fun d x => ?_) _ _).trans ?_
          · simp only [Dev.ageArray_mem]
          · rfl
    · split
      · refine (Dev.foldl_mem _ (fun d x => ?_) _ _).trans ?_
        · simp only [Dev.ageArray_mem]
        · rfl
      · refine (Dev.foldl_mem _ (fun d x => ?_) _ _).trans ?_
        · simp only [Dev.checkStage_mem]
        · refine (Dev.foldl_mem _ (fun d x => ?_) _ _).trans ?_
          · simp only [Dev.ageArray_mem]
          · rfl

@[simp] theorem Dev.noteOver_mem (d : Dev) (b : Nat) : (d.noteOver b).mem = d.mem := by
  simp only [Dev.noteOver]
  split <;> simp only [Dev.putBay_mem, Dev.ite_mem, ite_self]

@[simp] theorem Dev.makeReady_mem (d : Dev) (k : Nat) : (d.makeReady k).mem = d.mem := by
  simp only [Dev.makeReady, Dev.set_mem, Dev.putCtx_mem, Dev.ite_mem, ite_self]

@[simp] theorem Dev.settleCtx_mem (d : Dev) (k : Nat) : (d.settleCtx k).mem = d.mem := by
  simp only [Dev.settleCtx, Dev.makeReady_mem, Dev.set_mem, Dev.ite_mem, ite_self]

@[simp] theorem Dev.ageCtx_mem (d : Dev) (b c : Nat) : (d.ageCtx b c).mem = d.mem := by
  simp only [Dev.ageCtx, Dev.set_mem, Dev.incSat_mem, Dev.ite_mem, ite_self]

@[simp] theorem Dev.endWait_mem (d : Dev) (b c : Nat) : (d.endWait b c).mem = d.mem := by
  simp only [Dev.endWait, Dev.set_mem, Dev.putCtx_mem]

theorem Dev.reportStep_wf {d : Dev} (h : d.mem.wf = true) (b : Nat) (r : StepRec) (status : Nat) : (d.reportStep b r status).mem.wf = true := by
  simp only [Dev.reportStep, Dev.sets_mem]
  split
  · simp only [Dev.incWrap_mem]
    split
    · simpa only [Dev.incSat_mem] using Dev.putBayBytes_wf _ _ _ _ h
    · exact Dev.putBayBytes_wf _ _ _ _ h
  · exact h

@[simp] theorem Dev.updateScale_mem (d : Dev) (b : Nat) : (d.updateScale b).mem = d.mem := by
  simp only [Dev.updateScale, Dev.emit_mem, Dev.set_mem, Dev.incSat_mem, Dev.ite_mem, ite_self]

@[simp] theorem Dev.closeTraining_mem (d : Dev) (b : Nat) (r : StepRec) : (d.closeTraining b r).mem = d.mem := by
  simp only [Dev.closeTraining, Dev.updateScale_mem, Dev.incSat_mem, Dev.set_mem, Dev.incWrap_mem, Dev.ite_mem, ite_self]

@[simp] theorem Dev.jnlDiff_mem (d old : Dev) (origin off : Nat) : (d.jnlDiff old origin off).mem = d.mem := by
  simp only [Dev.jnlDiff, Dev.jnlChange_mem, Dev.ite_mem, ite_self]

@[simp] theorem Dev.closeSlice_mem (d : Dev) (x : Nat) : (d.closeSlice x).mem = d.mem := by
  simp only [Dev.closeSlice, Dev.showVec_mem, Dev.set_mem, Dev.incSat_mem, Dev.putVec_mem, Dev.ite_mem, ite_self]

theorem Dev.closeStep_wf {d : Dev} (h : d.mem.wf = true) (b : Nat) : (d.closeStep b).mem.wf = true := by
  simp only [Dev.closeStep]
  split
  · exact h
  · simp only [Dev.settleCtx_mem, Dev.incSat_mem, Dev.set_mem, Dev.putBay_mem]
    refine Dev.foldl_wf _ (fun d x h => ?_) _ _ ?_
    · simpa only [Dev.set_mem, Dev.ite_mem, ite_self] using h
    · refine Dev.foldl_wf _ (fun d x h => ?_) _ _ ?_
      · simpa only [Dev.unstalled_mem, Dev.closeSlice_mem] using h
      · exact Dev.reportStep_wf (Dev.complete_wf (by simpa only [Dev.jnlDiff_mem, Dev.closeTraining_mem] using h) _ _ _) _ _ _

@[simp] theorem Dev.startArray_mem (d : Dev) (b a : Nat) : (d.startArray b a).mem = d.mem := by
  simp only [Dev.startArray, Dev.reportStage_mem, Dev.showDisp_mem, Dev.set_mem, Dev.putArr_mem, Dev.haltArray_mem, Dev.ite_mem, ite_self]

@[simp] theorem Dev.startSlice_mem (d : Dev) (x : Nat) : (d.startSlice x).mem = d.mem := by
  simp only [Dev.startSlice, Dev.showVec_mem, Dev.putVec_mem]

@[simp] theorem Dev.startDma_mem (d : Dev) (e : Nat) : (d.startDma e).mem = d.mem := by
  simp only [Dev.startDma, Dev.sets_mem, Dev.putDma_mem]

@[simp] theorem Dev.startPegs_mem (d : Dev) (b : Nat) : (d.startPegs b).mem = d.mem := by
  simp only [Dev.startPegs]
  refine (Dev.foldl_mem _ (fun d x => ?_) _ _).trans ?_
  · simp only [Dev.putAg_mem, Dev.set_mem]
  · refine (Dev.foldl_mem _ (fun d x => ?_) _ _).trans ?_
    · simp only [Dev.set_mem]
    · rfl

@[simp] theorem Dev.startFlags_mem (d : Dev) (b : Nat) : (d.startFlags b).mem = d.mem := by
  simp only [Dev.startFlags, Dev.sets_mem]

theorem Dev.startStep_wf {d : Dev} (h : d.mem.wf = true) (b c : Nat) (cmd : Cmd) : (d.startStep b c cmd).mem.wf = true := by
  rw [Dev.startStep, Dev.set_mem, Dev.set_mem, Dev.endWait_mem]
  refine Dev.foldl_wf _ (fun d x h => ?_) _ _ ?_
  · rw [Dev.startDma_mem]
    exact h
  · refine Dev.foldl_wf _ (fun d x h => ?_) _ _ ?_
    · rw [Dev.startArray_mem, Dev.startSlice_mem]
      exact h
    · split
      · refine Dev.putBayBytes_wf _ _ _ _ ?_
        rw [Dev.startPegs_mem, Dev.putBay_mem, Dev.incWrap_mem, Dev.startFlags_mem, Dev.startCmd_mem]
        exact h
      · rw [Dev.startPegs_mem, Dev.putBay_mem, Dev.incWrap_mem, Dev.startFlags_mem, Dev.startCmd_mem]
        exact h

@[simp] theorem Dev.resumeStep_mem (d : Dev) (b c : Nat) (r : StepRec) : (d.resumeStep b c r).mem = d.mem := by
  simp only [Dev.resumeStep, Dev.set_mem, Dev.sets_mem, Dev.endWait_mem]
  refine (Dev.foldl_mem _ (fun d x => ?_) _ _).trans ?_
  · simp only [Dev.showVec_mem, Dev.showDisp_mem]
  · simp only [Dev.putBay_mem, Dev.putCtx_mem]

@[simp] theorem Dev.beginDrain_mem (d : Dev) (b : Nat) : (d.beginDrain b).mem = d.mem := by
  simp only [Dev.beginDrain]
  split
  · rfl
  · simp only [Dev.set_mem]
    refine (Dev.foldl_mem _ (fun d x => ?_) _ _).trans ?_
    · simp only [Dev.unstalled_mem, Dev.ite_mem, ite_self]
    · simp only [Dev.incSat_mem, Dev.putBay_mem]

theorem Dev.suspend_wf {d : Dev} (h : d.mem.wf = true) (k : Nat) (l : List (Cmd × Nat)) : (d.suspend k l).mem.wf = true := by
  simp only [Dev.suspend]
  refine Dev.foldl_wf _ (fun d x h => ?_) _ _ ?_
  · exact Dev.complete_wf h _ _ _
  · simpa only [Dev.putCtx_mem, Dev.set_mem] using h

theorem Dev.drainEnd_wf {d : Dev} (h : d.mem.wf = true) (b : Nat) : (d.drainEnd b).mem.wf = true := by
  simp only [Dev.drainEnd]
  split
  · split
    · split
      · simpa only [Dev.makeReady_mem, Dev.set_mem, Dev.sets_mem, Dev.putCtx_mem, Dev.putBay_mem] using h
      · exact Dev.suspend_wf (by simpa only [Dev.makeReady_mem, Dev.set_mem, Dev.sets_mem, Dev.putCtx_mem, Dev.putBay_mem] using h) _ _
    · exact h
  · exact h

theorem Dev.suspendDue_wf {d : Dev} (h : d.mem.wf = true) (b c : Nat) : (d.suspendDue b c).mem.wf = true := by
  simp only [Dev.suspendDue]
  split
  · exact h
  · split
    · split
      · simpa only [Dev.beginDrain_mem, Dev.ite_mem, ite_self] using h
      · exact Dev.suspend_wf h _ _
    · exact Dev.suspend_wf h _ _

@[simp] theorem Dev.urgentDrain_mem (d : Dev) (b : Nat) : (d.urgentDrain b).mem = d.mem := by
  simp only [Dev.urgentDrain]
  split <;> simp only [Dev.beginDrain_mem, Dev.ite_mem, ite_self]

theorem Dev.preemptPoints_wf {d : Dev} (h : d.mem.wf = true) (b : Nat) : (d.preemptPoints b).mem.wf = true := by
  simp only [Dev.preemptPoints, Dev.urgentDrain_mem]
  refine Dev.foldl_wf _ (fun d x h => ?_) _ _ ?_
  · exact Dev.suspendDue_wf h _ _
  · exact h

@[simp] theorem Dev.startSwitch_mem (d : Dev) (b c : Nat) : (d.startSwitch b c).mem = d.mem := by
  simp only [Dev.startSwitch, Dev.sets_mem, Dev.putBay_mem]
  split <;> simp only [Dev.incSat_mem, Dev.ite_mem, ite_self]

theorem Dev.writeArea_wf {d : Dev} (h : d.mem.wf = true) (b : Nat) (t : Tab Byte) : (d.writeArea b t).mem.wf = true := by
  simp only [Dev.writeArea]
  refine Dev.foldl_wf _ (fun d x h => ?_) _ _ ?_
  · exact Dev.putBayByte_wf _ _ _ _ h
  · exact h

theorem Dev.saveDone_wf {d : Dev} (h : d.mem.wf = true) (b us : Nat) (lost : Option Nat) : (d.saveDone b us lost).mem.wf = true := by
  simp only [Dev.saveDone]
  split
  · exact h
  · split
    · exact h
    · split
      · split
        · simpa only [Dev.sets_mem, Dev.putBay_mem, Dev.set_mem] using Dev.tmLost_wf h _ _
        · simpa only [Dev.putBay_mem, Dev.set_mem, Dev.putCtx_mem] using Dev.putBayBytes_wf _ _ _ _ (by simpa only [Dev.fresh_mem, Dev.set_mem] using Dev.tmLost_wf h _ _)
      · split
        · simpa only [Dev.sets_mem, Dev.putBay_mem, Dev.set_mem] using h
        · simpa only [Dev.putBay_mem, Dev.set_mem, Dev.putCtx_mem] using Dev.putBayBytes_wf _ _ _ _ (by simpa only [Dev.fresh_mem, Dev.set_mem] using h)

@[simp] theorem Dev.loadPegs_mem (d : Dev) (b : Nat) (t : Tab Reg64) : (d.loadPegs b t).mem = d.mem := by
  simp only [Dev.loadPegs]
  refine (Dev.foldl_mem _ (fun d x => ?_) _ _).trans ?_
  · refine (Dev.foldl_mem _ (fun d x => ?_) _ _).trans ?_
    · simp only [Dev.set_mem]
    · rfl
  · refine (Dev.foldl_mem _ (fun d x => ?_) _ _).trans ?_
    · simp only [Dev.wr_mem]
    · rfl

theorem Dev.loadState_wf {d : Dev} (h : d.mem.wf = true) (b : Nat) (sv : SavedState) (full : Bool) : (d.loadState b sv full).mem.wf = true := by
  unfold Dev.loadState
  extract_lets d₁ d₂ d₃ d₄
  have h₂ : d₂.mem = d₁.mem := by
    refine Dev.foldl_mem _ (fun d e => ?_) _ _
    extract_lets u e₁
    have he₁ : e₁.mem = d.mem := by
      unfold e₁
      split
      · exact Dev.putDma_mem ..
      · rfl
    split
    · rw [Dev.putDma_mem, he₁]
    · exact he₁
  have h₃ : d₃.mem = d₂.mem := by
    refine Dev.foldl_mem _ (fun d a => ?_) _ _
    extract_lets u e₁ e₂
    have he₁ : e₁.mem = d.mem := by
      unfold e₁
      split
      · exact Dev.putArr_mem ..
      · rfl
    have he₂ : e₂.mem = e₁.mem := by
      unfold e₂
      split
      · exact Dev.putVec_mem ..
      · rfl
    rw [Dev.putArr_mem, he₂, he₁]
  have h₄ : d₄.mem = d₃.mem := by
    refine Dev.foldl_mem _ (fun d f => ?_) _ _
    split
    · exact Dev.set_mem ..
    · rfl
  have hd₄ : d₄.mem.wf = true := Dev.wf_of_mem_eq (h₄.trans (h₃.trans (h₂.trans (Dev.loadPegs_mem ..)))) h
  split
  · exact Dev.writeArea_wf hd₄ ..
  · exact hd₄

@[simp] theorem Dev.savedOf_mem (d : Dev) (b c : Nat) (sv : SavedState) : (d.savedOf b c sv).2.mem = d.mem := by
  unfold Dev.savedOf
  split <;> rfl

theorem Dev.restoreDone_wf {d : Dev} (h : d.mem.wf = true) (b us : Nat) : (d.restoreDone b us).mem.wf = true := by
  simp only [Dev.restoreDone]
  split
  · exact h
  · split
    · exact h
    · split
      · simpa only [Dev.set_mem, Dev.putBay_mem] using h
      · simp only [Dev.putBay_mem]
        split
        · split
          · split
            · simpa only [Dev.set_mem, Dev.sets_mem, Dev.putCtx_mem] using Dev.loadState_wf (by simpa only [Dev.savedOf_mem, Dev.set_mem] using h) _ _ _
            · simpa only [Dev.sets_mem, Dev.putCtx_mem, Dev.set_mem] using Dev.loadState_wf (by simpa only [Dev.savedOf_mem, Dev.set_mem] using h) _ _ _
          · split
            · simpa only [Dev.set_mem, Dev.sets_mem, Dev.putCtx_mem] using Dev.loadState_wf (by simpa only [Dev.savedOf_mem, Dev.set_mem] using h) _ _ _
            · simpa only [Dev.sets_mem, Dev.putCtx_mem, Dev.set_mem] using Dev.loadState_wf (by simpa only [Dev.savedOf_mem, Dev.set_mem] using h) _ _ _
        · simpa only [Dev.set_mem, Dev.sets_mem, Dev.putCtx_mem, Dev.ite_mem, ite_self] using h

@[simp] theorem Dev.gateDecision_mem (d : Dev) (b : Nat) : (d.gateDecision b).mem = d.mem := by
  simp only [Dev.gateDecision]
  split <;> simp only [Dev.set_mem, Dev.ite_mem, ite_self]

/-! ### Fabric packets (chapter 12) -/

@[simp] theorem Dev.departs_mem (d : Dev) (p : Nat) (pkt : Packet) : (d.departs p pkt).1.mem = d.mem := by
  unfold Dev.departs
  split <;> rfl

theorem Dev.protect_mem {d e : Dev} {p : Nat} {t : Option SecTag} (h : d.protect p = some (t, e)) : e.mem = d.mem := by
  unfold Dev.protect at h
  dsimp only at h
  repeat' split at h
  all_goals cases h
  all_goals rfl

theorem Dev.transmit_mem {d e : Dev} {p : Nat} {q : QPkt} (h : d.transmit p q = some e) : e.mem = d.mem := by
  unfold Dev.transmit at h
  dsimp only at h
  split at h
  · split at h
    · cases h
    · split at h
      · cases h; rfl
      · split at h
        · cases h; rfl
        · next heq =>
          cases h
          rw [Dev.emit_mem, Dev.updPort_mem, Dev.protect_mem heq]
  · split at h
    · cases h
      rw [Dev.emit_mem, Dev.departs_mem, Dev.putPort_mem]
    · cases h

@[simp] theorem Dev.sendQueued_mem (d : Dev) (p n : Nat) : (d.sendQueued p n).mem = d.mem := by
  induction n generalizing d with
  | zero => rfl
  | succ n ih =>
    unfold Dev.sendQueued
    split
    · rfl
    · split
      · next heq => rw [ih, Dev.transmit_mem heq, Dev.putPort_mem]
      · rfl

@[simp] theorem Dev.pfcCheck_mem (d : Dev) (p : Nat) : (d.pfcCheck p).mem = d.mem := by
  simp only [Dev.pfcCheck]
  split
  · rfl
  · refine (Dev.foldl_mem _ (fun d x => ?_) _ _).trans ?_
    · simp only [Dev.emit_mem, Dev.updPort_mem, Dev.ite_mem, ite_self]
    · rfl

@[simp] theorem Dev.leaveBuffer_mem (d : Dev) (p : Nat) : (d.leaveBuffer p).mem = d.mem := by
  simp only [Dev.leaveBuffer, Dev.pfcCheck_mem, Dev.putPort_mem, Dev.ite_mem, ite_self]

@[simp] theorem Dev.leaveBuffers_mem (d : Dev) : (d.leaveBuffers).mem = d.mem := by
  simp only [Dev.leaveBuffers]
  refine (Dev.foldl_mem _ (fun d x => ?_) _ _).trans ?_
  · simp only [Dev.leaveBuffer_mem]
  · rfl

@[simp] theorem Dev.drainQueue_mem (d : Dev) (p n : Nat) : (d.drainQueue p n).mem = d.mem := by
  simp only [Dev.drainQueue, Dev.leaveBuffers_mem, Dev.sendQueued_mem, Dev.ite_mem, ite_self]

@[simp] theorem Dev.toPort_mem (d : Dev) (p mac : Nat) (pkt : Packet) (buf : Option Nat) : (d.toPort p mac pkt buf).mem = d.mem := by
  unfold Dev.toPort
  dsimp only
  split
  · rfl
  · split
    · cases ht : d.transmit p { pkt := pkt, mac := mac, buf := buf } with
      | none => rw [Option.getD_none, Dev.updPort_mem]
      | some e => exact Dev.transmit_mem ht
    · split
      · rw [Dev.sendQueued_mem, Dev.updPort_mem]
      · rw [Dev.updPort_mem]

@[simp] theorem Dev.deliver_mem (d : Dev) (p : Nat) (pkt : Packet) (buf : Option Nat) : (d.deliver p pkt buf).mem = d.mem := by
  simp only [Dev.deliver]

@[simp] theorem Dev.sendRouted_mem (d : Dev) (pkt : Packet) (buf : Option Nat) : (d.sendRouted pkt buf).mem = d.mem := by
  simp only [Dev.sendRouted]
  repeat' split
  all_goals simp only [Dev.deliver_mem, Dev.toPort_mem, Dev.incSat_mem]

theorem Dev.forward_mem {d : Dev} {send : Dev → Packet → Dev} (hsend : ∀ d q, (send d q).mem = d.mem) (pkt : Packet) :
    (d.forward send pkt).mem = d.mem := by
  unfold Dev.forward
  split
  · exact hsend _ _
  · rfl

@[simp] theorem Dev.toFace_mem (d : Dev) (f : Nat) (pkt : Packet) (buf : Option Nat) : (d.toFace f pkt buf).mem = d.mem := by
  simp only [Dev.toFace]
  split <;> simp only [Dev.toPort_mem]

@[simp] theorem Dev.flood_mem (d : Dev) (arrival : Option Nat) (pkt : Packet) (buf : Option Nat) : (d.flood arrival pkt buf).mem = d.mem := by
  simp only [Dev.flood]
  refine (Dev.foldl_mem _ (fun d x => ?_) _ _).trans ?_
  · split
    · refine (Dev.foldl_mem _ (fun d x => ?_) _ _).trans ?_
      · simp only [Dev.toPort_mem, Dev.ite_mem, ite_self]
      · rfl
    · rfl
  · refine (Dev.foldl_mem _ (fun d x => ?_) _ _).trans ?_
    · simp only [Dev.toFace_mem, Dev.ite_mem, ite_self]
    · rfl

@[simp] theorem Dev.broadcast_mem (d : Dev) (scope : Nat) (pkt : Packet) : (d.broadcast scope pkt).mem = d.mem := by
  simp only [Dev.broadcast, Dev.flood_mem]

@[simp] theorem Dev.multicastOut_mem (d : Dev) (pkt : Packet) (buf : Option Nat) : (d.multicastOut pkt buf).1.mem = d.mem := by
  unfold Dev.multicastOut
  dsimp only
  split
  · rfl
  · simp only [Dev.toPort_mem, Dev.ite_mem, ite_self]
    exact Dev.foldl_mem _ (fun d f => by simp only [Dev.toFace_mem, Dev.ite_mem, ite_self]) _ _

@[simp] theorem Dev.reroute_mem (d : Dev) (p : Nat) (which : QPkt → Bool) : (d.reroute p which).mem = d.mem := by
  simp only [Dev.reroute, Dev.leaveBuffers_mem]
  refine (Dev.foldl_mem _ (fun d x => ?_) _ _).trans ?_
  · simp only [Dev.toFace_mem, Dev.ite_mem, ite_self, Dev.sendRouted_mem]
  · simp only [Dev.updPort_mem]

@[simp] theorem Dev.showResend_mem (d : Dev) : (d.showResend).mem = d.mem := by
  simp only [Dev.showResend, Dev.set_mem]

@[simp] theorem Dev.sendNow_mem (d : Dev) (pkt : Packet) (o : Owner) : (d.sendNow pkt o).mem = d.mem := by
  simp only [Dev.sendNow, Dev.sendRouted_mem, Dev.showResend_mem]

@[simp] theorem Dev.sendHeld_mem (d : Dev) (pkt : Packet) (o : Owner) : (d.sendHeld pkt o).mem = d.mem := by
  simp only [Dev.sendHeld, Dev.sendNow_mem, Dev.ite_mem, ite_self]

@[simp] theorem Dev.sendWaiting_mem (d : Dev) (n : Nat) : (d.sendWaiting n).mem = d.mem := by
  induction n generalizing d with
  | zero => rfl
  | succ n ih =>
    unfold Dev.sendWaiting
    repeat' split
    · simp only [ih, Dev.sendNow_mem]
    · rfl
    · rfl

@[simp] theorem Dev.releaseSent_mem (d : Dev) (gone : SentPkt → Bool) : (d.releaseSent gone).mem = d.mem := by
  simp only [Dev.releaseSent, Dev.showResend_mem, Dev.sendWaiting_mem]

@[simp] theorem Dev.forget_mem (d : Dev) (p : Owner → Bool) : (d.forget p).mem = d.mem := by
  simp only [Dev.forget, Dev.releaseSent_mem]

@[simp] theorem Dev.sendAck_mem (d : Dev) (src tc : Nat) : (d.sendAck src tc).mem = d.mem := by
  simp only [Dev.sendAck, Dev.sendRouted_mem, Dev.putStream_mem]

@[simp] theorem Dev.rxMark_mem (d : Dev) (pkt : Packet) : (d.rxMark pkt).mem = d.mem := by
  simp only [Dev.rxMark, Dev.putStream_mem]

@[simp] theorem Dev.ackDue_mem (d : Dev) (pkt : Packet) : (d.ackDue pkt).mem = d.mem := by
  simp only [Dev.ackDue, Dev.sendAck_mem, Dev.putStream_mem, Dev.ite_mem, ite_self]

@[simp] theorem Dev.nack_mem (d : Dev) (pkt : Packet) (status : Nat) : (d.nack pkt status).mem = d.mem := by
  simp only [Dev.nack, Dev.sendRouted_mem, Dev.incSat_mem, Dev.rxMark_mem]

theorem Dev.receive_mem {d : Dev} {perform : Dev → Dev} (hperform : ∀ d, (perform d).mem = d.mem) (pkt : Packet) :
    (d.receive pkt perform).mem = d.mem := by
  unfold Dev.receive
  split
  · exact hperform _
  · simp only [Dev.ackDue_mem, Dev.incSat_mem]
  · rfl

theorem Dev.receive_wf {d : Dev} {perform : Dev → Dev} (h : d.mem.wf = true)
    (hperform : ∀ {d : Dev}, d.mem.wf = true → (perform d).mem.wf = true) (pkt : Packet) : (d.receive pkt perform).mem.wf = true := by
  unfold Dev.receive
  split
  · exact hperform h
  · simpa only [Dev.ackDue_mem, Dev.incSat_mem] using h
  · exact h

theorem Dev.takePacket_mem {d e : Dev} {op : Nat} {type : Option Nat} {p : Nat} {pkt : Packet}
    (h : d.takePacket op type = some (p, pkt, e)) : e.mem = d.mem := by
  unfold Dev.takePacket at h
  split at h
  · cases h
    simp only [Dev.leaveBuffers_mem]
  · cases h

theorem Dev.onPacket_mem {d : Dev} {f : Dev → Nat → Packet → Dev} (hf : ∀ d p pkt, (f d p pkt).mem = d.mem) (op : Nat)
    (type : Option Nat) : (d.onPacket op type f).mem = d.mem := by
  unfold Dev.onPacket
  split
  · next heq => exact (hf _ _ _).trans (Dev.takePacket_mem heq)
  · rfl

theorem Dev.onPacket_wf {d : Dev} {f : Dev → Nat → Packet → Dev} (h : d.mem.wf = true)
    (hf : ∀ {d : Dev}, d.mem.wf = true → ∀ p pkt, (f d p pkt).mem.wf = true) (op : Nat) (type : Option Nat) :
    (d.onPacket op type f).mem.wf = true := by
  unfold Dev.onPacket
  split
  · next heq => exact hf (by rw [Dev.takePacket_mem heq]; exact h) _ _
  · exact h

/-! ### HBM (chapter 11) -/

@[simp] theorem Dev.rowIsDue_mem (d : Dev) (row cause : Nat) : (d.rowIsDue row cause).mem = d.mem := by
  simp only [Dev.rowIsDue, Dev.ite_mem, ite_self]

theorem Dev.hbmError_wf {d : Dev} (h : d.mem.wf = true) (a : Nat) (f : EccFinding) (patrol : Bool) : (d.hbmError a f patrol).mem.wf = true := by
  simp only [Dev.hbmError]
  split
  · simpa only [Dev.rowIsDue_mem, Dev.suspect_mem, Dev.set_mem, Dev.incWrap_mem, Dev.sets_mem, Dev.ite_mem, ite_self] using h
  · simpa only [Dev.rowIsDue_mem, Dev.incSat_mem, Dev.freeSuspect_mem] using Dev.zeroLocal_wf _ _ _ (by simpa only [Dev.set_mem, Dev.incSat_mem, Dev.sets_mem] using h)

theorem Dev.hbmPatrol_wf {d : Dev} (h : d.mem.wf = true) (a : Nat) (f : EccFinding) (by_ : HbmReader) : (d.hbmPatrol a f by_).mem.wf = true := by
  simp only [Dev.hbmPatrol]
  split
  · exact h
  · split
    · split
      · exact Dev.hbmError_wf h _ _ _
      · exact h
    · split
      · simpa only [Dev.endStepEarly_mem] using Dev.hbmError_wf h _ _ _
      · exact Dev.hbmError_wf h _ _ _
    · exact Dev.hbmError_wf h _ _ _

@[simp] theorem Dev.hbmTemps_mem (d : Dev) (temps : List Nat) : (d.hbmTemps temps).mem = d.mem := by
  simp only [Dev.hbmTemps]
  split
  · rfl
  · simp only [Dev.set_mem]
    refine (Dev.foldl_mem _ (fun d x => ?_) _ _).trans ?_
    · simp only [Dev.sets_mem, Dev.set_mem, Dev.ite_mem, ite_self]
    · rfl

@[simp] theorem Dev.showFree_mem (d : Dev) : (d.showFree).mem = d.mem := by
  simp only [Dev.showFree, Dev.sets_mem]

@[simp] theorem Dev.hbmRowRepair_mem (d : Dev) (a : Nat) : (d.hbmRowRepair a).mem = d.mem := by
  simp only [Dev.hbmRowRepair]
  split <;> simp only [Dev.fieldUpdate_mem, Dev.jnlEvent_mem, Dev.set_mem, Dev.incSat_mem, Dev.showFree_mem, Dev.setBit_mem, Dev.ite_mem, ite_self]

theorem Dev.pageZeroed_wf {d : Dev} (h : d.mem.wf = true) (u : Nat) : (d.pageZeroed u).mem.wf = true := by
  unfold Dev.pageZeroed
  split
  · rw [Dev.showFree_mem]
    exact Mems.wf_filterLoc h _
  · exact h

theorem Dev.sealPages_wf {d : Dev} (h : d.mem.wf = true) (b : Nat) : (d.sealPages b).mem.wf = true := by
  simp only [Dev.sealPages]
  split
  · exact h
  · refine Dev.foldl_wf _ (fun d x h => ?_) _ _ ?_
    · refine Dev.foldl_wf _ (fun d x h => ?_) _ _ ?_
      · exact Dev.putBytes_wf _ _ _ h
      · exact h
    · exact h

theorem Dev.releasePages_wf {d : Dev} (h : d.mem.wf = true) (b : Nat) : (d.releasePages b).mem.wf = true := by
  simp only [Dev.releasePages]
  split
  · exact h
  · exact Dev.sealPages_wf h _

/-! ### Releases (chapter 8) -/

@[simp] theorem Dev.resetConfig_mem (d : Dev) (origin : Nat) (offs : List Nat) : (d.resetConfig origin offs).mem = d.mem := by
  simp only [Dev.resetConfig]
  refine (Dev.foldl_mem _ (fun d x => ?_) _ _).trans ?_
  · simp only [Dev.wrJ_mem]
  · rfl

@[simp] theorem Dev.stopArray_mem (d : Dev) (a : Nat) : (d.stopArray a).mem = d.mem := by
  simp only [Dev.stopArray, Dev.showDisp_mem, Dev.sets_mem, Dev.unstalled_mem, Dev.putVec_mem, Dev.putArr_mem]

theorem Dev.releaseBay_wf {d : Dev} (h : d.mem.wf = true) (b : Nat) : (d.releaseBay b).mem.wf = true := by
  rw [Dev.releaseBay, Dev.putBay_mem, Dev.sets_mem]
  refine Dev.releasePages_wf ?_ _
  refine Dev.foldl_wf _ (fun d x h => ?_) _ _ ?_
  · rw [Dev.set_mem]
    exact h
  · rw [Dev.resetConfig_mem]
    refine Dev.foldl_wf _ (fun d x h => ?_) _ _ ?_
    · rw [Dev.resetConfig_mem]
      exact h
    · refine Dev.foldl_wf _ (fun d x h => ?_) _ _ ?_
      · rw [Dev.set_mem, Dev.putDma_mem]
        exact h
      · refine Dev.foldl_wf _ (fun d x h => ?_) _ _ ?_
        · rw [Dev.stopArray_mem]
          exact h
        · rw [Dev.discardJoints_mem]
          exact h

theorem Dev.scrubBay_wf {d : Dev} (h : d.mem.wf = true) (b : Nat) : (d.scrubBay b).mem.wf = true := by
  rw [Dev.scrubBay, Dev.showFree_mem, Dev.putBay_mem, Dev.sets_mem]
  refine Dev.foldl_wf _ (fun d x h => ?_) _ _ ?_
  · refine Dev.zeroLocal_wf _ _ _ ?_
    exact h
  · exact h

@[simp] theorem Dev.clearContexts_mem (d : Dev) (b : Nat) : (d.clearContexts b).mem = d.mem := by
  simp only [Dev.clearContexts]
  refine (Dev.foldl_mem _ (fun d x => ?_) _ _).trans ?_
  · simp only [Dev.sets_mem, Dev.putCtx_mem]
  · rfl

theorem Dev.endPre_wf {d : Dev} (h : d.mem.wf = true) (b c status : Nat) (damaged : Bool) : (d.endPre b c status damaged).mem.wf = true := by
  simp only [Dev.endPre]
  split
  · simpa only [Dev.incSat_mem, Dev.putCtx_mem] using Dev.reportStep_wf (Dev.complete_wf h _ _ _) _ _ _
  · exact h

@[simp] theorem Dev.unhalt_mem (d : Dev) (a : Nat) : (d.unhalt a).mem = d.mem := by
  simp only [Dev.unhalt, Dev.set_mem, Dev.ite_mem, ite_self]

theorem Dev.beginStrike_wf {d : Dev} (h : d.mem.wf = true) (b : Nat) : (d.beginStrike b).mem.wf = true := by
  rw [Dev.beginStrike, Dev.sets_mem, Dev.putBay_mem, Dev.clearContexts_mem]
  refine Dev.foldl_wf _ (fun d x h => ?_) _ _ ?_
  · rw [Dev.unhalt_mem]
    exact h
  · refine Dev.foldl_wf _ (fun d x h => ?_) _ _ ?_
    · dsimp only
      refine Dev.foldl_wf _ (fun d x h => ?_) _ _ ?_
      · refine Dev.complete_wf ?_ _ _ _
        exact h
      · refine Dev.foldl_wf _ (fun d x h => ?_) _ _ ?_
        · refine Dev.complete_wf ?_ _ _ _
          exact h
        · exact h
    · refine Dev.foldl_wf _ (fun d x h => ?_) _ _ ?_
      · refine Dev.endPre_wf ?_ _ _ _ _
        exact h
      · split
        · refine Dev.closeStep_wf ?_ _
          rw [Dev.putBay_mem, Dev.set_mem]
          exact h
        · rw [Dev.set_mem]
          exact h

theorem Dev.strikeRelease_wf {d : Dev} (h : d.mem.wf = true) (b : Nat) : (d.strikeRelease b).mem.wf = true := by
  simp only [Dev.strikeRelease]
  split
  · exact Dev.releaseBay_wf h _
  · exact h

theorem Dev.strikeScrubDone_wf {d : Dev} (h : d.mem.wf = true) (b : Nat) : (d.strikeScrubDone b).mem.wf = true := by
  simp only [Dev.strikeScrubDone]
  split
  · refine Dev.foldl_wf _ (fun d x h => ?_) _ _ ?_
    · exact Dev.complete_wf h _ _ _
    · exact Dev.scrubBay_wf h _
  · exact h

theorem Dev.raiseFail_wf {d : Dev} (h : d.mem.wf = true) (b status : Nat) : (d.raiseFail b status).mem.wf = true := by
  rw [Dev.raiseFail]
  split
  · exact h
  · dsimp only
    refine Dev.complete_wf ?_ _ _ _
    rw [Dev.jnlEventAfter_mem, Dev.set_mem]
    refine Dev.scrubBay_wf ?_ _
    rw [Dev.clearContexts_mem]
    split
    · refine Dev.releaseBay_wf ?_ _
      exact h
    · exact h

theorem Dev.strikeCmd_wf {d : Dev} (h : d.mem.wf = true) (c : Cmd) : (d.strikeCmd c).mem.wf = true := by
  simp only [Dev.strikeCmd]
  split
  · exact Dev.complete_wf (by simpa only [Dev.startCmd_mem] using h) _ _ _
  · split
    · exact Dev.complete_wf (Dev.raiseFail_wf (by simpa only [Dev.startCmd_mem] using h) _ _) _ _ _
    · simpa only [Dev.putBay_mem, Dev.startCmd_mem] using h

/-! ### Raises and strikes (chapter 8) -/

theorem Dev.loadBent_wf {d : Dev} (h : d.mem.wf = true) (b : Nat) (img : List Byte) : (d.loadBent b img).mem.wf = true := by
  simp only [Dev.loadBent]
  refine Dev.foldl_wf _ (fun d x h => ?_) _ _ ?_
  · simpa only [Dev.commitJoint_mem] using h
  · refine Dev.foldl_wf _ (fun d x h => ?_) _ _ ?_
    · simpa only [Dev.writeFields_mem] using h
    · refine Dev.foldl_wf _ (fun d x h => ?_) _ _ ?_
      · simpa only [Dev.wrJ_mem] using h
      · refine Dev.foldl_wf _ (fun d x h => ?_) _ _ ?_
        · simpa only [Dev.wrJ_mem] using h
        · simp only [Dev.putBay_mem]
          refine Dev.foldl_wf _ (fun d x h => ?_) _ _ ?_
          · split
            · exact Dev.putBayBytes_wf _ _ _ _ h
            · exact h
          · simp only [Dev.putBay_mem]
            refine Dev.foldl_wf _ (fun d x h => ?_) _ _ ?_
            · exact Dev.putBayBytes_wf _ _ _ _ h
            · exact h

@[simp] theorem Dev.applyKind1_mem (d : Dev) (b : Nat) (e : Nat × Nat) : (d.applyKind1 b e).mem = d.mem := by
  simp only [Dev.applyKind1]
  repeat' split
  all_goals simp only [Dev.jnlChange_mem, Dev.wr_mem]

@[simp] theorem Dev.asFree_mem (d : Dev) (b : Nat) (img : List Byte) : (d.asFree b img).mem = d.mem := by
  simp only [Dev.asFree]
  refine (Dev.foldl_mem _ (fun d x => ?_) _ _).trans ?_
  · refine (Dev.foldl_mem _ (fun d x => ?_) _ _).trans ?_
    · simp only [Dev.wr_mem]
    · rfl
  · rfl

theorem Dev.scratch_wf {d : Dev} (h : d.mem.wf = true) (b : Nat) (img : List Byte) : (d.scratch b img).mem.wf = true := by
  unfold Dev.scratch
  rw [Dev.foldl_mem _ (fun _ _ => Dev.applyKind1_mem ..)]
  refine Dev.loadBent_wf ?_ ..
  refine Dev.wf_of_mem_eq (d := { d.asFree b img with mem := { d.mem with loc := [] }, bay := [] }) ?_ (Mems.wf_emptyLoc h)
  refine (Dev.sets_mem ..).trans ((Dev.foldl_mem _ (fun _ _ => ?_) _ _).trans (Dev.putBay_mem ..))
  rw [Dev.ite_mem, Dev.set_mem, ite_self]

theorem Dev.raiseCmd_wf {d : Dev} (h : d.mem.wf = true) (c : Cmd) : (d.raiseCmd c).mem.wf = true := by
  simp only [Dev.raiseCmd]
  split
  · exact Dev.complete_wf (by simpa only [Dev.jnlEventAfter_mem, Dev.sets_mem, Dev.startCmd_mem, Dev.ite_mem, ite_self] using h) _ _ _
  · simpa only [Dev.sets_mem, Dev.putBay_mem, Dev.startCmd_mem] using h

theorem Dev.stagingDone_wf {d : Dev} (h : d.mem.wf = true) (b : Nat) (readable : Bool) : (d.stagingDone b readable).mem.wf = true := by
  simp only [Dev.stagingDone]
  split
  · exact h
  · split
    · exact h
    · split
      · exact Dev.raiseFail_wf h _ _
      · split
        · split
          · simpa only [Dev.set_mem, Dev.putBay_mem] using h
          · exact Dev.raiseFail_wf h _ _
        · split
          · simpa only [Dev.set_mem, Dev.putBay_mem] using h
          · exact Dev.raiseFail_wf h _ _

@[simp] theorem Dev.acceptSeq_mem (d : Dev) (kind : Nat) (pkg : List Byte) : (d.acceptSeq kind pkg).mem = d.mem := by
  simp only [Dev.acceptSeq]

theorem Dev.verificationDone_wf {d : Dev} (h : d.mem.wf = true) (b : Nat) : (d.verificationDone b).mem.wf = true := by
  unfold Dev.verificationDone
  dsimp only
  split
  · exact h
  · split
    · exact h
    · split
      · exact Dev.raiseFail_wf (Dev.wf_of_mem_eq (Dev.set_mem ..) h) ..
      · split
        · split
          · exact h
          · split
            · exact Dev.raiseFail_wf h ..
            · exact Dev.wf_of_mem_eq ((Dev.set_mem ..).trans ((Dev.putBay_mem ..).trans ((Dev.jnlEvent_mem ..).trans (Dev.acceptSeq_mem ..)))) h
        · split
          · rwa [Dev.set_mem, Dev.putBay_mem, Dev.fresh_mem]
          · rwa [Dev.set_mem]

theorem Dev.contentDone_wf {d : Dev} (h : d.mem.wf = true) (b : Nat) : (d.contentDone b).mem.wf = true := by
  simp only [Dev.contentDone]
  split
  · exact h
  · split
    · exact h
    · split
      · simpa only [Dev.set_mem] using h
      · exact Dev.raiseFail_wf h _ _

@[simp] theorem Dev.askThaw_mem (d : Dev) (b : Nat) : (d.askThaw b).mem = d.mem := by
  simp only [Dev.askThaw]
  refine (Dev.foldl_mem _ (fun d x => ?_) _ _).trans ?_
  · simp only [Dev.moveDomain_mem, Dev.ite_mem, ite_self]
  · rfl

@[simp] theorem Dev.grantBay_mem (d : Dev) (b : Nat) (r : RaiseRec) (ex : Tab Nat) (cs : List Nat) (base len : Nat) : (d.grantBay b r ex cs base len).mem = d.mem := by
  simp only [Dev.grantBay, Dev.showFree_mem, Dev.askThaw_mem, Dev.sets_mem, Dev.putBay_mem]

theorem Dev.reservationDone_wf {d : Dev} (h : d.mem.wf = true) (b : Nat) : (d.reservationDone b).mem.wf = true := by
  simp only [Dev.reservationDone]
  split
  · exact h
  · split
    · exact h
    · split
      · simpa only [Dev.set_mem, Dev.ite_mem, ite_self] using h
      · split
        · exact h
        · split
          · exact Dev.raiseFail_wf h _ _
          · simpa only [Dev.putBay_mem] using h
          · simpa only [Dev.set_mem, Dev.grantBay_mem, Dev.ite_mem, ite_self] using h

theorem Dev.thawTimeout_wf {d : Dev} (h : d.mem.wf = true) (b : Nat) : (d.thawTimeout b).mem.wf = true := by
  simp only [Dev.thawTimeout]
  split
  · exact h
  · split
    · split
      · exact Dev.raiseFail_wf h _ _
      · exact h
    · exact h

theorem Dev.loadDone_wf {d : Dev} (h : d.mem.wf = true) (b : Nat) (lost : Option Nat) : (d.loadDone b lost).mem.wf = true := by
  simp only [Dev.loadDone]
  split
  · exact h
  · split
    · exact h
    · split
      · exact Dev.raiseFail_wf (Dev.hbmError_wf h _ _ _) _ _
      · simp only [Dev.set_mem, Dev.putBay_mem]
        refine Dev.loadBent_wf ?_ _ _
        refine Dev.foldl_wf _ (fun d x h => ?_) _ _ ?_
        · exact Dev.zeroLocal_wf _ _ _ h
        · exact h

@[simp] theorem Dev.zeroCounts_mem (d : Dev) (b : Nat) : (d.zeroCounts b).mem = d.mem := by
  rw [Dev.zeroCounts, Dev.wr_mem, Dev.wr_mem, Dev.wr_mem, Dev.wr_mem]
  refine (Dev.foldl_mem _ (fun d x => ?_) _ _).trans ?_
  · rw [Dev.set_mem, Dev.wr_mem]
  · refine (Dev.foldl_mem _ (fun d x => ?_) _ _).trans ?_
    · rw [Dev.wr_mem, Dev.wr_mem, Dev.sets_mem]
    · rfl

@[simp] theorem Dev.queuedStep_mem (d : Dev) (b c : Nat) : (d.queuedStep b c).mem = d.mem := by
  simp only [Dev.queuedStep]
  split <;> simp only [Dev.set_mem, Dev.putCtx_mem, Dev.ite_mem, ite_self]

theorem Dev.raiseCommit_wf {d : Dev} (h : d.mem.wf = true) (b : Nat) : (d.raiseCommit b).mem.wf = true := by
  simp only [Dev.raiseCommit]
  split
  · exact h
  · refine Dev.complete_wf ?_ _ _ _
    simp only [Dev.putBay_mem]
    refine Dev.foldl_wf _ (fun d x h => ?_) _ _ ?_
    · simpa only [Dev.queuedStep_mem] using h
    · simp only [Dev.clearContexts_mem]
      refine Dev.foldl_wf _ (fun d x h => ?_) _ _ ?_
      · simpa only [Dev.set_mem] using h
      · refine Dev.foldl_wf _ (fun d x h => ?_) _ _ ?_
        · simpa only [Dev.sets_mem] using h
        · simp only [Dev.sets_mem]
          refine Dev.foldl_wf _ (fun d x h => ?_) _ _ ?_
          · simpa only [Dev.applyKind1_mem] using h
          · simpa only [Dev.zeroCounts_mem, Dev.set_mem] using h

/-! ### DMA engines (chapter 6) -/

@[simp] theorem Dev.dropOut_mem (d : Dev) (b : Nat) : (d.dropOut b).mem = d.mem := by
  simp only [Dev.dropOut, Dev.putFltBay_mem, Dev.ite_mem, ite_self]

theorem Dev.copyRow_wf {d : Dev} (h : d.mem.wf = true) (b : Nat) (q : DmaDesc) (free : Nat) (i : Nat) (bytes : List Byte) : (d.copyRow b q free i bytes).mem.wf = true := by
  simp only [Dev.copyRow]
  exact Dev.putBayBytes_wf _ _ _ _ h

theorem Dev.copyLocal_wf {d : Dev} (h : d.mem.wf = true) (b : Nat) (q : DmaDesc) : (d.copyLocal b q).mem.wf = true := by
  simp only [Dev.copyLocal]
  refine Dev.foldl_wf _ (fun d x h => ?_) _ _ ?_
  · exact Dev.copyRow_wf h _ _ _ _ _
  · simpa only [Dev.fresh_mem] using h

theorem Dev.fillLocal_wf {d : Dev} (h : d.mem.wf = true) (b : Nat) (q : DmaDesc) : (d.fillLocal b q).mem.wf = true := by
  simp only [Dev.fillLocal]
  refine Dev.foldl_wf _ (fun d x h => ?_) _ _ ?_
  · exact Dev.putBayBytes_wf _ _ _ _ h
  · exact h

@[simp] theorem Dev.sendWrites_mem (d : Dev) (dev tc tag addr : Nat) (bytes : List Byte) (o : Owner) : (d.sendWrites dev tc tag addr bytes o).mem = d.mem := by
  simp only [Dev.sendWrites]
  refine (Dev.foldl_mem _ (fun d x => ?_) _ _).trans ?_
  · simp only [Dev.sendHeld_mem]
  · rfl

@[simp] theorem Dev.sendReads_mem (d : Dev) (dev tc tag addr n : Nat) (o : Nat → Owner) : (d.sendReads dev tc tag addr n o).mem = d.mem := by
  simp only [Dev.sendReads]
  refine (Dev.foldl_mem _ (fun d x => ?_) _ _).trans ?_
  · simp only [Dev.sendHeld_mem]
  · rfl

@[simp] theorem Dev.dmaRemote_mem (d : Dev) (b e id : Nat) (q : DmaDesc) : (d.dmaRemote b e id q).mem = d.mem := by
  simp only [Dev.dmaRemote]
  refine (Dev.foldl_mem _ (fun d x => ?_) _ _).trans ?_
  · simp only [Dev.sendReads_mem, Dev.sendWrites_mem, Dev.ite_mem, ite_self]
  · rfl

@[simp] theorem Dev.dmaHalt_mem (d : Dev) (b e code : Nat) : (d.dmaHalt b e code).mem = d.mem := by
  unfold Dev.dmaHalt
  extract_lets u d₁
  have h₁ : d₁.mem = d.mem := (Dev.putDma_mem ..).trans (Dev.sets_mem ..)
  clear_value d₁
  split
  · rw [Dev.endStepEarly_mem, h₁]
  · rw [Dev.endStepEarly_mem, h₁]
  · rw [Dev.dropOut_mem, h₁]

@[simp] theorem Dev.dmaAdvance_mem (d : Dev) (e : Nat) (r : DmaRec) : (d.dmaAdvance e r).mem = d.mem := by
  simp only [Dev.dmaAdvance, Dev.set_mem, Dev.putDma_mem]

theorem Dev.lostLine_wf {d : Dev} (h : d.mem.wf = true) (b va : Nat) : (d.lostLine b va).mem.wf = true := by
  simp only [Dev.lostLine]
  split
  · split
    · simpa only [Dev.endStepEarly_mem] using Dev.hbmError_wf h _ _ _
    · exact Dev.tmError_wf h _ _ _
  · exact h

/-- The line of a lost source, where the descriptor reads it, is written by its tile memory alone. -/
theorem Dev.lostSource_wf {d : Dev} (h : d.mem.wf = true) (b : Nat) (q : DmaDesc) (lost : Option Nat) :
    (match lost with
      | some va => if q.op == 0 && !q.remSrc && inRows va q.src q.srcStride q.rowBytes q.rows then d.lostLine b va else d
      | none => d).mem.wf = true := by
  split
  · split
    · exact Dev.lostLine_wf h ..
    · exact h
  · exact h

theorem Dev.dmaStart_wf {d : Dev} (h : d.mem.wf = true) (e op : Nat) (lost : Option Nat) : (d.dmaStart e op lost).mem.wf = true := by
  unfold Dev.dmaStart
  split
  · exact h
  · next b _ =>
    extract_lets w0 w1 w2 w3 q id d₁ d₂
    split
    · exact h
    · split
      · exact Dev.wf_of_mem_eq (Dev.dmaHalt_mem ..) h
      · have hadv : d₂.mem.wf = true := Dev.wf_of_mem_eq (Dev.dmaAdvance_mem ..) (Dev.lostSource_wf h b q lost)
        split
        · exact Dev.wf_of_mem_eq (Dev.dmaRemote_mem ..) hadv
        · split
          · exact Dev.copyLocal_wf hadv ..
          · exact Dev.fillLocal_wf hadv ..

@[simp] theorem Dev.dmaComplete_mem (d : Dev) (e slot : Nat) : (d.dmaComplete e slot).mem = d.mem := by
  simp only [Dev.dmaComplete]
  split <;> simp only [Dev.incWrap_mem, Dev.putDma_mem, Dev.incPeg_mem, Dev.ite_mem, ite_self]

@[simp] theorem Dev.dmaPacketFails_mem (d : Dev) (e id code : Nat) : (d.dmaPacketFails e id code).mem = d.mem := by
  simp only [Dev.dmaPacketFails]
  split <;> simp only [Dev.forget_mem, Dev.dmaHalt_mem, Dev.putDma_mem]

/-! ### Collectives (chapter 14) -/

@[simp] theorem Dev.showCol_mem (d : Dev) : (d.showCol).mem = d.mem := by
  simp only [Dev.showCol]
  refine (Dev.foldl_mem _ (fun d x => ?_) _ _).trans ?_
  · simp only [Dev.set_mem]
  · simp only [Dev.sets_mem]

@[simp] theorem Dev.modStep_mem (d : Dev) (b step : Nat) (f : StepRec → StepRec) : (d.modStep b step f).mem = d.mem := by
  simp only [Dev.modStep]
  split
  · simp only [Dev.putBay_mem]
  · refine (Dev.foldl_mem _ (fun d x => ?_) _ _).trans ?_
    · split <;> simp only [Dev.putCtx_mem]
    · rfl

theorem Dev.accumulate_wf {d : Dev} (h : d.mem.wf = true) (u : Inst) (base : Nat) (first : Bool) (xs : List Nat) : (d.accumulate u base first xs).mem.wf = true := by
  simp only [Dev.accumulate]
  refine Dev.foldl_wf _ (fun d x h => ?_) _ _ ?_
  · exact Dev.putBayBytes_wf _ _ _ _ h
  · exact h

@[simp] theorem Dev.colSend_mem (d : Dev) (u : Inst) (kind dest owner seg count version present : Nat) (flag : Bool) (payload : List Byte) : (d.colSend u kind dest owner seg count version present flag payload).mem = d.mem := by
  simp only [Dev.colSend, Dev.sendHeld_mem, Dev.ite_mem, ite_self]

theorem Dev.closeSeg_wf {d : Dev} (h : d.mem.wf = true) (u : Inst) (g : Seg) : (d.closeSeg u g).mem.wf = true := by
  simp only [Dev.closeSeg]
  split
  · simp only [Dev.putInst_mem]
    split
    · exact Dev.putBayBytes_wf _ _ _ _ (by simpa only [Dev.incSat_mem, Dev.set_mem, Dev.ite_mem, ite_self] using h)
    · simpa only [Dev.incSat_mem, Dev.set_mem, Dev.ite_mem, ite_self] using h
  · refine Dev.foldl_wf _ (fun d x h => ?_) _ _ ?_
    · simpa only [Dev.colSend_mem] using h
    · simp only [Dev.putInst_mem]
      split
      · exact Dev.putBayBytes_wf _ _ _ _ (by simpa only [Dev.incSat_mem, Dev.set_mem, Dev.ite_mem, ite_self] using h)
      · simpa only [Dev.incSat_mem, Dev.set_mem, Dev.ite_mem, ite_self] using h

theorem Dev.tryClose_wf {d : Dev} (h : d.mem.wf = true) (b t step j s : Nat) : (d.tryClose b t step j s).mem.wf = true := by
  simp only [Dev.tryClose]
  split
  · exact h
  · split
    · exact h
    · split
      · exact Dev.closeSeg_wf h _ _
      · exact h

theorem Dev.tryCloseAll_wf {d : Dev} (h : d.mem.wf = true) (u : Inst) : (d.tryCloseAll u).mem.wf = true := by
  simp only [Dev.tryCloseAll]
  refine Dev.foldl_wf _ (fun d x h => ?_) _ _ ?_
  · exact Dev.tryClose_wf h _ _ _ _ _
  · exact h

theorem Dev.contribute_wf {d : Dev} (h : d.mem.wf = true) (b t step j s m : Nat) (flag : Bool) (bytes : List Byte) : (d.contribute b t step j s m flag bytes).mem.wf = true := by
  simp only [Dev.contribute]
  split
  · exact h
  · split
    · exact h
    · exact Dev.tryClose_wf (by simpa only [Dev.putInst_mem] using Dev.accumulate_wf h _ _ _ _) _ _ _ _ _

theorem Dev.enterDeferred_wf {d : Dev} (h : d.mem.wf = true) (b t step : Nat) (old : Inst) : (d.enterDeferred b t step old).mem.wf = true := by
  simp only [Dev.enterDeferred]
  refine Dev.foldl_wf _ (fun d x h => ?_) _ _ ?_
  · split
    · exact h
    · split
      · exact h
      · simpa only [Dev.putInst_mem] using Dev.accumulate_wf h _ _ _ _
  · exact h

@[simp] theorem Dev.endColStep_mem (d : Dev) (b step status : Nat) : (d.endColStep b step status).mem = d.mem := by
  simp only [Dev.endColStep]
  split <;> simp only [Dev.endStepEarly_mem, Dev.ite_mem, ite_self]

@[simp] theorem Dev.colError_mem (d : Dev) (b t step code status : Nat) : (d.colError b t step code status).mem = d.mem := by
  simp only [Dev.colError, Dev.endColStep_mem, Dev.sets_mem]

@[simp] theorem Dev.noteStandIn_mem (d : Dev) (u : Inst) (m : Nat) : (d.noteStandIn u m).mem = d.mem := by
  simp only [Dev.noteStandIn, Dev.set_mem, Dev.incSat_mem, Dev.putInst_mem, Dev.ite_mem, ite_self]

@[simp] theorem Dev.standInsNow_mem (d : Dev) (b t step : Nat) : (d.standInsNow b t step).mem = d.mem := by
  simp only [Dev.standInsNow]
  split <;> simp only [Dev.noteStandIn_mem, Dev.ite_mem, ite_self]

/-- The device that an opening leaves. -/
theorem Dev.openInst_opened_wf {d e : Dev} (h : d.mem.wf = true) {b t step : Nat} (he : d.openInst b t step = .opened e) : e.mem.wf = true := by
  unfold Dev.openInst at he
  dsimp only at he
  rcases ite_eq_iff.mp he with ⟨_, he⟩ | ⟨_, he⟩
  · cases he
  · rcases ite_eq_iff.mp he with ⟨_, he⟩ | ⟨_, he⟩
    · cases he
    · rcases ite_eq_iff.mp he with ⟨_, he⟩ | ⟨_, he⟩
      · cases he
      · rw [← Opening.opened.inj he, Dev.showCol_mem, Dev.standInsNow_mem]
        split
        · split
          · refine Dev.enterDeferred_wf ?_ ..
            exact h
          · exact h
        · exact h

theorem Dev.openInst_bad_mem {d e : Dev} {b t step : Nat} (he : d.openInst b t step = .bad e) : e.mem = d.mem := by
  unfold Dev.openInst at he
  dsimp only at he
  rcases ite_eq_iff.mp he with ⟨_, he⟩ | ⟨_, he⟩
  · cases he
    exact Dev.colError_mem ..
  · rcases ite_eq_iff.mp he with ⟨_, he⟩ | ⟨_, he⟩
    · cases he
      exact Dev.colError_mem ..
    · rcases ite_eq_iff.mp he with ⟨_, he⟩ | ⟨_, he⟩
      · cases he
      · cases he

theorem Dev.colIssue_wf {d : Dev} (h : d.mem.wf = true) (b t step : Nat) : (d.colIssue b t step).mem.wf = true := by
  have hopen : (match d.inst b t step with
    | some _ => d
    | none => match d.openInst b t step with
      | .opened e => e
      | .bad e => e
      | .full =>
        if d.col.waits.contains (b, t, step) then d
        else ({ d with col := { d.col with waits := d.col.waits ++ [(b, t, step)] } } : Dev).incWrap COL_STATUS.open_wait 1).mem.wf = true := by
    split
    · exact h
    · split
      · next he => exact Dev.openInst_opened_wf h he
      · next he => exact Dev.wf_of_mem_eq (Dev.openInst_bad_mem he) h
      · split
        · exact h
        · exact Dev.wf_of_mem_eq (Dev.incWrap_mem ..) h
  unfold Dev.colIssue
  dsimp only
  split
  · exact Dev.wf_of_mem_eq (Dev.putInst_mem ..) hopen
  · exact hopen

@[simp] theorem Dev.markGone_mem (d : Dev) (b t step m : Nat) : (d.markGone b t step m).mem = d.mem := by
  simp only [Dev.markGone, Dev.ite_mem, ite_self]

@[simp] theorem Dev.sendLeave_mem (d : Dev) (b t step own : Nat) (members : List Nat) : (d.sendLeave b t step own members).mem = d.mem := by
  simp only [Dev.sendLeave]
  refine (Dev.foldl_mem _ (fun d x => ?_) _ _).trans ?_
  · simp only [Dev.sendHeld_mem, Dev.ite_mem, ite_self]
  · rfl

theorem Dev.sendContribs_wf {d : Dev} (h : d.mem.wf = true) (u : Inst) : (d.sendContribs u).mem.wf = true := by
  simp only [Dev.sendContribs]
  refine Dev.foldl_wf _ (fun d x h => ?_) _ _ ?_
  · refine Dev.foldl_wf _ (fun d x h => ?_) _ _ ?_
    · split
      · exact Dev.contribute_wf h _ _ _ _ _ _ _ _
      · simpa only [Dev.colSend_mem] using h
    · exact h
  · exact h

@[simp] theorem Dev.ownShare_mem (d : Dev) (u : Inst) : (d.ownShare u).mem = d.mem := by
  simp only [Dev.ownShare, Dev.putInst_mem]

theorem Dev.sendGather_wf {d : Dev} (h : d.mem.wf = true) (u : Inst) : (d.sendGather u).mem.wf = true := by
  simp only [Dev.sendGather]
  refine Dev.foldl_wf _ (fun d x h => ?_) _ _ ?_
  · refine Dev.foldl_wf _ (fun d x h => ?_) _ _ ?_
    · simpa only [Dev.colSend_mem, Dev.ite_mem, ite_self] using h
    · exact Dev.putBayBytes_wf _ _ _ _ h
  · simpa only [Dev.ownShare_mem, Dev.ite_mem, ite_self] using h

theorem Dev.sendBlocks_wf {d : Dev} (h : d.mem.wf = true) (u : Inst) : (d.sendBlocks u).mem.wf = true := by
  simp only [Dev.sendBlocks]
  refine Dev.foldl_wf _ (fun d x h => ?_) _ _ ?_
  · split
    · exact Dev.putBayBytes_wf _ _ _ _ (Dev.putBayBytes_wf _ _ _ _ (by simpa only [Dev.incSat_mem] using h))
    · refine Dev.foldl_wf _ (fun d x h => ?_) _ _ ?_
      · simpa only [Dev.colSend_mem] using h
      · simpa only [Dev.incSat_mem] using h
  · simpa only [Dev.ownShare_mem] using h

theorem Dev.withhold_wf {d : Dev} (h : d.mem.wf = true) (u : Inst) : (d.withhold u).mem.wf = true := by
  simp only [Dev.withhold]
  exact Dev.tryCloseAll_wf (by simpa only [Dev.sendLeave_mem, Dev.markGone_mem] using h) _

theorem Dev.colSendAll_wf {d : Dev} (h : d.mem.wf = true) (u : Inst) : (d.colSendAll u).mem.wf = true := by
  simp only [Dev.colSendAll]
  split
  · split
    · exact Dev.withhold_wf (by simpa only [Dev.putInst_mem] using h) _
    · exact Dev.sendContribs_wf (by simpa only [Dev.putInst_mem] using h) _
  · split
    · exact Dev.sendGather_wf (by simpa only [Dev.putInst_mem] using h) _
    · exact Dev.sendBlocks_wf (by simpa only [Dev.putInst_mem] using h) _

theorem Dev.colRunStep_wf {d : Dev} (h : d.mem.wf = true) (b t step : Nat) (q : ColDesc) : (d.colRunStep b t step q).mem.wf = true := by
  simp only [Dev.colRunStep]
  split
  · split
    · split
      · exact Dev.colSendAll_wf (Dev.colIssue_wf h _ _ _) _
      · exact Dev.colIssue_wf h _ _ _
    · split
      · exact Dev.colSendAll_wf h _
      · exact h
  · split
    · exact Dev.colIssue_wf h _ _ _
    · exact h

theorem Dev.colRun_wf {d : Dev} (h : d.mem.wf = true) (b t op : Nat) : (d.colRun b t op).mem.wf = true := by
  simp only [Dev.colRun]
  split
  · exact h
  · refine Dev.foldl_wf _ (fun d x h => ?_) _ _ ?_
    · exact Dev.colRunStep_wf h _ _ _ _
    · exact h

theorem Dev.issueScheduled_wf {d : Dev} (h : d.mem.wf = true) (b : Nat) : (d.issueScheduled b).mem.wf = true := by
  simp only [Dev.issueScheduled]
  split
  · exact h
  · refine Dev.foldl_wf _ (fun d x h => ?_) _ _ ?_
    · split
      · exact Dev.colIssue_wf h _ _ _
      · exact h
    · exact h

theorem Dev.openWaiting_wf {d : Dev} (h : d.mem.wf = true) : (d.openWaiting).mem.wf = true := by
  simp only [Dev.openWaiting]
  refine Dev.foldl_wf _ (fun d x h => ?_) _ _ ?_
  · exact Dev.colIssue_wf h _ _ _
  · exact h

theorem Dev.lateContribution_wf {d : Dev} (h : d.mem.wf = true) (b t step : Nat) (old : Option Inst) (j s : Nat) (flag : Bool) (bytes : List Byte) : (d.lateContribution b t step old j s flag bytes).mem.wf = true := by
  simp only [Dev.lateContribution]
  split
  · split
    · simpa only [Dev.incSat_mem, Dev.putInst_mem] using Dev.accumulate_wf (by simpa only [Dev.set_mem] using h) _ _ _ _
    · simpa only [Dev.incSat_mem, Dev.set_mem] using h
  · simpa only [Dev.incSat_mem, Dev.set_mem] using h

theorem Dev.landSeg_wf {d : Dev} (h : d.mem.wf = true) (u : Inst) (j s addr : Nat) (flag : Bool) (bytes : List Byte) : (d.landSeg u j s addr flag bytes).mem.wf = true := by
  simp only [Dev.landSeg]
  split
  · exact h
  · simpa only [Dev.putInst_mem] using Dev.putBayBytes_wf _ _ _ _ h

@[simp] theorem Dev.versionMismatch_mem (d : Dev) (b : Nat) : (d.versionMismatch b).mem = d.mem := by
  simp only [Dev.versionMismatch]
  split <;> simp only [Dev.putBay_mem, Dev.sets_mem, Dev.incSat_mem]

theorem Dev.landBlock_wf {d : Dev} (h : d.mem.wf = true) (u : Inst) (m s n : Nat) (flag : Bool) (bytes : List Byte) : (d.landBlock u m s n flag bytes).mem.wf = true := by
  simp only [Dev.landBlock]
  split
  · refine Dev.landSeg_wf ?_ _ _ _ _ _ _
    split
    · exact h
    · simpa only [Dev.putInst_mem] using Dev.putBayBytes_wf _ _ _ _ h
  · split
    · exact h
    · simpa only [Dev.putInst_mem] using Dev.putBayBytes_wf _ _ _ _ h

theorem Dev.colAccept_wf {d : Dev} (h : d.mem.wf = true) (u : Inst) (pkt : Packet) : (d.colAccept u pkt).mem.wf = true := by
  simp only [Dev.colAccept]
  split
  · exact h
  · split
    · split
      · exact Dev.lateContribution_wf h _ _ _ _ _ _ _ _
      · split
        · exact Dev.contribute_wf h _ _ _ _ _ _ _ _
        · exact h
    · split
      · simpa only [Dev.versionMismatch_mem] using h
      · exact Dev.landSeg_wf h _ _ _ _ _ _
    · exact Dev.landBlock_wf h _ _ _ _ _ _
    · exact Dev.landSeg_wf h _ _ _ _ _ _

theorem Dev.colLate_wf {d : Dev} (h : d.mem.wf = true) (b t step : Nat) (pkt : Packet) : (d.colLate b t step pkt).mem.wf = true := by
  simp only [Dev.colLate]
  split
  · exact Dev.lateContribution_wf h _ _ _ _ _ _ _ _
  · exact h

theorem Dev.colTake_wf {d : Dev} (h : d.mem.wf = true) (b t step : Nat) (pkt : Packet) : (d.colTake b t step pkt).mem.wf = true := by
  simp only [Dev.colTake]
  split
  · split
    · simpa only [Dev.nack_mem, Dev.sets_mem, Dev.incSat_mem] using h
    · simpa only [Dev.ackDue_mem, Dev.rxMark_mem] using Dev.colAccept_wf h _ _
  · simpa only [Dev.ackDue_mem, Dev.rxMark_mem] using h

theorem Dev.colReceive_wf {d : Dev} (h : d.mem.wf = true) (b : Nat) (pkt : Packet) : (d.colReceive b pkt).mem.wf = true := by
  have hmark {e : Dev} (he : e.mem.wf = true) : ((e.rxMark pkt).ackDue pkt).mem.wf = true :=
    Dev.wf_of_mem_eq ((Dev.ackDue_mem ..).trans (Dev.rxMark_mem ..)) he
  unfold Dev.colReceive
  dsimp only
  split
  · exact Dev.colTake_wf h ..
  · split
    · split
      · exact hmark (Dev.colLate_wf h ..)
      · split
        · next he => exact Dev.colTake_wf (Dev.openInst_opened_wf h he) ..
        · next he => exact hmark (Dev.wf_of_mem_eq (Dev.openInst_bad_mem he) h)
        · exact h
    · split
      · exact h
      · exact hmark (Dev.colLate_wf h ..)

theorem Dev.standIn_wf {d : Dev} (h : d.mem.wf = true) (u : Inst) (m : Nat) : (d.standIn u m).mem.wf = true := by
  simp only [Dev.standIn]
  split
  · refine Dev.foldl_wf _ (fun d x h => ?_) _ _ ?_
    · split
      · exact h
      · split
        · exact Dev.contribute_wf h _ _ _ _ _ _ _ _
        · simpa only [Dev.colSend_mem] using h
    · simpa only [Dev.noteStandIn_mem] using h
  · simpa only [Dev.noteStandIn_mem] using h

theorem Dev.memberGone_wf {d : Dev} (h : d.mem.wf = true) (b t step m : Nat) : (d.memberGone b t step m).mem.wf = true := by
  simp only [Dev.memberGone]
  split
  · simpa only [Dev.forget_mem] using h
  · split
    · refine Dev.tryCloseAll_wf ?_ _
      split
      · exact Dev.standIn_wf (by simpa only [Dev.forget_mem] using h) _ _
      · simpa only [Dev.forget_mem] using h
    · split
      · exact Dev.standIn_wf (by simpa only [Dev.forget_mem] using h) _ _
      · simpa only [Dev.forget_mem] using h

theorem Dev.memberLeaves_wf {d : Dev} (h : d.mem.wf = true) (b t step m : Nat) : (d.memberLeaves b t step m).mem.wf = true := by
  simp only [Dev.memberLeaves]
  split
  · exact h
  · exact Dev.memberGone_wf (by simpa only [Dev.markGone_mem] using h) _ _ _ _

theorem Dev.deadMember_wf {d : Dev} (h : d.mem.wf = true) (dev : Nat) : (d.deadMember dev).mem.wf = true := by
  simp only [Dev.deadMember]
  refine Dev.foldl_wf _ (fun d x h => ?_) _ _ ?_
  · split
    · exact Dev.memberGone_wf h _ _ _ _
    · exact h
  · refine Dev.foldl_wf _ (fun d x h => ?_) _ _ ?_
    · simpa only [Dev.modStep_mem] using h
    · exact h

@[simp] theorem Dev.leaveUnissued_mem (d : Dev) (b step : Nat) (want : ColDesc → Bool) : (d.leaveUnissued b step want).mem = d.mem := by
  simp only [Dev.leaveUnissued]
  refine (Dev.foldl_mem _ (fun d x => ?_) _ _).trans ?_
  · simp only [Dev.sendLeave_mem, Dev.ite_mem, ite_self]
  · rfl

@[simp] theorem Dev.leaveAll_mem (d : Dev) (b : Nat) (reducing : Bool) : (d.leaveAll b reducing).mem = d.mem := by
  simp only [Dev.leaveAll, Dev.showCol_mem, Dev.forget_mem]
  refine (Dev.foldl_mem _ (fun d x => ?_) _ _).trans ?_
  · simp only [Dev.leaveUnissued_mem]
  · refine (Dev.foldl_mem _ (fun d x => ?_) _ _).trans ?_
    · simp only [Dev.sendLeave_mem]
    · rfl

theorem Dev.colDeadline_wf {d : Dev} (h : d.mem.wf = true) (u : Inst) : (d.colDeadline u).mem.wf = true := by
  simp only [Dev.colDeadline]
  split
  · exact h
  · split
    · exact h
    · refine Dev.foldl_wf _ (fun d x h => ?_) _ _ ?_
      · split
        · exact h
        · split
          · split
            · exact h
            · exact Dev.closeSeg_wf h _ _
          · split
            · exact h
            · exact Dev.closeSeg_wf h _ _
      · exact h

@[simp] theorem Dev.colGiveUp_mem (d : Dev) (u : Inst) : (d.colGiveUp u).mem = d.mem := by
  simp only [Dev.colGiveUp]
  split <;> simp only [Dev.putInst_mem, Dev.set_mem, Dev.incSat_mem, Dev.ite_mem, ite_self]

theorem Dev.colEdge_wf {d : Dev} (h : d.mem.wf = true) : (d.colEdge).mem.wf = true := by
  simp only [Dev.colEdge]
  refine Dev.foldl_wf _ (fun d x h => ?_) _ _ ?_
  · split
    · simpa only [Dev.colGiveUp_mem] using h
    · exact h
  · refine Dev.foldl_wf _ (fun d x h => ?_) _ _ ?_
    · split
      · exact Dev.colDeadline_wf h _
      · exact h
    · exact h

@[simp] theorem Dev.gateReturn_mem (d : Dev) (b : Nat) (r : StepRec) (ret : Bool) : (d.gateReturn b r ret).mem = d.mem := by
  simp only [Dev.gateReturn, Dev.setStepField_mem, Dev.lateFlag_mem, Dev.modStep_mem, Dev.ite_mem, ite_self]

theorem Dev.colFinish_wf {d : Dev} (h : d.mem.wf = true) (b t : Nat) : (d.colFinish b t).mem.wf = true := by
  simp only [Dev.colFinish]
  split
  · exact h
  · exact Dev.openWaiting_wf (by simpa only [Dev.gateReturn_mem, Dev.showCol_mem, Dev.incPeg_mem, Dev.ite_mem, ite_self] using h)

@[simp] theorem Dev.colStepStart_mem (d : Dev) (b : Nat) : (d.colStepStart b).mem = d.mem := by
  simp only [Dev.colStepStart, Dev.set_mem]

@[simp] theorem Dev.keepClosed_mem (d : Dev) (p : Inst → Bool) : (d.keepClosed p).mem = d.mem := by
  simp only [Dev.keepClosed]

theorem Dev.colStepClose_wf {d : Dev} (h : d.mem.wf = true) (b step : Nat) (skip : Bool) : (d.colStepClose b step skip).mem.wf = true := by
  simp only [Dev.colStepClose, Dev.showCol_mem, Dev.keepClosed_mem]
  split
  · simpa only [Dev.keepClosed_mem, Dev.forget_mem] using h
  · refine Dev.foldl_wf _ (fun d x h => ?_) _ _ ?_
    · split
      · exact Dev.enterDeferred_wf (by simpa only [Dev.keepClosed_mem] using h) _ _ _ _
      · exact h
    · simpa only [Dev.forget_mem] using h

/-! ### Fault tolerance (chapter 15) -/

@[simp] theorem Dev.putBind_mem (d : Dev) (b i : Nat) (x : Bind) : (d.putBind b i x).mem = d.mem := by
  simp only [Dev.putBind, Dev.putFltBay_mem]

@[simp] theorem Dev.showProtected_mem (d : Dev) (b : Nat) : (d.showProtected b).mem = d.mem := by
  simp only [Dev.showProtected, Dev.emit_mem, Dev.set_mem, Dev.ite_mem, ite_self]

@[simp] theorem Dev.setBind_mem (d : Dev) (b i st : Nat) : (d.setBind b i st).mem = d.mem := by
  simp only [Dev.setBind, Dev.showProtected_mem, Dev.set_mem, Dev.ite_mem, ite_self]

@[simp] theorem Dev.sendBind_mem (d : Dev) (b i : Nat) : (d.sendBind b i).mem = d.mem := by
  simp only [Dev.sendBind]
  split <;> simp only [Dev.sendHeld_mem, Dev.putBind_mem]

@[simp] theorem Dev.sendUnbind_mem (d : Dev) (b i : Nat) : (d.sendUnbind b i).mem = d.mem := by
  simp only [Dev.sendUnbind]
  split <;> simp only [Dev.sendHeld_mem, Dev.putBind_mem]

@[simp] theorem Dev.startBind_mem (d : Dev) (b i : Nat) : (d.startBind b i).mem = d.mem := by
  simp only [Dev.startBind]
  split <;> simp only [Dev.setBind_mem, Dev.putBind_mem, Dev.sendUnbind_mem, Dev.ite_mem, ite_self, Dev.sendBind_mem]

@[simp] theorem Dev.startBinds_mem (d : Dev) (b : Nat) : (d.startBinds b).mem = d.mem := by
  simp only [Dev.startBinds, Dev.startBind_mem]

@[simp] theorem Dev.dropSlots_mem (d : Dev) (p : Slot → Bool) : (d.dropSlots p).mem = d.mem := by
  simp only [Dev.dropSlots]

@[simp] theorem Dev.bindReply_mem (d : Dev) (src tag res : Nat) (s : Option Slot) : (d.bindReply src tag res s).mem = d.mem := by
  simp only [Dev.bindReply, Dev.sendHeld_mem]

@[simp] theorem Dev.slotBind_mem (d : Dev) (src tag list build : Nat) : (d.slotBind src tag list build).mem = d.mem := by
  simp only [Dev.slotBind]
  split <;> simp only [Dev.bindReply_mem]

@[simp] theorem Dev.sisterBind_mem (d : Dev) (pkt : Packet) : (d.sisterBind pkt).mem = d.mem := by
  simp only [Dev.sisterBind]
  split
  · simp only [Dev.bindReply_mem]
  · repeat' split
    all_goals simp only [Dev.bindReply_mem, Dev.slotBind_mem, Dev.dropSlots_mem]

theorem Dev.control_mem {d : Dev} {f : Dev → Packet → Dev} (hf : ∀ d pkt, (f d pkt).mem = d.mem) (type : Nat) :
    (d.control type f).mem = d.mem := by
  refine Dev.onPacket_mem (fun d _ pkt => Dev.receive_mem (fun d => ?_) _) _ _
  simp only [Dev.ackDue_mem, Dev.rxMark_mem, hf]

theorem Dev.control_wf {d : Dev} {f : Dev → Packet → Dev} (h : d.mem.wf = true)
    (hf : ∀ {d : Dev}, d.mem.wf = true → ∀ pkt, (f d pkt).mem.wf = true) (type : Nat) : (d.control type f).mem.wf = true := by
  refine Dev.onPacket_wf h (fun h _ pkt => Dev.receive_wf h (fun h => ?_) _) _ _
  simpa only [Dev.ackDue_mem, Dev.rxMark_mem] using hf h pkt

@[simp] theorem Dev.sisterReply_mem (d : Dev) (pkt : Packet) : (d.sisterReply pkt).mem = d.mem := by
  simp only [Dev.sisterReply]
  split
  · simp only [Dev.dropSlots_mem]
  · refine (Dev.foldl_mem _ (fun d x => ?_) _ _).trans ?_
    · refine (Dev.foldl_mem _ (fun d x => ?_) _ _).trans ?_
      · simp only [Dev.setBind_mem, Dev.putBind_mem, Dev.ite_mem, ite_self]
      · rfl
    · rfl

@[simp] theorem Dev.bindRetry_mem (d : Dev) (b i : Nat) : (d.bindRetry b i).mem = d.mem := by
  simp only [Dev.bindRetry, Dev.sendBind_mem, Dev.setBind_mem, Dev.ite_mem, ite_self]

theorem Dev.endSnapCmds_wf {d : Dev} (h : d.mem.wf = true) (cmds : List Cmd) (status result : Nat) : (d.endSnapCmds cmds status result).mem.wf = true := by
  simp only [Dev.endSnapCmds]
  refine Dev.foldl_wf _ (fun d x h => ?_) _ _ ?_
  · exact Dev.complete_wf h _ _ _
  · exact h

theorem Dev.snapFail_wf {d : Dev} (h : d.mem.wf = true) (b : Nat) : (d.snapFail b).mem.wf = true := by
  simp only [Dev.snapFail]
  split
  · exact h
  · exact Dev.endSnapCmds_wf (by simpa only [Dev.sets_mem, Dev.putFltBay_mem, Dev.forget_mem] using h) _ _ _

theorem Dev.snapStart_wf {d : Dev} (h : d.mem.wf = true) (b : Nat) : (d.snapStart b).mem.wf = true := by
  simp only [Dev.snapStart]
  split
  · split
    · split
      · exact h
      · split
        · exact Dev.endSnapCmds_wf (by simpa only [Dev.set_mem, Dev.putFltBay_mem] using h) _ _ _
        · simpa only [Dev.set_mem, Dev.putFltBay_mem] using h
    · split
      · exact h
      · split
        · exact Dev.endSnapCmds_wf (by simpa only [Dev.set_mem, Dev.putFltBay_mem] using h) _ _ _
        · simpa only [Dev.set_mem, Dev.putFltBay_mem] using h
  · split
    · split
      · exact h
      · split
        · exact Dev.endSnapCmds_wf (by simpa only [Dev.set_mem, Dev.putFltBay_mem] using h) _ _ _
        · simpa only [Dev.set_mem, Dev.putFltBay_mem] using h
    · split
      · exact h
      · split
        · exact Dev.endSnapCmds_wf (by simpa only [Dev.set_mem, Dev.putFltBay_mem] using h) _ _ _
        · simpa only [Dev.set_mem, Dev.putFltBay_mem] using h

@[simp] theorem Dev.cadence_mem (d : Dev) (b : Nat) (s : Snap) : (d.cadence b s).mem = d.mem := by
  simp only [Dev.cadence, Dev.sets_mem]

theorem Dev.snapDest_wf {d : Dev} (h : d.mem.wf = true) (b i : Nat) : (d.snapDest b i).mem.wf = true := by
  simp only [Dev.snapDest]
  split
  · exact h
  · split
    · exact Dev.endSnapCmds_wf (by simpa only [Dev.cadence_mem, Dev.sets_mem, Dev.putFltBay_mem, Dev.set_mem, Dev.putBind_mem, Dev.ite_mem, ite_self] using h) _ _ _
    · simpa only [Dev.putFltBay_mem, Dev.set_mem, Dev.sets_mem, Dev.putBind_mem, Dev.ite_mem, ite_self] using h

theorem Dev.snapRead_wf {d : Dev} (h : d.mem.wf = true) (b : Nat) : (d.snapRead b).mem.wf = true := by
  simp only [Dev.snapRead]
  split
  · exact h
  · split
    · exact h
    · split
      · refine Dev.snapDest_wf ?_ _ _
        refine Dev.putBayBytes_wf _ _ _ _ ?_
        refine Dev.foldl_wf _ (fun d x h => ?_) _ _ ?_
        · refine Dev.foldl_wf _ (fun d x h => ?_) _ _ ?_
          · simpa only [Dev.sendHeld_mem] using h
          · exact h
        · simpa only [Dev.putFltBay_mem] using h
      · refine Dev.foldl_wf _ (fun d x h => ?_) _ _ ?_
        · refine Dev.foldl_wf _ (fun d x h => ?_) _ _ ?_
          · simpa only [Dev.sendHeld_mem] using h
          · exact h
        · simpa only [Dev.putFltBay_mem] using h

theorem Dev.snapAdvance_wf {d : Dev} (h : d.mem.wf = true) (b : Nat) : (d.snapAdvance b).mem.wf = true := by
  simp only [Dev.snapAdvance]
  split
  · exact h
  · split
    · exact h
    · refine Dev.foldl_wf _ (fun d x h => ?_) _ _ ?_
      · split
        · exact h
        · exact Dev.snapDest_wf (by simpa only [Dev.sendHeld_mem] using h) _ _
      · exact h

@[simp] theorem Dev.snapCommit_mem (d : Dev) (pkt : Packet) : (d.snapCommit pkt).mem = d.mem := by
  simp only [Dev.snapCommit]

@[simp] theorem Dev.takeRecord_mem (d : Dev) (b : Nat) (r : List Byte) : (d.takeRecord b r).mem = d.mem := by
  simp only [Dev.takeRecord, Dev.sets_mem]

theorem Dev.restoreEnd_wf {d : Dev} (h : d.mem.wf = true) (b status version : Nat) : (d.restoreEnd b status version).mem.wf = true := by
  simp only [Dev.restoreEnd]
  split
  · exact h
  · refine Dev.complete_wf ?_ _ _ _
    split
    · simp only [Dev.set_mem]
      split
      · simp only [Dev.set_mem, Dev.sets_mem, Dev.putFltBay_mem]
        split
        · simpa only [Dev.forget_mem, Dev.sendHeld_mem, Dev.ite_mem, ite_self] using h
        · simpa only [Dev.forget_mem] using h
      · simp only [Dev.sets_mem, Dev.putFltBay_mem]
        split
        · simpa only [Dev.forget_mem, Dev.sendHeld_mem, Dev.ite_mem, ite_self] using h
        · simpa only [Dev.forget_mem] using h
    · split
      · simp only [Dev.set_mem, Dev.sets_mem, Dev.putFltBay_mem]
        split
        · simpa only [Dev.forget_mem, Dev.sendHeld_mem, Dev.ite_mem, ite_self] using h
        · simpa only [Dev.forget_mem] using h
      · simp only [Dev.sets_mem, Dev.putFltBay_mem]
        split
        · simpa only [Dev.forget_mem, Dev.sendHeld_mem, Dev.ite_mem, ite_self] using h
        · simpa only [Dev.forget_mem] using h

theorem Dev.restoreUnits_wf {d : Dev} (h : d.mem.wf = true) (b v base : Nat) : (d.restoreUnits b v base).mem.wf = true := by
  simp only [Dev.restoreUnits]
  refine Dev.foldl_wf _ (fun d x h => ?_) _ _ ?_
  · exact Dev.putBayBytes_wf _ _ _ _ h
  · exact h

theorem Dev.restoreFrom_wf {d : Dev} (h : d.mem.wf = true) (b atLeast : Nat) (s : Option (Nat × List Byte)) :
    (d.restoreFrom b atLeast s).mem.wf = true := by
  cases s with
  | none => exact Dev.restoreEnd_wf h _ _ _
  | some p =>
    refine Dev.restoreEnd_wf ?_ _ _ _
    simpa only [Dev.takeRecord_mem] using Dev.restoreUnits_wf h _ _ _

theorem Dev.restoreHost_wf {d : Dev} (h : d.mem.wf = true) (b atLeast : Nat) : (d.restoreHost b atLeast).mem.wf = true := by
  simp only [Dev.restoreHost]
  exact Dev.restoreFrom_wf h _ _ _

theorem Dev.restoreLocal_wf {d : Dev} (h : d.mem.wf = true) (b dev dst : Nat) : (d.restoreLocal b dev dst).mem.wf = true := by
  simp only [Dev.restoreLocal]
  split
  · exact Dev.restoreEnd_wf h _ _ _
  · split
    · split
      · exact Dev.restoreEnd_wf h _ _ _
      · refine Dev.restoreEnd_wf ?_ _ _ _
        refine Dev.foldl_wf _ (fun d x h => ?_) _ _ ?_
        · exact Dev.putBayBytes_wf _ _ _ _ h
        · exact h
    · exact Dev.restoreEnd_wf h _ _ _

theorem Dev.nextSource_wf {d : Dev} (h : d.mem.wf = true) (b : Nat) : (d.nextSource b).mem.wf = true := by
  simp only [Dev.nextSource]
  split
  · exact h
  · split
    · simpa only [Dev.sendHeld_mem, Dev.sets_mem, Dev.putFltBay_mem, Dev.forget_mem] using h
    · split
      · exact Dev.restoreHost_wf (by simpa only [Dev.putFltBay_mem, Dev.forget_mem] using h) _ _
      · exact Dev.restoreEnd_wf (by simpa only [Dev.putFltBay_mem, Dev.forget_mem] using h) _ _ _

theorem Dev.restoreBegin_wf {d : Dev} (h : d.mem.wf = true) (b : Nat) : (d.restoreBegin b).mem.wf = true := by
  simp only [Dev.restoreBegin]
  split
  · exact h
  · split
    · exact h
    · split
      · exact Dev.restoreHost_wf (by simpa only [Dev.putFltBay_mem] using h) _ _
      · exact Dev.nextSource_wf (by simpa only [Dev.putFltBay_mem] using h) _
      · exact Dev.restoreLocal_wf (by simpa only [Dev.putFltBay_mem] using h) _ _ _

theorem Dev.restoreCmd_wf {d : Dev} (h : d.mem.wf = true) (c : Cmd) : (d.restoreCmd c).mem.wf = true := by
  simp only [Dev.restoreCmd]
  split
  · exact Dev.complete_wf (by simpa only [Dev.startCmd_mem] using h) _ _ _
  · exact Dev.restoreBegin_wf (by simpa only [Dev.putFltBay_mem, Dev.startCmd_mem] using h) _

@[simp] theorem Dev.sendRefillReply_mem (d : Dev) (dest tag res up slotV base : Nat) (payload : List Byte) : (d.sendRefillReply dest tag res up slotV base payload).mem = d.mem := by
  simp only [Dev.sendRefillReply, Dev.sendHeld_mem]

@[simp] theorem Dev.refillAnswer_mem (d : Dev) (b : Nat) (pkt : Packet) : (d.refillAnswer b pkt).mem = d.mem := by
  simp only [Dev.refillAnswer]
  split
  · simp only [Dev.sendRefillReply_mem]
  · split
    · simp only [Dev.sendRefillReply_mem]
    · repeat' split
      all_goals simp only [Dev.sendRefillReply_mem, Dev.set_mem, Dev.putFltBay_mem]

@[simp] theorem Dev.refillReq_mem (d : Dev) (pkt : Packet) : (d.refillReq pkt).mem = d.mem := by
  simp only [Dev.refillReq]
  split <;> simp only [Dev.sendRefillReply_mem, Dev.putFltBay_mem, Dev.refillAnswer_mem, Dev.ite_mem, ite_self]

@[simp] theorem Dev.answerAsks_mem (d : Dev) (b : Nat) : (d.answerAsks b).mem = d.mem := by
  simp only [Dev.answerAsks]
  refine (Dev.foldl_mem _ (fun d x => ?_) _ _).trans ?_
  · simp only [Dev.refillAnswer_mem]
  · simp only [Dev.putFltBay_mem]

@[simp] theorem Dev.readChunk_mem (d : Dev) (b c : Nat) (r : Refill) : (d.readChunk b c r).mem = d.mem := by
  simp only [Dev.readChunk]
  refine (Dev.foldl_mem _ (fun d x => ?_) _ _).trans ?_
  · split <;> simp only [Dev.sendReads_mem]
  · rfl

theorem Dev.refillFinish_wf {d : Dev} (h : d.mem.wf = true) (b : Nat) (r : Refill) : (d.refillFinish b r).mem.wf = true := by
  simp only [Dev.refillFinish]
  split <;> exact Dev.restoreEnd_wf (by simpa only [Dev.takeRecord_mem] using h) _ _ _

theorem Dev.refillNext_wf {d : Dev} (h : d.mem.wf = true) (b : Nat) : (d.refillNext b).mem.wf = true := by
  simp only [Dev.refillNext]
  split
  · exact h
  · split
    · simpa only [Dev.readChunk_mem] using h
    · exact Dev.refillFinish_wf h _ _

theorem Dev.refillReply_wf {d : Dev} (h : d.mem.wf = true) (pkt : Packet) : (d.refillReply pkt).mem.wf = true := by
  simp only [Dev.refillReply]
  refine Dev.foldl_wf _ (fun d x h => ?_) _ _ ?_
  · split
    · exact h
    · split
      · simpa only [Dev.set_mem, Dev.putFltBay_mem] using h
      · split
        · split
          · exact h
          · split
            · exact Dev.nextSource_wf h _
            · exact Dev.refillNext_wf (by simpa only [Dev.sets_mem, Dev.putFltBay_mem] using h) _
        · exact h
  · exact h

theorem Dev.refillAdvance_wf {d : Dev} (h : d.mem.wf = true) (b c : Nat) : (d.refillAdvance b c).mem.wf = true := by
  simp only [Dev.refillAdvance]
  split
  · exact h
  · split
    · exact h
    · exact Dev.refillNext_wf (by simpa only [Dev.set_mem, Dev.putFltBay_mem] using h) _

theorem Dev.refillData_wf {d : Dev} (h : d.mem.wf = true) (b va : Nat) (bytes : List Byte) : (d.refillData b va bytes).mem.wf = true := by
  simp only [Dev.refillData]
  split
  · exact h
  · split <;> exact Dev.putBayBytes_wf _ _ _ _ h

@[simp] theorem Dev.tokenFails_mem (d : Dev) : (d.tokenFails).mem = d.mem := by
  simp only [Dev.tokenFails, Dev.set_mem, Dev.ite_mem, ite_self]

theorem Dev.ownerFails_wf {d : Dev} (h : d.mem.wf = true) (o : Owner) (code : Nat) : (d.ownerFails o code).mem.wf = true := by
  simp only [Dev.ownerFails]
  split
  · exact h
  · simpa only [Dev.tokenFails_mem, Dev.ite_mem, ite_self] using h
  · simpa only [Dev.dmaPacketFails_mem] using h
  · simpa only [Dev.dmaPacketFails_mem] using h
  · exact Dev.complete_wf (by simpa only [Dev.forget_mem] using h) _ _ _
  · exact Dev.complete_wf (by simpa only [Dev.forget_mem] using h) _ _ _
  · exact Dev.snapFail_wf h _
  · split
    · simpa only [Dev.endStepEarly_mem, Dev.sets_mem, Dev.incSat_mem] using h
    · exact Dev.memberLeaves_wf h _ _ _ _
  · exact Dev.nextSource_wf h _

theorem Dev.failPackets_wf {d : Dev} (h : d.mem.wf = true) (p : Packet → Bool) : (d.failPackets p).mem.wf = true := by
  simp only [Dev.failPackets]
  refine Dev.foldl_wf _ (fun d x h => ?_) _ _ ?_
  · exact Dev.ownerFails_wf h _ _
  · simpa only [Dev.incSat_mem, Dev.releaseSent_mem] using h

@[simp] theorem Dev.listDead_mem (d : Dev) (dev time : Nat) : (d.listDead dev time).mem = d.mem := by
  rw [Dev.listDead, Dev.emit_mem, Dev.sets_mem]

/-- What a death does to one bay. -/
theorem Dev.deadEffects_wf {d : Dev} (h : d.mem.wf = true) (dev : Nat) : (d.deadEffects dev).mem.wf = true := by
  unfold Dev.deadEffects
  extract_lets d₁ d₂
  have h₂ : d₂.mem.wf = true := Dev.deadMember_wf (Dev.failPackets_wf h _) dev
  refine Dev.foldl_wf _ (fun d b h => ?_) _ _ h₂
  extract_lets e₁ fb e₂ e₃
  have hbind : e₁.mem = d.mem := by
    refine Dev.foldl_mem _ (fun d i => ?_) _ _
    rw [Dev.ite_mem, Dev.setBind_mem, ite_self]
  clear_value e₁
  have he₂ : e₂.mem.wf = true := by
    refine Dev.wf_of_mem_eq ?_ h
    unfold e₂
    rw [Dev.ite_mem, Dev.set_mem, Dev.putFltBay_mem, ite_self, hbind]
  clear_value e₂
  have he₃ : e₃.mem.wf = true := by
    unfold e₃
    split
    · split
      · exact Dev.nextSource_wf he₂ b
      · exact he₂
    · exact he₂
  split
  · rwa [Dev.dropOut_mem]
  · exact he₃

@[simp] theorem Dev.noticeResend_mem (d : Dev) : (d.noticeResend).mem = d.mem := by
  simp only [Dev.noticeResend]
  refine (Dev.foldl_mem _ (fun d x => ?_) _ _).trans ?_
  · simp only [Dev.sendAck_mem]
  · rfl

theorem Dev.nameDead_wf {d : Dev} (h : d.mem.wf = true) (dev time : Nat) : (d.nameDead dev time).mem.wf = true := by
  simp only [Dev.nameDead]
  split
  · refine Dev.foldl_wf _ (fun d x h => ?_) _ _ ?_
    · simpa only [Dev.dropOut_mem] using h
    · simpa only [Dev.set_mem] using h
  · split
    · simpa only [Dev.incSat_mem] using h
    · exact Dev.deadEffects_wf (by simpa only [Dev.listDead_mem] using h) _

@[simp] theorem Dev.sendNotice_mem (d : Dev) (kind dev port : Nat) : (d.sendNotice kind dev port).mem = d.mem := by
  simp only [Dev.sendNotice, Dev.broadcast_mem, Dev.noticeResend_mem]

theorem Dev.declareDead_wf {d : Dev} (h : d.mem.wf = true) (dev port : Nat) : (d.declareDead dev port).mem.wf = true := by
  simp only [Dev.declareDead]
  split
  · exact h
  · simpa only [Dev.sendNotice_mem] using Dev.nameDead_wf h _ _

theorem Dev.faultNotice_wf {d : Dev} (h : d.mem.wf = true) (pkt : Packet) : (d.faultNotice pkt).mem.wf = true := by
  simp only [Dev.faultNotice, Dev.noticeResend_mem]
  split
  · exact Dev.nameDead_wf h _ _
  · simpa only [Dev.incSat_mem] using h

@[simp] theorem Dev.resend_mem (d : Dev) (e : SentPkt) : (d.resend e).mem = d.mem := by
  simp only [Dev.resend, Dev.sendRouted_mem]

@[simp] theorem Dev.faultTimer_mem (d : Dev) : (d.faultTimer).mem = d.mem := by
  simp only [Dev.faultTimer]
  split
  · rfl
  · split
    · rfl
    · refine (Dev.foldl_mem _ (fun d x => ?_) _ _).trans ?_
      · simp only [Dev.resend_mem]
      · rfl

@[simp] theorem Dev.dropAtEdge_mem (d : Dev) (b : Nat) : (d.dropAtEdge b).mem = d.mem := by
  rw [Dev.dropAtEdge]
  split
  · rfl
  · split
    · rfl
    · dsimp only
      refine (Dev.foldl_mem _ (fun d x => ?_) _ _).trans ?_
      · rw [Dev.putCtx_mem]
      · split
        · rw [Dev.endStepEarly_mem, Dev.putBay_mem, Dev.leaveAll_mem, Dev.sets_mem, Dev.putFltBay_mem]
        · rw [Dev.leaveAll_mem, Dev.sets_mem, Dev.putFltBay_mem]

@[simp] theorem Dev.clearDropped_mem (d : Dev) (b : Nat) : (d.clearDropped b).mem = d.mem := by
  simp only [Dev.clearDropped, Dev.set_mem]

@[simp] theorem Dev.deadClear_mem (d : Dev) (dev : Nat) : (d.deadClear dev).mem = d.mem := by
  simp only [Dev.deadClear, Dev.set_mem, Dev.dropSlots_mem]

theorem Dev.fltStrike_wf {d : Dev} (h : d.mem.wf = true) (b : Nat) : (d.fltStrike b).mem.wf = true := by
  simp only [Dev.fltStrike, Dev.wr_mem, Dev.putFltBay_mem]
  split
  · simpa only [Dev.sendRefillReply_mem, Dev.sendUnbind_mem] using Dev.restoreEnd_wf (Dev.endSnapCmds_wf (Dev.snapFail_wf h _) _ _ _) _ _ _
  · simpa only [Dev.sendUnbind_mem] using Dev.restoreEnd_wf (Dev.endSnapCmds_wf (Dev.snapFail_wf h _) _ _ _) _ _ _

/-! ### Synchronisation (chapter 13) -/

@[simp] theorem Dev.sendRecord_mem (d : Dev) (p : Nat) : (d.sendRecord p).mem = d.mem := by
  simp only [Dev.sendRecord]
  split
  · refine (Dev.foldl_mem _ (fun d x => ?_) _ _).trans ?_
    · simp only [Dev.toPort_mem]
    · simp only [Dev.updPort_mem]
  · simp only [Dev.emit_mem, Dev.updPort_mem]

@[simp] theorem Dev.resendRecords_mem (d : Dev) : (d.resendRecords).mem = d.mem := by
  simp only [Dev.resendRecords]
  refine (Dev.foldl_mem _ (fun d x => ?_) _ _).trans ?_
  · simp only [Dev.sendRecord_mem, Dev.ite_mem, ite_self]
  · rfl

@[simp] theorem Dev.clearSynced_mem (d : Dev) : (d.clearSynced).mem = d.mem := by
  simp only [Dev.clearSynced, Dev.sets_mem, Dev.ite_mem, ite_self]

@[simp] theorem Dev.checkGuard_mem (d : Dev) : (d.checkGuard).mem = d.mem := by
  simp only [Dev.checkGuard, Dev.clearSynced_mem, Dev.emit_mem, Dev.set_mem, Dev.ite_mem, ite_self]

@[simp] theorem Dev.chooseMaster_mem (d : Dev) : (d.chooseMaster).mem = d.mem := by
  simp only [Dev.chooseMaster]
  split
  · repeat' split
    all_goals simp only [Dev.checkGuard_mem, Dev.sets_mem, Dev.clearSynced_mem]
  · repeat' split
    all_goals simp only [Dev.checkGuard_mem, Dev.sets_mem, Dev.clearSynced_mem]
  · repeat' split
    all_goals simp only [Dev.checkGuard_mem, Dev.sets_mem, Dev.clearSynced_mem]

@[simp] theorem Dev.announce_mem (d : Dev) (p : Nat) (pkt : Packet) : (d.announce p pkt).mem = d.mem := by
  simp only [Dev.announce, Dev.chooseMaster_mem, Dev.ite_mem, ite_self]

@[simp] theorem Dev.sendAnnounce_mem (d : Dev) : (d.sendAnnounce).mem = d.mem := by
  simp only [Dev.sendAnnounce]
  refine (Dev.foldl_mem _ (fun d x => ?_) _ _).trans ?_
  · split
    · refine (Dev.foldl_mem _ (fun d x => ?_) _ _).trans ?_
      · simp only [Dev.toPort_mem]
      · rfl
    · rfl
  · refine (Dev.foldl_mem _ (fun d x => ?_) _ _).trans ?_
    · split <;> simp only [Dev.toPort_mem]
    · rfl

@[simp] theorem Dev.announceSend_mem (d : Dev) : (d.announceSend).mem = d.mem := by
  simp only [Dev.announceSend, Dev.sendAnnounce_mem, Dev.chooseMaster_mem, Dev.ite_mem, ite_self]

@[simp] theorem Dev.ageOut_mem (d : Dev) : (d.ageOut).mem = d.mem := by
  simp only [Dev.ageOut, Dev.chooseMaster_mem]

@[simp] theorem Dev.syncMeasure_mem (d : Dev) : (d.syncMeasure).mem = d.mem := by
  simp only [Dev.syncMeasure]
  split
  · rfl
  · refine (Dev.foldl_mem _ (fun d x => ?_) _ _).trans ?_
    · split
      · refine (Dev.foldl_mem _ (fun d x => ?_) _ _).trans ?_
        · simp only [Dev.toPort_mem, Dev.emit_mem]
        · rfl
      · rfl
    · simp only [Dev.toPort_mem, Dev.ite_mem, ite_self]

@[simp] theorem Dev.shiftTime_mem (d : Dev) (o : Int) : (d.shiftTime o).mem = d.mem := by
  simp only [Dev.shiftTime, Dev.set_mem]

@[simp] theorem Dev.measured_mem (d : Dev) (o : Int) : (d.measured o).mem = d.mem := by
  unfold Dev.measured
  extract_lets bound inside d₁ d₂ out fab sync d₃ d₄ d₅
  have h₂ : d₂.mem = d.mem := by
    unfold d₂
    rw [Dev.ite_mem, Dev.incSat_mem, Dev.set_mem _ TCK_SYNC_STATUS.in_bound, ite_self]
    exact Dev.set_mem ..
  clear_value d₂
  have h₄ : d₄.mem = d.mem := by
    unfold d₄
    rw [Dev.ite_mem, Dev.clearSynced_mem, ite_self]
    exact h₂
  clear_value d₄
  have h₅ : d₅.mem = d.mem := by
    unfold d₅
    rw [Dev.ite_mem, Dev.set_mem, ite_self, h₄]
  clear_value d₅
  split
  · exact h₅
  · rw [Dev.set_mem]
    exact (Dev.fresh_mem _).trans h₅

@[simp] theorem Dev.takeEdges_mem (d : Dev) (pay : List Byte) : (d.takeEdges pay).mem = d.mem := by
  simp only [Dev.takeEdges, Dev.checkGuard_mem, Dev.set_mem, Dev.wrJ_mem, Dev.ite_mem, ite_self]

@[simp] theorem Dev.syncTo_mem (d : Dev) (o : Int) (pay : List Byte) : (d.syncTo o pay).mem = d.mem := by
  simp only [Dev.syncTo, Dev.measured_mem, Dev.shiftTime_mem, Dev.ite_mem, ite_self, Dev.takeEdges_mem]

@[simp] theorem Dev.syncResp_mem (d : Dev) (p : Nat) (pkt : Packet) (t4 : Nat) : (d.syncResp p pkt t4).mem = d.mem := by
  simp only [Dev.syncResp]
  split
  · rfl
  · repeat' split
    all_goals simp only [Dev.syncTo_mem, Dev.takeEdges_mem]

@[simp] theorem Dev.delayResp_mem (d : Dev) (p : Nat) (t4 corr : Nat) : (d.delayResp p t4 corr).mem = d.mem := by
  simp only [Dev.delayResp]
  repeat' split
  all_goals simp only [Dev.measured_mem, Dev.syncTo_mem]

@[simp] theorem Dev.shiftEdge_mem (d : Dev) (o : Int) : (d.shiftEdge o).mem = d.mem := by
  simp only [Dev.shiftEdge]

@[simp] theorem Dev.jumpAtEdge_mem (d : Dev) : (d.jumpAtEdge).mem = d.mem := by
  simp only [Dev.jumpAtEdge]
  split <;> simp only [Dev.shiftEdge_mem, Dev.shiftTime_mem, Dev.ite_mem, ite_self]

@[simp] theorem Dev.ppsPulse_mem (d : Dev) : (d.ppsPulse).mem = d.mem := by
  unfold Dev.ppsPulse
  dsimp only
  split
  · rw [Dev.chooseMaster_mem, Dev.set_mem]
  · rw [Dev.sets_mem]
    exact (Dev.fresh_mem _).trans ((Dev.chooseMaster_mem _).trans (Dev.set_mem ..))

@[simp] theorem Dev.ppsAbsent_mem (d : Dev) : (d.ppsAbsent).mem = d.mem := by
  simp only [Dev.ppsAbsent]
  split <;> simp only [Dev.chooseMaster_mem, Dev.sets_mem, Dev.ite_mem, ite_self]

theorem Dev.sourceRoute_mem {d : Dev} {target : Dev → Packet → Dev} (htarget : ∀ d q, (target d q).mem = d.mem) (a : Nat)
    (pkt : Packet) : (d.sourceRoute a pkt target).mem = d.mem := by
  unfold Dev.sourceRoute
  dsimp only
  repeat' split
  · rfl
  · exact htarget _ _
  · simp only [Dev.toPort_mem]
  · rfl

@[simp] theorem Dev.discoverReply_mem (d : Dev) (pkt : Packet) : (d.discoverReply pkt).mem = d.mem := by
  simp only [Dev.discoverReply, Dev.toPort_mem]

/-! ### Links (chapter 12) -/

@[simp] theorem Dev.setPort_mem (d : Dev) (p st : Nat) : (d.setPort p st).mem = d.mem := by
  simp only [Dev.setPort, Dev.updPort_mem, Dev.sets_mem, Dev.set_mem, Dev.chooseMaster_mem, Dev.reroute_mem, Dev.ite_mem, ite_self]

theorem Dev.declarePeer_wf {d : Dev} (h : d.mem.wf = true) (p : Nat) (dev : Option Nat) : (d.declarePeer p dev).mem.wf = true := by
  simp only [Dev.declarePeer]
  split
  · simpa only [Dev.sendNotice_mem, Dev.chooseMaster_mem, Dev.reroute_mem, Dev.updPort_mem, Dev.incSat_mem, Dev.sets_mem, Dev.ite_mem, ite_self] using h
  · split
    · split
      · simpa only [Dev.sendNotice_mem, Dev.chooseMaster_mem, Dev.reroute_mem, Dev.updPort_mem, Dev.incSat_mem, Dev.sets_mem, Dev.ite_mem, ite_self] using h
      · exact Dev.declareDead_wf (by simpa only [Dev.chooseMaster_mem, Dev.reroute_mem, Dev.updPort_mem, Dev.incSat_mem, Dev.sets_mem] using h) _ _
    · split
      · simpa only [Dev.sendNotice_mem, Dev.chooseMaster_mem, Dev.reroute_mem, Dev.updPort_mem, Dev.incSat_mem, Dev.sets_mem, Dev.ite_mem, ite_self] using h
      · exact Dev.declareDead_wf (by simpa only [Dev.chooseMaster_mem, Dev.reroute_mem, Dev.updPort_mem, Dev.incSat_mem, Dev.sets_mem] using h) _ _

theorem Dev.fall_wf {d : Dev} (h : d.mem.wf = true) (p st : Nat) : (d.fall p st).mem.wf = true := by
  simp only [Dev.fall]
  split
  · exact Dev.declarePeer_wf (by simpa only [Dev.updPort_mem, Dev.setPort_mem] using h) _ _
  · simpa only [Dev.updPort_mem, Dev.setPort_mem] using h

@[simp] theorem Dev.fabRest_mem (d : Dev) (dom : Nat) : (d.fabRest dom).mem = d.mem := by
  simp only [Dev.fabRest, Dev.moveDomain_mem, Dev.ite_mem, ite_self]

@[simp] theorem Dev.portAdmin_mem (d : Dev) (p : Nat) : (d.portAdmin p).mem = d.mem := by
  simp only [Dev.portAdmin, Dev.moveDomain_mem, Dev.setPort_mem, Dev.updPort_mem, Dev.ite_mem, ite_self, Dev.emit_mem, Dev.fabRest_mem]

@[simp] theorem Dev.signalDetect_mem (d : Dev) (p lanes : Nat) : (d.signalDetect p lanes).mem = d.mem := by
  simp only [Dev.signalDetect, Dev.setPort_mem, Dev.updPort_mem, Dev.ite_mem, ite_self]

@[simp] theorem Dev.linkInit_mem (d : Dev) (p : Nat) (rsv : List Nat) : (d.linkInit p rsv).mem = d.mem := by
  simp only [Dev.linkInit, Dev.sendRecord_mem, Dev.setPort_mem, Dev.updPort_mem, Dev.ite_mem, ite_self]

@[simp] theorem Dev.checkConflict_mem (d : Dev) (r : Nat) : (d.checkConflict r).mem = d.mem := by
  simp only [Dev.checkConflict, Dev.emit_mem, Dev.set_mem, Dev.ite_mem, ite_self]

@[simp] theorem Dev.recordLane_mem (d : Dev) (p : Nat) : (d.recordLane p).mem = d.mem := by
  simp only [Dev.recordLane]
  split <;> simp only [Dev.fieldUpdate_mem, Dev.updPort_mem]

@[simp] theorem Dev.rebind_mem (d : Dev) (r : Nat) : (d.rebind r).mem = d.mem := by
  simp only [Dev.rebind]
  split
  · rfl
  · refine (Dev.foldl_mem _ (fun d x => ?_) _ _).trans ?_
    · refine (Dev.foldl_mem _ (fun d x => ?_) _ _).trans ?_
      · simp only [Dev.startBind_mem, Dev.ite_mem, ite_self]
      · rfl
    · rfl

theorem Dev.handshake_wf {d : Dev} (h : d.mem.wf = true) (p r : Nat) : (d.handshake p r).mem.wf = true := by
  unfold Dev.handshake
  extract_lets st same d₁ d₂ d₃ bad d₄ d₅ d₆
  have h₂ : d₂.mem.wf = true :=
    Dev.wf_of_mem_eq ((Dev.checkConflict_mem ..).trans (Dev.foldl_mem _ (fun _ _ => Dev.set_mem ..) _ _)) h
  clear_value d₂
  have h₃ : d₃.mem.wf = true := by
    unfold d₃
    split
    · exact h₂
    · exact Dev.wf_of_mem_eq (Dev.rebind_mem ..) h₂
  clear_value d₃
  have h₄ : d₄.mem.wf = true := Dev.wf_of_mem_eq ((Dev.updPort_mem ..).trans (Dev.set_mem ..)) h₃
  clear_value d₄
  have h₅ : d₅.mem.wf = true := Dev.wf_of_mem_eq (Dev.sendRecord_mem ..) h₄
  clear_value d₅
  split
  · exact h
  · split
    · exact h₃
    · split
      · rw [Dev.sendRecord_mem]
        exact Dev.fall_wf (Dev.wf_of_mem_eq (Dev.set_mem ..) h₄) ..
      · split
        · rwa [Dev.drainQueue_mem, Dev.recordLane_mem, Dev.setPort_mem, Dev.updPort_mem]
        · exact h₅

@[simp] theorem Dev.handshakeResend_mem (d : Dev) (p : Nat) : (d.handshakeResend p).mem = d.mem := by
  simp only [Dev.handshakeResend, Dev.sendRecord_mem, Dev.ite_mem, ite_self, Dev.setPort_mem]

@[simp] theorem Dev.ackCredit_mem (d : Dev) (p seq : Nat) (cum : List Nat) (rtt : Nat) : (d.ackCredit p seq cum rtt).mem = d.mem := by
  simp only [Dev.ackCredit, Dev.drainQueue_mem, Dev.set_mem, Dev.putPort_mem, Dev.ite_mem, ite_self]

@[simp] theorem Dev.sendCredit_mem (d : Dev) (p : Nat) : (d.sendCredit p).mem = d.mem := by
  simp only [Dev.sendCredit, Dev.emit_mem, Dev.putPort_mem]

@[simp] theorem Dev.nak_mem (d : Dev) (p seq : Nat) : (d.nak p seq).mem = d.mem := by
  simp only [Dev.nak, Dev.putPort_mem, Dev.incSat_mem, Dev.emit_mem, Dev.ite_mem, ite_self]

@[simp] theorem Dev.retrain_mem (d : Dev) (p : Nat) (fecLost : Bool) : (d.retrain p fecLost).mem = d.mem := by
  simp only [Dev.retrain, Dev.setPort_mem, Dev.updPort_mem, Dev.sendNotice_mem, Dev.ite_mem, ite_self]

@[simp] theorem Dev.heartbeat_mem (d : Dev) (p : Nat) : (d.heartbeat p).mem = d.mem := by
  simp only [Dev.heartbeat, Dev.chooseMaster_mem, Dev.set_mem, Dev.updPort_mem, Dev.incWrap_mem, Dev.ite_mem, ite_self]

@[simp] theorem Dev.heartbeatSend_mem (d : Dev) (p : Nat) : (d.heartbeatSend p).mem = d.mem := by
  simp only [Dev.heartbeatSend]
  split
  · rfl
  · split
    · simp only [Dev.emit_mem, Dev.putPort_mem]
    · refine (Dev.foldl_mem _ (fun d x => ?_) _ _).trans ?_
      · simp only [Dev.toPort_mem]
      · simp only [Dev.putPort_mem]

theorem Dev.peerDead_wf {d : Dev} (h : d.mem.wf = true) (p : Nat) (peer : Option Nat) : (d.peerDead p peer).mem.wf = true := by
  simp only [Dev.peerDead]
  split
  · split
    · split
      · exact h
      · exact Dev.declarePeer_wf h _ _
    · exact h
  · split
    · split
      · split
        · exact h
        · exact Dev.declarePeer_wf h _ _
      · exact h
    · exact h

@[simp] theorem Dev.sendRetire_mem (d : Dev) (p code lane : Nat) : (d.sendRetire p code lane).mem = d.mem := by
  simp only [Dev.sendRetire, Dev.emit_mem]

@[simp] theorem Dev.withdraw_mem (d : Dev) (p lane : Nat) : (d.withdraw p lane).mem = d.mem := by
  simp only [Dev.withdraw, Dev.setPort_mem, Dev.updPort_mem]

@[simp] theorem Dev.retire_mem (d : Dev) (p code lane : Nat) : (d.retire p code lane).mem = d.mem := by
  simp only [Dev.retire, Dev.sendRetire_mem, Dev.withdraw_mem, Dev.updPort_mem, Dev.ite_mem, ite_self]

@[simp] theorem Dev.retireAgain_mem (d : Dev) (p : Nat) : (d.retireAgain p).mem = d.mem := by
  simp only [Dev.retireAgain]
  split <;> simp only [Dev.sendRetire_mem, Dev.putPort_mem, Dev.ite_mem, ite_self]

theorem Dev.drained_wf {d : Dev} (h : d.mem.wf = true) (p : Nat) : (d.drained p).mem.wf = true := by
  simp only [Dev.drained]
  split
  · exact h
  · split
    · simpa only [Dev.fabRest_mem, Dev.setPort_mem, Dev.updPort_mem] using h
    · split
      · simpa only [Dev.setPort_mem, Dev.set_mem] using h
      · split
        · split
          · exact Dev.fall_wf (by simpa only [Dev.recordLane_mem, Dev.updPort_mem, Dev.set_mem] using h) _ _
          · simpa only [Dev.setPort_mem, Dev.updPort_mem, Dev.set_mem] using h
        · simpa only [Dev.setPort_mem, Dev.updPort_mem] using h

@[simp] theorem Dev.laneRetire_mem (d : Dev) (p l : Nat) : (d.laneRetire p l).mem = d.mem := by
  simp only [Dev.laneRetire, Dev.sendRetire_mem, Dev.updPort_mem, Dev.jnlEvent_mem, Dev.withdraw_mem, Dev.fieldUpdate_mem, Dev.ite_mem, ite_self]

@[simp] theorem Dev.laneSecond_mem (d : Dev) (p l n : Nat) : (d.laneSecond p l n).mem = d.mem := by
  simp only [Dev.laneSecond]
  repeat' split
  all_goals simp only [Dev.freeSuspect_mem, Dev.updPort_mem, Dev.incSat_mem, Dev.putSuspects_mem, Dev.incWrap_mem]

/-! ### Routing (chapter 13) -/

@[simp] theorem Dev.flitErrors_mem (d : Dev) (p n : Nat) : (d.flitErrors p n).mem = d.mem := by
  simp only [Dev.flitErrors, Dev.incSat_mem, Dev.emit_mem, Dev.putPort_mem, Dev.ite_mem, ite_self]

@[simp] theorem Dev.takeFlits_mem (d : Dev) (p n : Nat) : (d.takeFlits p n).mem = d.mem := by
  simp only [Dev.takeFlits, Dev.sendCredit_mem, Dev.putPort_mem, Dev.ite_mem, ite_self]

@[simp] theorem Dev.takeBuffer_mem (d : Dev) (p prio : Nat) (flits : List Nat) : (d.takeBuffer p prio flits).2.mem = d.mem := by
  simp only [Dev.takeBuffer, Dev.pfcCheck_mem, Dev.updPort_mem]

@[simp] theorem Dev.takeBroadcast_mem (d : Dev) (p : Nat) (pkt : Packet) (buf : Option Nat) : (d.takeBroadcast p pkt buf).mem = d.mem := by
  unfold Dev.takeBroadcast
  dsimp only
  split
  · rfl
  · split
    · rfl
    · rw [Dev.forward_mem (fun d q => Dev.flood_mem d _ q _)]
      exact Dev.deliver_mem ..

@[simp] theorem Dev.refuseBad_mem (d : Dev) (pkt : Packet) : (d.refuseBad pkt).mem = d.mem := by
  simp only [Dev.refuseBad, Dev.nack_mem, Dev.ite_mem, ite_self]

@[simp] theorem Dev.takeWhole_mem (d : Dev) (p : Nat) (pkt : Packet) (buf : Option Nat) : (d.takeWhole p pkt buf).mem = d.mem := by
  unfold Dev.takeWhole
  dsimp only
  split
  · exact Dev.incSat_mem ..
  · split
    · exact Dev.deliver_mem ..
    · split
      · rfl
      · split
        · rw [Dev.ite_mem, Dev.takeBroadcast_mem, Dev.incSat_mem, ite_self]
        · split
          · split
            · split
              · rw [Dev.ite_mem, Dev.deliver_mem, ite_self, Dev.multicastOut_mem]
              · exact Dev.incSat_mem ..
            · exact Dev.incSat_mem ..
          · split
            · rw [Dev.ite_mem, Dev.refuseBad_mem, Dev.deliver_mem, ite_self]
            · exact Dev.forward_mem (fun d q => Dev.sendRouted_mem d q _) _

@[simp] theorem Dev.takePkt_mem (d : Dev) (p prio : Nat) (flits : List Nat) (pkt : Packet) : (d.takePkt p prio flits pkt).mem = d.mem := by
  unfold Dev.takePkt
  exact (Dev.leaveBuffers_mem _).trans ((Dev.takeWhole_mem ..).trans (Dev.takeBuffer_mem ..))

@[simp] theorem Dev.takeTrain_mem (d : Dev) (p lseq first shared : Nat) (bad : Option Nat) (pkt : Packet) : (d.takeTrain p lseq first shared bad pkt).mem = d.mem := by
  simp only [Dev.takeTrain, Dev.flitErrors_mem, Dev.takeFlits_mem, Dev.ite_mem, ite_self, Dev.takePkt_mem]

@[simp] theorem Dev.secFail_mem (d : Dev) (p : Nat) : (d.secFail p).mem = d.mem := by
  simp only [Dev.secFail, Dev.set_mem, Dev.incSat_mem]

@[simp] theorem Dev.takeFrame_mem (d : Dev) (p : Nat) (h : FrameHdr) (pkt : Packet) : (d.takeFrame p h pkt).mem = d.mem := by
  simp only [Dev.takeFrame]
  repeat' split
  all_goals simp only [Dev.secFail_mem, Dev.incSat_mem, Dev.takePkt_mem, Dev.updPort_mem]

@[simp] theorem Dev.packetReceive_mem (d : Dev) (p : Nat) (unit : RxUnit) (pkt : Packet) (fault : Option RxFault) : (d.packetReceive p unit pkt fault).mem = d.mem := by
  simp only [Dev.packetReceive]
  split
  · simp only [Dev.takeFrame_mem, Dev.ite_mem, ite_self]
  · repeat' split
    all_goals simp only [Dev.incSat_mem, Dev.takeTrain_mem]

theorem Dev.ownersDone_wf {d : Dev} (h : d.mem.wf = true) (l : List Owner) : (d.ownersDone l).mem.wf = true := by
  simp only [Dev.ownersDone]
  refine Dev.foldl_wf _ (fun d x h => ?_) _ _ ?_
  · split
    · split
      · exact h
      · exact Dev.complete_wf h _ _ _
    · split
      · exact h
      · exact Dev.complete_wf h _ _ _
    · exact Dev.snapAdvance_wf h _
    · exact Dev.refillAdvance_wf h _ _
    · exact h
  · exact h

theorem Dev.acknowledge_wf {d : Dev} (h : d.mem.wf = true) (p : SentPkt → Bool) : (d.acknowledge p).mem.wf = true := by
  simp only [Dev.acknowledge]
  exact Dev.ownersDone_wf (by simpa only [Dev.releaseSent_mem] using h) _

theorem Dev.e2eAck_wf {d : Dev} (h : d.mem.wf = true) (pkt : Packet) : (d.e2eAck pkt).mem.wf = true := by
  simp only [Dev.e2eAck]
  split
  · exact Dev.acknowledge_wf h _
  · refine Dev.foldl_wf _ (fun d x h => ?_) _ _ ?_
    · simpa only [Dev.resend_mem] using h
    · exact Dev.acknowledge_wf h _

theorem Dev.endsBad_wf {d : Dev} (h : d.mem.wf = true) (e : SentPkt) (status : Nat) : (d.endsBad e status).mem.wf = true := by
  simp only [Dev.endsBad]
  exact Dev.ownerFails_wf (by simpa only [Dev.releaseSent_mem] using h) _ _

theorem Dev.readData_wf {d : Dev} (h : d.mem.wf = true) (o : Owner) (off : Nat) (bytes : List Byte) : (d.readData o off bytes).mem.wf = true := by
  simp only [Dev.readData]
  split
  · split
    · exact Dev.putBayBytes_wf _ _ _ _ h
    · exact h
  · exact Dev.putBayBytes_wf _ _ _ _ h
  · exact Dev.refillData_wf h _ _ _
  · exact h

theorem Dev.readPart_wf {d : Dev} (h : d.mem.wf = true) (e : SentPkt) (off : Nat) : (d.readPart e off).mem.wf = true := by
  simp only [Dev.readPart]
  split
  · exact Dev.acknowledge_wf h _
  · exact h

theorem Dev.readLost_wf {d : Dev} (h : d.mem.wf = true) (e : SentPkt) (off n : Nat) : (d.readLost e off n).mem.wf = true := by
  simp only [Dev.readLost]
  split
  · split
    · simpa only [Dev.endStepEarly_mem] using Dev.readData_wf h _ _ _
    · exact Dev.readData_wf h _ _ _
  · exact Dev.complete_wf (by simpa only [Dev.forget_mem] using Dev.readData_wf h _ _ _) _ _ _
  · exact Dev.nextSource_wf (Dev.readData_wf h _ _ _) _
  · exact Dev.readData_wf h _ _ _

theorem Dev.e2eTimeout_wf {d : Dev} (h : d.mem.wf = true) (dst tc seq : Nat) : (d.e2eTimeout dst tc seq).mem.wf = true := by
  simp only [Dev.e2eTimeout]
  split
  · exact h
  · split
    · exact h
    · split
      · simpa only [Dev.resend_mem] using h
      · exact Dev.ownerFails_wf (by simpa only [Dev.incSat_mem, Dev.releaseSent_mem] using h) _ _

/-! ### Management frames (chapter 20) -/

@[simp] theorem Dev.putTxq_mem (d : Dev) (q : Nat) (l : List TxFrame) : (d.putTxq q l).mem = d.mem := by
  simp only [Dev.putTxq, Dev.set_mem]

@[simp] theorem Dev.putRxq_mem (d : Dev) (q : Nat) (l : List Frame) : (d.putRxq q l).mem = d.mem := by
  simp only [Dev.putRxq]

@[simp] theorem Dev.sendFrame_mem (d : Dev) (q mac etype : Nat) (payload : List Byte) : (d.sendFrame q mac etype payload).mem = d.mem := by
  simp only [Dev.sendFrame, Dev.putTxq_mem, Dev.ite_mem, ite_self]

@[simp] theorem Dev.sendSegment_mem (d : Dev) (q mac : Nat) (p : Packet) : (d.sendSegment q mac p).mem = d.mem := by
  simp only [Dev.sendSegment, Dev.sendFrame_mem]

@[simp] theorem Dev.answer_mem (d : Dev) (q : Nat) (to' : Nat) (m : Msg) : (d.answer q to' m).mem = d.mem := by
  simp only [Dev.answer, Dev.sendFrame_mem, Dev.set_mem, Dev.incSat_mem, Dev.ite_mem, ite_self]

@[simp] theorem Dev.agentFlush_mem (d : Dev) (n : Nat) : (d.agentFlush n).mem = d.mem := by
  induction n generalizing d with
  | zero => rfl
  | succ n ih =>
    unfold Dev.agentFlush
    dsimp only
    repeat' split
    all_goals simp only [ih, Dev.putRxq_mem, Dev.incSat_mem, Dev.set_mem, Dev.answer_mem]

@[simp] theorem Dev.served_mem (d : Dev) (q : Nat) : (d.served q).mem = d.mem := by
  simp only [Dev.served, Dev.agentFlush_mem, Dev.putRxq_mem]

theorem Dev.onMessage_mem {d : Dev} {f : Dev → Frame → Msg → Dev} (hf : ∀ d fr m, (f d fr m).mem = d.mem) (type : Nat) :
    (d.onMessage type f).mem = d.mem := by
  unfold Dev.onMessage
  repeat' split
  all_goals simp only [hf, Dev.served_mem]

theorem Dev.onMessage_wf {d : Dev} {f : Dev → Frame → Msg → Dev} (h : d.mem.wf = true)
    (hf : ∀ {d : Dev}, d.mem.wf = true → ∀ fr m, (f d fr m).mem.wf = true) (type : Nat) : (d.onMessage type f).mem.wf = true := by
  unfold Dev.onMessage
  repeat' split
  · exact h
  · exact hf (by simpa only [Dev.served_mem] using h) _ _
  · exact h
  · exact h
  · exact h

theorem Dev.onEither_mem {d : Dev} {f : Dev → Nat → Option Frame → Packet → Dev} (hf : ∀ d q fr pkt, (f d q fr pkt).mem = d.mem)
    (type : Nat) (acked : Bool) : (d.onEither type acked f).mem = d.mem := by
  unfold Dev.onEither
  repeat' split
  · exact Dev.control_mem (fun _ _ => hf _ _ _ _) _
  · exact Dev.onPacket_mem (fun _ _ _ => hf _ _ _ _) _ _
  · simp only [hf, Dev.served_mem]
  · rfl
  · rfl

/-! ### Power (chapter 16) -/

@[simp] theorem Dev.showEff_mem (d : Dev) (e : Nat) : (d.showEff e).mem = d.mem := by
  simp only [Dev.showEff, Dev.set_mem, Dev.setPwr_mem]

@[simp] theorem Dev.refreshEff_mem (d : Dev) : (d.refreshEff).mem = d.mem := by
  simp only [Dev.refreshEff, Dev.showEff_mem]

@[simp] theorem Dev.bootFail_mem (d : Dev) (cause : Nat) : (d.bootFail cause).mem = d.mem := by
  simp only [Dev.bootFail]
  split
  · rfl
  · refine (Dev.foldl_mem _ (fun d x => ?_) _ _).trans ?_
    · simp only [Dev.moveDomain_mem, Dev.ite_mem, ite_self]
    · simp only [Dev.sets_mem]

@[simp] theorem Dev.spreadHold_mem (d : Dev) (ags : List Nat) (total : Nat) : (d.spreadHold ags total).mem = d.mem := by
  simp only [Dev.spreadHold]
  refine (Dev.foldl_mem _ (fun d x => ?_) _ _).trans ?_
  · refine (Dev.foldl_mem _ (fun d x => ?_) _ _).trans ?_
    · simp only [Dev.gateIdle_mem]
    · simp only [Dev.putAg_mem]
  · rfl

@[simp] theorem Dev.setHold_mem (d : Dev) (hold : Nat) : (d.setHold hold).mem = d.mem := by
  simp only [Dev.setHold, Dev.spreadHold_mem]

@[simp] theorem Dev.govern_mem (d : Dev) (raw : Nat) : (d.govern raw).mem = d.mem := by
  simp only [Dev.govern, Dev.setHold_mem, Dev.showEff_mem, Dev.setPwr_mem, Dev.set_mem, Dev.incSat_mem, Dev.ite_mem, ite_self]

@[simp] theorem Dev.powerMode_mem (d : Dev) : (d.powerMode).mem = d.mem := by
  rw [Dev.powerMode]
  split
  · rfl
  · dsimp only
    split
    · rw [Dev.setPwr_mem]
    · rw [Dev.emit_mem, Dev.showEff_mem, Dev.emit_mem, Dev.incSat_mem, Dev.sets_mem, Dev.setPwr_mem]

@[simp] theorem Dev.thermalMode_mem (d : Dev) : (d.thermalMode).mem = d.mem := by
  rw [Dev.thermalMode]
  split
  · rfl
  · dsimp only
    split
    · rw [Dev.bootFail_mem, Dev.emit_mem, Dev.setHold_mem, Dev.showEff_mem, Dev.setPwr_mem, Dev.emit_mem, Dev.incSat_mem, Dev.sets_mem]
    · rw [Dev.emit_mem, Dev.setHold_mem, Dev.showEff_mem, Dev.setPwr_mem, Dev.emit_mem, Dev.incSat_mem, Dev.sets_mem]

@[simp] theorem Dev.junctions_mem (d : Dev) (l : List Nat) : (d.junctions l).mem = d.mem := by
  simp only [Dev.junctions, Dev.thermalMode_mem, Dev.setPwr_mem, Dev.sets_mem, Dev.ite_mem, ite_self]

@[simp] theorem Dev.calFails_mem (d : Dev) : (d.calFails).mem = d.mem := by
  simp only [Dev.calFails, Dev.set_mem, Dev.setPwr_mem]

@[simp] theorem Dev.calibrate_mem (d : Dev) (measured : Nat) : (d.calibrate measured).mem = d.mem := by
  rw [Dev.calibrate]
  split
  · rw [Dev.setPwr_mem]
  · dsimp only
    split
    · rw [Dev.calFails_mem, Dev.setPwr_mem]
    · split
      · rw [Dev.setPwr_mem, Dev.setPwr_mem]
      · rw [Dev.setPwr_mem]

@[simp] theorem Dev.checkOverdraw_mem (d : Dev) (measured : Nat) : (d.checkOverdraw measured).mem = d.mem := by
  simp only [Dev.checkOverdraw, Dev.setPwr_mem, Dev.powerMode_mem, Dev.ite_mem, ite_self]

@[simp] theorem Dev.calRead_mem (d : Dev) (measured : Option Nat) (status : Nat) : (d.calRead measured status).mem = d.mem := by
  simp only [Dev.calRead]
  split
  · rfl
  · split
    · simp only [Dev.setPwr_mem]
      split <;> simp only [Dev.checkOverdraw_mem, Dev.calibrate_mem, Dev.setPwr_mem]
    · simp only [Dev.powerMode_mem, Dev.setPwr_mem]
      split <;> simp only [Dev.checkOverdraw_mem, Dev.calibrate_mem, Dev.setPwr_mem]

@[simp] theorem Dev.tighten_mem (d : Dev) : (d.tighten).mem = d.mem := by
  simp only [Dev.tighten, Dev.set_mem, Dev.emit_mem, Dev.setPwr_mem, Dev.ite_mem, ite_self]

@[simp] theorem Dev.askClock_mem (d : Dev) : (d.askClock).mem = d.mem := by
  simp only [Dev.askClock, Dev.emit_mem, Dev.setPwr_mem]

@[simp] theorem Dev.loosen_mem (d : Dev) : (d.loosen).mem = d.mem := by
  simp only [Dev.loosen, Dev.askClock_mem, Dev.ite_mem, ite_self, Dev.set_mem]

@[simp] theorem Dev.throttle_mem (d : Dev) : (d.throttle).mem = d.mem := by
  simp only [Dev.throttle, Dev.incWrap_mem, Dev.setPwr_mem, Dev.set_mem, Dev.ite_mem, ite_self]

@[simp] theorem Dev.pwrEdge_mem (d : Dev) : (d.pwrEdge).mem = d.mem := by
  simp only [Dev.pwrEdge, Dev.setPwr_mem, Dev.set_mem, Dev.tighten_mem, Dev.askClock_mem, Dev.refreshEff_mem, Dev.throttle_mem, Dev.sets_mem, Dev.ite_mem, ite_self, Dev.loosen_mem, Dev.incWrap_mem]

@[simp] theorem Dev.electCoord_mem (d : Dev) : (d.electCoord).mem = d.mem := by
  rw [Dev.electCoord]
  split
  · split
    · split
      · rw [Dev.sets_mem, Dev.set_mem]
      · rw [Dev.setPwr_mem, Dev.sets_mem, Dev.set_mem]
    · split
      · rw [Dev.sets_mem, Dev.set_mem]
      · rw [Dev.setPwr_mem, Dev.sets_mem, Dev.set_mem]
  · split
    · split
      · rw [Dev.sets_mem, Dev.set_mem]
      · rw [Dev.setPwr_mem, Dev.sets_mem, Dev.set_mem]
    · split
      · rw [Dev.sets_mem, Dev.set_mem]
      · rw [Dev.setPwr_mem, Dev.sets_mem, Dev.set_mem]
  · split
    · split
      · rw [Dev.sets_mem, Dev.set_mem]
      · rw [Dev.setPwr_mem, Dev.sets_mem, Dev.set_mem]
    · split
      · rw [Dev.sets_mem, Dev.set_mem]
      · rw [Dev.setPwr_mem, Dev.sets_mem, Dev.set_mem]

@[simp] theorem Dev.sendTokenReq_mem (d : Dev) (windows flags forcedMw : Nat) : (d.sendTokenReq windows flags forcedMw).mem = d.mem := by
  simp only [Dev.sendTokenReq]
  repeat' split
  all_goals simp only [Dev.sendHeld_mem, Dev.setPwr_mem, Dev.sendSegment_mem]

@[simp] theorem Dev.endTokenWait_mem (d : Dev) : (d.endTokenWait).mem = d.mem := by
  rw [Dev.endTokenWait]
  split
  · rw [Dev.sets_mem, Dev.setPwr_mem]
  · rw [Dev.emit_mem, Dev.set_mem, Dev.set_mem, Dev.sets_mem, Dev.setPwr_mem]

@[simp] theorem Dev.renewRequest_mem (d : Dev) (w : Nat) : (d.renewRequest w).mem = d.mem := by
  simp only [Dev.renewRequest]
  split <;> simp only [Dev.set_mem, Dev.sendTokenReq_mem, Dev.setPwr_mem, Dev.endTokenWait_mem, Dev.ite_mem, ite_self]

@[simp] theorem Dev.grantTokens_mem (d : Dev) (w : Nat) : (d.grantTokens w).mem = d.mem := by
  simp only [Dev.grantTokens]
  split
  · simp only [Dev.sets_mem]
  · split
    · simp only [Dev.set_mem, Dev.sets_mem]
    · refine (Dev.foldl_mem _ (fun d x => ?_) _ _).trans ?_
      · simp only [Dev.incWrap_mem, Dev.setPwr_mem, Dev.sendSegment_mem, Dev.sendHeld_mem, Dev.ite_mem, ite_self]
      · simp only [Dev.set_mem, Dev.setPwr_mem, Dev.sets_mem]

@[simp] theorem Dev.tokenWindow_mem (d : Dev) : (d.tokenWindow).mem = d.mem := by
  unfold Dev.tokenWindow
  extract_lets w u forced d₁ grant d₂ d₃ d₄
  have h₁ : d₁.mem = d.mem := by
    unfold d₁
    split
    · rfl
    · rw [Dev.sendTokenReq_mem, show forced = _ from rfl, Dev.jnlEventAfter_mem, Dev.set_mem, Dev.incSat_mem]
  clear_value d₁
  have h₂ : d₂.mem = d.mem := (Dev.setPwr_mem ..).trans h₁
  clear_value d₂
  have h₃ : d₃.mem = d.mem := by
    unfold d₃
    split
    · rw [Dev.set_mem, Dev.setPwr_mem, Dev.endTokenWait_mem, h₂]
    · rw [Dev.incSat_mem, Dev.setPwr_mem, h₂]
    · exact h₂
  clear_value d₃
  have h₄ : d₄.mem = d.mem := (Dev.renewRequest_mem ..).trans h₃
  clear_value d₄
  split
  · rfl
  · rw [Dev.ite_mem, Dev.grantTokens_mem, ite_self, h₄]

@[simp] theorem Dev.coordAnnounce_mem (d : Dev) (path : Nat) (p : Packet) : (d.coordAnnounce path p).mem = d.mem := by
  simp only [Dev.coordAnnounce, Dev.electCoord_mem, Dev.setPwr_mem, Dev.ite_mem, ite_self]

@[simp] theorem Dev.coordSend_mem (d : Dev) : (d.coordSend).mem = d.mem := by
  simp only [Dev.coordSend, Dev.electCoord_mem, Dev.sendSegment_mem, Dev.broadcast_mem, Dev.setPwr_mem, Dev.ite_mem, ite_self]

@[simp] theorem Dev.tokenReq_mem (d : Dev) (path : Nat) (p : Packet) : (d.tokenReq path p).mem = d.mem := by
  simp only [Dev.tokenReq, Dev.set_mem, Dev.setPwr_mem, Dev.incSat_mem, Dev.ite_mem, ite_self]

@[simp] theorem Dev.tokenGrant_mem (d : Dev) (p : Packet) : (d.tokenGrant p).mem = d.mem := by
  simp only [Dev.tokenGrant, Dev.set_mem, Dev.incSat_mem, Dev.incWrap_mem, Dev.setPwr_mem, Dev.ite_mem, ite_self]

@[simp] theorem Dev.domainRequest_mem (d : Dev) (origin dom st : Nat) : (d.domainRequest origin dom st).mem = d.mem := by
  simp only [Dev.domainRequest, Dev.moveDomain_mem, Dev.sets_mem, Dev.jnlRefused_mem, Dev.ite_mem, ite_self]

theorem Dev.agScrub_wf {d : Dev} (h : d.mem.wf = true) (n : Nat) : (d.agScrub n).mem.wf = true :=
  Mems.wf_filterLoc h _

theorem Dev.agDown_wf {d : Dev} (h : d.mem.wf = true) (n : Nat) (off : Bool) : (d.agDown n off).mem.wf = true := by
  rw [Dev.agDown]
  split
  · refine Dev.agScrub_wf ?_ _
    refine Dev.foldl_wf _ (fun d x h => ?_) _ _ ?_
    · rw [Dev.set_mem, Dev.putDma_mem]
      exact h
    · refine Dev.foldl_wf _ (fun d x h => ?_) _ _ ?_
      · rw [Dev.putVec_mem]
        exact h
      · refine Dev.foldl_wf _ (fun d x h => ?_) _ _ ?_
        · rw [Dev.putArr_mem, Dev.stopArray_mem]
          exact h
        · exact h
  · refine Dev.foldl_wf _ (fun d x h => ?_) _ _ ?_
    · rw [Dev.set_mem, Dev.putDma_mem]
      exact h
    · refine Dev.foldl_wf _ (fun d x h => ?_) _ _ ?_
      · rw [Dev.putVec_mem]
        exact h
      · refine Dev.foldl_wf _ (fun d x h => ?_) _ _ ?_
        · rw [Dev.putArr_mem, Dev.stopArray_mem]
          exact h
        · exact h

theorem Dev.hbmLost_wf {d : Dev} (h : d.mem.wf = true) : (d.hbmLost).mem.wf = true :=
  Mems.wf_filterLoc h _

theorem Dev.domainReach_wf {d : Dev} (h : d.mem.wf = true) (dom st : Nat) : (d.domainReach dom st).mem.wf = true := by
  simp only [Dev.domainReach]
  split
  · simpa only [Dev.sets_mem] using h
  · split
    · split
      · split
        · exact Dev.agScrub_wf (by simpa only [Dev.sets_mem] using h) _
        · simpa only [Dev.sets_mem] using h
      · refine Dev.agDown_wf ?_ _ _
        split
        · exact Dev.agScrub_wf (by simpa only [Dev.sets_mem] using h) _
        · simpa only [Dev.sets_mem] using h
    · split
      · split
        · refine Dev.foldl_wf _ (fun d x h => ?_) _ _ ?_
          · simpa only [Dev.portAdmin_mem] using h
          · simpa only [Dev.sets_mem, Dev.ite_mem, ite_self] using h
        · refine Dev.foldl_wf _ (fun d x h => ?_) _ _ ?_
          · simpa only [Dev.setPort_mem, Dev.updPort_mem, Dev.ite_mem, ite_self] using h
          · simpa only [Dev.sets_mem, Dev.ite_mem, ite_self] using h
      · split
        · exact Dev.hbmLost_wf (by simpa only [Dev.sets_mem] using h)
        · simpa only [Dev.sets_mem] using h

theorem Dev.thermalTrip_wf {d : Dev} (h : d.mem.wf = true) : (d.thermalTrip).mem.wf = true := by
  simp only [Dev.thermalTrip]
  split
  · exact h
  · simp only [Dev.bootFail_mem, Dev.jnlEventAfter_mem]
    refine Dev.foldl_wf _ (fun d x h => ?_) _ _ ?_
    · exact Dev.domainReach_wf h _ _
    · simpa only [Dev.emit_mem, Dev.setPwr_mem] using h

/-! ### Security and journal (chapter 18) -/

@[simp] theorem Dev.seal_mem (d : Dev) : (d.seal).mem = d.mem := by
  simp only [Dev.seal, Dev.sets_mem, Dev.setJnl_mem, Dev.jnlAppend_mem]

@[simp] theorem Dev.jnlShow_mem (d : Dev) : (d.jnlShow).mem = d.mem := by
  simp only [Dev.jnlShow, Dev.sets_mem]
  split <;> simp only [Dev.setJnl_mem, Dev.incSat_mem, Dev.ite_mem, ite_self]

@[simp] theorem Dev.drainEvents_mem (d : Dev) (n : Nat) : (d.drainEvents n).mem = d.mem := by
  induction n generalizing d with
  | zero => rfl
  | succ n ih =>
    unfold Dev.drainEvents
    repeat' split
    all_goals simp only [ih, Dev.jnlEvent_mem, Dev.setJnl_mem]

@[simp] theorem Dev.exportFail_mem (d : Dev) : (d.exportFail).mem = d.mem := by
  simp only [Dev.exportFail, Dev.set_mem, Dev.setJ_mem, Dev.ite_mem, ite_self]

/-- A seal that is written out, where there is one. -/
theorem Dev.putSeal_wf {d : Dev} (h : d.mem.wf = true) (p : Nat) (a : SealRec → Nat) (o : Option SealRec) :
    (match o with
      | some r => d.putHostBytes p (a r) (sealBytes r)
      | none => d).mem.wf = true := by
  cases o with
  | none => exact h
  | some r => exact Dev.putHostBytes_wf d p (a r) (sealBytes r) h

theorem Dev.exportCopy_wf {d : Dev} (h : d.mem.wf = true) (p base log2 n : Nat) : (d.exportCopy p base log2 n).mem.wf = true := by
  induction n generalizing d with
  | zero => exact h
  | succ n ih =>
    rw [Dev.exportCopy]
    split
    · exact h
    · split
      · exact h
      · refine ih ?_
        rw [Dev.setJnl_mem]
        refine Dev.putHostBytes_wf _ _ _ _ ?_
        exact Dev.putSeal_wf (Dev.putHostBytes_wf _ _ _ _ h) p (fun r => base + 64 + 2 ^ log2 * 64 + r.index % 64 * 4096) _

theorem Dev.exportRun_wf {d : Dev} (h : d.mem.wf = true) : (d.exportRun).mem.wf = true := by
  simp only [Dev.exportRun]
  split
  · exact h
  · split
    · simpa only [Dev.exportFail_mem] using h
    · split
      · simpa only [Dev.exportFail_mem] using h
      · exact Dev.exportCopy_wf h _ _ _ _

theorem Dev.exportStart_wf {d : Dev} (h : d.mem.wf = true) : (d.exportStart).mem.wf = true := by
  simp only [Dev.exportStart]
  exact Dev.exportRun_wf (by simpa only [Dev.setJnl_mem] using h)

theorem Dev.exportPoll_wf {d : Dev} (h : d.mem.wf = true) (readable : Bool) : (d.exportPoll readable).mem.wf = true := by
  simp only [Dev.exportPoll]
  split
  · exact h
  · split
    · simpa only [Dev.exportFail_mem] using h
    · split
      · simpa only [Dev.exportFail_mem] using h
      · exact Dev.exportRun_wf (by simpa only [Dev.setJnl_mem] using h)

@[simp] theorem Dev.secResult_mem (d : Dev) (op reason : Nat) : (d.secResult op reason).mem = d.mem := by
  rw [Dev.secResult]
  split
  · rw [Dev.set_mem, Dev.sets_mem]
  · rw [Dev.sets_mem]

@[simp] theorem Dev.showKeys_mem (d : Dev) : (d.showKeys).mem = d.mem := by
  simp only [Dev.showKeys, Dev.set_mem]

@[simp] theorem Dev.installMacsec_mem (d : Dev) (p a : Nat) (key : Option Nat) : (d.installMacsec p a key).mem = d.mem := by
  simp only [Dev.installMacsec, Dev.updPort_mem]

@[simp] theorem Dev.installPackage_mem (d : Dev) : (d.installPackage).mem = d.mem := by
  simp only [Dev.installPackage]
  split <;> simp only [Dev.secResult_mem, Dev.jnlEventAfter_mem, Dev.installMacsec_mem, Dev.acceptSeq_mem, Dev.showKeys_mem, Dev.ite_mem, ite_self]

@[simp] theorem Dev.zeroiseKeys_mem (d : Dev) : (d.zeroiseKeys).mem = d.mem := by
  simp only [Dev.zeroiseKeys, Dev.showKeys_mem]

@[simp] theorem Dev.writeOwner_mem (d : Dev) (r : Config.OwnerRecord) : (d.writeOwner r).mem = d.mem := by
  simp only [Dev.writeOwner, Dev.sets_mem]

@[simp] theorem Dev.presentOwner_mem (d : Dev) : (d.presentOwner).mem = d.mem := by
  simp only [Dev.presentOwner]
  repeat' split
  all_goals simp only [Dev.secResult_mem, Dev.jnlEventAfter_mem, Dev.zeroiseKeys_mem, Dev.writeOwner_mem]

@[simp] theorem Dev.secServe_mem (d : Dev) (op : Nat) : (d.secServe op).mem = d.mem := by
  unfold Dev.secServe
  split
  · exact Dev.installPackage_mem _
  · exact Dev.presentOwner_mem _
  · rw [Dev.secResult_mem, Dev.seal_mem]

@[simp] theorem Dev.secCmd_mem (d : Dev) (via : Via) (op : Nat) : (d.secCmd via op).mem = d.mem := by
  simp only [Dev.secCmd, Dev.secResult_mem, Dev.secServe_mem, Dev.sets_mem, Dev.ite_mem, ite_self]

@[simp] theorem Dev.writeDue_mem (d : Dev) (n : Nat) : (d.writeDue n).mem = d.mem := by
  induction n generalizing d with
  | zero => rfl
  | succ n ih =>
    unfold Dev.writeDue
    split
    · rfl
    · simp only [ih, Dev.writeField_mem]

@[simp] theorem Dev.secResume_mem (d : Dev) : (d.secResume).mem = d.mem := by
  simp only [Dev.secResume]
  split <;> simp only [Dev.secServe_mem, Dev.set_mem, Dev.writeDue_mem, Dev.ite_mem, ite_self]

@[simp] theorem Dev.secReturn_mem (d : Dev) : (d.secReturn).mem = d.mem := by
  simp only [Dev.secReturn, Dev.secResume_mem, Dev.seal_mem, Dev.ite_mem, ite_self]

@[simp] theorem Dev.ideFail_mem (d : Dev) (p stream : Nat) : (d.ideFail p stream).mem = d.mem := by
  simp only [Dev.ideFail, Dev.jnlEventAfter_mem, Dev.set_mem]

/-! ### Firmware (chapter 17) -/

@[simp] theorem Dev.showRecent_mem (d : Dev) (c : Nat) : (d.showRecent c).mem = d.mem := by
  simp only [Dev.showRecent, Dev.set_mem, Dev.setFw_mem]

theorem Dev.abandonRaises_wf {d : Dev} (h : d.mem.wf = true) (activation : Bool) : (d.abandonRaises activation).mem.wf = true := by
  simp only [Dev.abandonRaises]
  refine Dev.foldl_wf _ (fun d x h => ?_) _ _ ?_
  · split
    · split
      · exact h
      · exact Dev.raiseFail_wf h _ _
    · exact h
  · exact h

theorem Dev.beginRestart_wf {d : Dev} (h : d.mem.wf = true) (c cause : Nat) : (d.beginRestart c cause).mem.wf = true := by
  simp only [Dev.beginRestart]
  split
  · refine Dev.foldl_wf _ (fun d x h => ?_) _ _ ?_
    · exact Dev.restoreEnd_wf h _ _ _
    · exact Dev.abandonRaises_wf (by simpa only [Dev.incSat_mem, Dev.sets_mem, Dev.setFw_mem] using h) _
  · simpa only [Dev.incSat_mem, Dev.sets_mem, Dev.setFw_mem] using h

@[simp] theorem Dev.setSlot_mem (d : Dev) (c : Nat) (b : Bool) : (d.setSlot c b).mem = d.mem := by
  simp only [Dev.setSlot, Dev.setBit_mem, Dev.sets_mem, Dev.clearBit_mem, Dev.ite_mem, ite_self]

@[simp] theorem Dev.releaseRaises_mem (d : Dev) : (d.releaseRaises).mem = d.mem := by
  simp only [Dev.releaseRaises]
  split
  · rfl
  · refine (Dev.foldl_mem _ (fun d x => ?_) _ _).trans ?_
    · split <;> simp only [Dev.set_mem, Dev.ite_mem, ite_self]
    · rfl

@[simp] theorem Dev.swapSlots_mem (d : Dev) : (d.swapSlots).mem = d.mem := by
  simp only [Dev.swapSlots]
  split
  · rfl
  · simp only [Dev.fieldUpdate_mem, Dev.jnlEventAfter_mem, Dev.sets_mem]
    refine (Dev.foldl_mem _ (fun d x => ?_) _ _).trans ?_
    · simp only [Dev.set_mem]
    · refine (Dev.foldl_mem _ (fun d x => ?_) _ _).trans ?_
      · simp only [Dev.set_mem]
      · rfl

@[simp] theorem Dev.endJob_mem (d : Dev) (j : FwJob) : (d.endJob j).mem = d.mem := by
  simp only [Dev.endJob, Dev.releaseRaises_mem, Dev.swapSlots_mem, Dev.sets_mem, Dev.setFw_mem, Dev.ite_mem, ite_self]

theorem Dev.jobRun_wf {d : Dev} (h : d.mem.wf = true) : (d.jobRun).mem.wf = true := by
  simp only [Dev.jobRun]
  split
  · exact h
  · split
    · simpa only [Dev.endJob_mem, Dev.set_mem, Dev.ite_mem, ite_self] using h
    · split
      · split
        · simpa only [Dev.set_mem] using h
        · simpa only [Dev.set_mem] using Dev.beginRestart_wf (by simpa only [Dev.setSlot_mem, Dev.set_mem, Dev.clearBit_mem, Dev.setFw_mem] using h) _ _
      · split
        · simpa only [Dev.set_mem] using h
        · simpa only [Dev.set_mem] using Dev.beginRestart_wf (by simpa only [Dev.setSlot_mem, Dev.set_mem, Dev.clearBit_mem, Dev.setFw_mem] using h) _ _

theorem Dev.restartRun_wf {d : Dev} (h : d.mem.wf = true) (n : Nat) : (d.restartRun n).mem.wf = true := by
  induction n generalizing d with
  | zero => exact h
  | succ n ih =>
    unfold Dev.restartRun
    dsimp only
    repeat' split
    · exact h
    · exact h
    · exact ih h
    · exact Dev.beginRestart_wf h _ _
    · exact h

theorem Dev.coreFails_wf {d : Dev} (h : d.mem.wf = true) (c cause : Nat) : (d.coreFails c cause).mem.wf = true := by
  simp only [Dev.coreFails]
  split
  · exact h
  · split
    · simpa only [Dev.set_mem] using Dev.beginRestart_wf (by simpa only [Dev.showRecent_mem, Dev.setFw_mem] using h) _ _
    · split
      · simpa only [Dev.sets_mem] using Dev.beginRestart_wf (by simpa only [Dev.setSlot_mem, Dev.showRecent_mem, Dev.setFw_mem] using h) _ _
      · exact Dev.restartRun_wf (by simpa only [Dev.sets_mem, Dev.showRecent_mem] using h) _

theorem Dev.coreMemory_wf {d : Dev} (h : d.mem.wf = true) (c : Nat) (lost : Option Nat) : (d.coreMemory c lost).mem.wf = true := by
  simp only [Dev.coreMemory]
  split
  · exact Dev.coreFails_wf h _ _
  · split
    · exact Dev.coreFails_wf (Dev.hbmError_wf h _ _ _) _ _
    · exact h

theorem Dev.fwAdvance_wf {d : Dev} (h : d.mem.wf = true) : (d.fwAdvance).mem.wf = true := by
  simpa only [Dev.fwAdvance, Dev.releaseRaises_mem] using Dev.jobRun_wf h

@[simp] theorem Dev.fwRefuse_mem (d : Dev) (op reason : Nat) : (d.fwRefuse op reason).mem = d.mem := by
  simp only [Dev.fwRefuse, Dev.sets_mem]

theorem Dev.startJob_wf {d : Dev} (h : d.mem.wf = true) (origin op mask : Nat) (toB : Bool) : (d.startJob origin op mask toB).mem.wf = true := by
  simp only [Dev.startJob]
  split
  · simpa only [Dev.set_mem, Dev.sets_mem, Dev.ite_mem, ite_self] using h
  · exact Dev.fwAdvance_wf (by simpa only [Dev.setFw_mem, Dev.sets_mem, Dev.set_mem, Dev.ite_mem, ite_self] using h)

theorem Dev.fwActivate_wf {d : Dev} (h : d.mem.wf = true) (origin mask : Nat) : (d.fwActivate origin mask).mem.wf = true := by
  simp only [Dev.fwActivate]
  split
  · simpa only [Dev.fwRefuse_mem] using h
  · split
    · simpa only [Dev.fwRefuse_mem] using h
    · exact Dev.startJob_wf h _ _ _ _

theorem Dev.fwRevert_wf {d : Dev} (h : d.mem.wf = true) (origin mask : Nat) : (d.fwRevert origin mask).mem.wf = true := by
  simp only [Dev.fwRevert]
  split
  · simpa only [Dev.fwRefuse_mem] using h
  · split
    · simpa only [Dev.sets_mem] using h
    · exact Dev.startJob_wf h _ _ _ _

theorem Dev.fwCancel_wf {d : Dev} (h : d.mem.wf = true) : (d.fwCancel).mem.wf = true := by
  simp only [Dev.fwCancel]
  split
  · refine Dev.fwAdvance_wf ?_
    simp only [Dev.set_mem]
    split
    · simpa only [Dev.setFw_mem, Dev.sets_mem, Dev.ite_mem, ite_self] using h
    · simpa only [Dev.sets_mem] using h
  · simpa only [Dev.set_mem, Dev.sets_mem] using h

theorem Dev.fwRestart_wf {d : Dev} (h : d.mem.wf = true) (mask : Nat) : (d.fwRestart mask).mem.wf = true := by
  simp only [Dev.fwRestart]
  split
  · simpa only [Dev.fwRefuse_mem] using h
  · split
    · exact Dev.restartRun_wf (by simpa only [Dev.setFw_mem, Dev.sets_mem] using h) _
    · simpa only [Dev.setFw_mem, Dev.sets_mem] using h

@[simp] theorem Dev.fwStage_mem (d : Dev) (via : Via) : (d.fwStage via).mem = d.mem := by
  simp only [Dev.fwStage, Dev.fwRefuse_mem, Dev.sets_mem, Dev.setFw_mem, Dev.ite_mem, ite_self]

@[simp] theorem Dev.stageFails_mem (d : Dev) (reason : Nat) : (d.stageFails reason).mem = d.mem := by
  simp only [Dev.stageFails, Dev.set_mem, Dev.sets_mem, Dev.setFw_mem, Dev.ite_mem, ite_self]

@[simp] theorem Dev.stageDone_mem (d : Dev) (programmed : Bool) : (d.stageDone programmed).mem = d.mem := by
  simp only [Dev.stageDone]
  split <;> simp only [Dev.stageFails_mem, Dev.jnlEventAfter_mem, Dev.sets_mem, Dev.setFw_mem, Dev.ite_mem, ite_self]

theorem Dev.fwCmd_wf {d : Dev} (h : d.mem.wf = true) (via : Via) (op mask : Nat) : (d.fwCmd via op mask).mem.wf = true := by
  simp only [Dev.fwCmd]
  split
  · simpa only [Dev.fwStage_mem] using h
  · exact Dev.fwActivate_wf h _ _
  · exact Dev.fwCancel_wf h
  · exact Dev.fwRestart_wf h _
  · exact Dev.fwRevert_wf h _ _
  · simpa only [Dev.fwRefuse_mem] using h

theorem Dev.coreBack_wf {d : Dev} (h : d.mem.wf = true) (c : Nat) : (d.coreBack c).mem.wf = true := by
  simp only [Dev.coreBack]
  split
  · simpa only [Dev.secReturn_mem] using h
  · split
    · exact h
    · refine Dev.foldl_wf _ (fun d x h => ?_) _ _ ?_
      · split
        · exact Dev.takeHeldBells_wf h _
        · exact h
      · split
        · split
          · simpa only [Dev.set_mem, Dev.putAg_mem] using h
          · exact h
        · exact h

theorem Dev.coreReturns_wf {d : Dev} (h : d.mem.wf = true) (c us : Nat) : (d.coreReturns c us).mem.wf = true := by
  unfold Dev.coreReturns
  split
  · exact h
  · extract_lets d₁ d₂ d₃ d₄
    have h₂ : d₂.mem.wf = true :=
      Dev.coreBack_wf (Dev.wf_of_mem_eq ((Dev.setFw_mem ..).trans (Dev.sets_mem ..)) h) c
    clear_value d₂
    have h₃ : d₃.mem.wf = true := by
      unfold d₃
      split
      · split
        · rwa [Dev.jnlEventAfter_mem, Dev.setFw_mem]
        · exact h₂
      · exact h₂
    clear_value d₃
    have h₄ : d₄.mem.wf = true := by
      unfold d₄
      split
      · split
        · exact Dev.restartRun_wf h₃ 20
        · split
          · extract_lets e
            have he : e.mem.wf = true := Dev.wf_of_mem_eq (Dev.setFw_mem ..) h₃
            split
            · rwa [Dev.set_mem]
            · exact Dev.restartRun_wf he 20
          · exact h₃
      · exact h₃
    exact Dev.fwAdvance_wf h₄

/-! ### Host commands (chapter 19) -/

theorem Dev.stepCmd_wf {d : Dev} (h : d.mem.wf = true) (c : Cmd) : (d.stepCmd c).mem.wf = true := by
  simp only [Dev.stepCmd]
  split
  · exact Dev.complete_wf h _ _ _
  · simpa only [Dev.makeReady_mem] using h

theorem Dev.copyMove_wf {d : Dev} (h : d.mem.wf = true) (c : Cmd) (q : DmaDesc) : (d.copyMove c q).mem.wf = true := by
  simp only [Dev.copyMove]
  split
  · simpa only [Dev.sendReads_mem] using h
  · split
    · simpa only [Dev.sendWrites_mem] using h
    · refine Dev.complete_wf ?_ _ _ _
      split
      · exact Dev.copyLocal_wf h _ _
      · exact Dev.putBayBytes_wf _ _ _ _ h

theorem Dev.copyCmd_wf {d : Dev} (h : d.mem.wf = true) (c : Cmd) (op : Nat) : (d.copyCmd c op).mem.wf = true := by
  simp only [Dev.copyCmd]
  split
  · exact Dev.complete_wf h _ _ _
  · split
    · exact Dev.complete_wf h _ _ _
    · split
      · simpa only [Dev.makeReady_mem] using h
      · split
        · exact h
        · split
          · split
            · exact Dev.complete_wf (by simpa only [Dev.unready_mem] using h) _ _ _
            · exact Dev.copyMove_wf (by simpa only [Dev.startCmd_mem, Dev.unready_mem] using h) _ _
          · split
            · exact Dev.complete_wf h _ _ _
            · exact Dev.copyMove_wf (by simpa only [Dev.startCmd_mem] using h) _ _

theorem Dev.snapshotCmd_wf {d : Dev} (h : d.mem.wf = true) (c : Cmd) : (d.snapshotCmd c).mem.wf = true := by
  simp only [Dev.snapshotCmd]
  split
  · exact Dev.complete_wf h _ _ _
  · simpa only [Dev.putFltBay_mem, Dev.startCmd_mem] using h

theorem Dev.fenceCmd_wf {d : Dev} (h : d.mem.wf = true) (c : Cmd) : (d.fenceCmd c).mem.wf = true := by
  simp only [Dev.fenceCmd]
  split
  · exact Dev.complete_wf h _ _ _
  · exact h

theorem Dev.telemetryCmd_wf {d : Dev} (h : d.mem.wf = true) (c : Cmd) : (d.telemetryCmd c).mem.wf = true := by
  simp only [Dev.telemetryCmd]
  split
  · split
    · exact Dev.complete_wf (Dev.putLocalBytes_wf _ _ _ h) _ _ _
    · exact Dev.complete_wf h _ _ _
  · split
    · exact Dev.complete_wf (Dev.putBayBytes_wf _ _ _ _ h) _ _ _
    · exact Dev.complete_wf h _ _ _

theorem Dev.preemptCmd_wf {d : Dev} (h : d.mem.wf = true) (c : Cmd) : (d.preemptCmd c).mem.wf = true := by
  simp only [Dev.preemptCmd]
  split
  · exact Dev.complete_wf h _ _ _
  · split
    · exact Dev.suspend_wf (by simpa only [Dev.putCtx_mem, Dev.startCmd_mem] using h) _ _
    · simpa only [Dev.putCtx_mem, Dev.startCmd_mem] using h

theorem Dev.resumeCmd_wf {d : Dev} (h : d.mem.wf = true) (c : Cmd) : (d.resumeCmd c).mem.wf = true := by
  simp only [Dev.resumeCmd]
  split
  · exact Dev.complete_wf h _ _ _
  · split
    · exact Dev.complete_wf (by simpa only [Dev.settleCtx_mem] using h) _ _ _
    · exact Dev.complete_wf h _ _ _

@[simp] theorem Dev.linkUp_mem (d : Dev) (p width rate : Nat) (flit : Bool) : (d.linkUp p width rate flit).mem = d.mem := by
  simp only [Dev.linkUp, Dev.setBit_mem, Dev.sets_mem, Dev.ite_mem, ite_self]

@[simp] theorem Dev.showSessions_mem (d : Dev) : (d.showSessions).mem = d.mem := by
  simp only [Dev.showSessions, Dev.set_mem]

@[simp] theorem Dev.endPortSecurity_mem (d : Dev) (p : Nat) : (d.endPortSecurity p).mem = d.mem := by
  simp only [Dev.endPortSecurity, Dev.showSessions_mem]

/-- The RAISE of a port that is lost fails. -/
theorem Dev.lostRaise_wf {d : Dev} (h : d.mem.wf = true) (p b : Nat) :
    (match (d.bayU b).raise with
      | some r => if r.cmd.ring = 64 + p then d.raiseFail b stStruck else d
      | none => d).mem.wf = true := by
  split
  · split
    · exact Dev.raiseFail_wf h ..
    · exact h
  · exact h

theorem Dev.hostLost_wf {d : Dev} (h : d.mem.wf = true) (p : Nat) (down : Bool) : (d.hostLost p down).mem.wf = true := by
  unfold Dev.hostLost
  extract_lets d₁ d₂ d₃ d₄ d₅ d₆ d₇ d₈ d₉
  have h₂ : d₂.mem.wf = true := by
    have h₁ : d₁.mem.wf = true := by rwa [show d₁ = _ from rfl, Dev.incSat_mem, Dev.setBit_mem]
    unfold d₂
    split
    · exact Dev.wf_of_mem_eq (Dev.sets_mem ..) h₁
    · exact h₁
  clear_value d₂
  have h₃ : d₃.mem.wf = true := by
    refine Dev.foldl_wf _ (fun d b h => ?_) _ _ h₂
    split
    · exact Dev.snapFail_wf h ..
    · exact h
  clear_value d₃
  have h₄ : d₄.mem.wf = true := Dev.wf_of_mem_eq (Dev.foldl_mem _ (fun _ _ => Dev.stopRing_mem ..) _ _) h₃
  clear_value d₄
  have h₅ : d₅.mem.wf = true := Dev.foldl_wf _ (fun _ b h => Dev.lostRaise_wf h p b) _ _ h₄
  clear_value d₅
  have h₆ : d₆.mem.wf = true := Dev.wf_of_mem_eq (Dev.clearApertures_mem ..) h₅
  clear_value d₆
  have h₇ : d₇.mem.wf = true := by
    rw [show d₇ = _ from rfl, Dev.endPortSecurity_mem]
    exact h₆
  clear_value d₇
  have h₈ : d₈.mem.wf = true := by
    unfold d₈
    split
    · split
      · exact Dev.wf_of_mem_eq (Dev.exportFail_mem ..) h₇
      · exact h₇
    · exact h₇
  clear_value d₈
  have h₉ : d₉.mem.wf = true := by
    unfold d₉
    split
    · split
      · exact Dev.wf_of_mem_eq (Dev.stageFails_mem ..) h₈
      · exact h₈
    · exact h₈
  clear_value d₉
  exact Dev.wf_of_mem_eq (Dev.foldl_mem _ (fun _ _ => Dev.putBay_mem ..) _ _) h₉

@[simp] theorem Dev.vfReset_mem (d : Dev) (p f : Nat) : (d.vfReset p f).mem = d.mem := by
  simp only [Dev.vfReset, Dev.clearApertures_mem]
  refine (Dev.foldl_mem _ (fun d x => ?_) _ _).trans ?_
  · simp only [Dev.stopRing_mem]
  · rfl

@[simp] theorem Dev.atsInvalidate_mem (d : Dev) (p f base len : Nat) (mapped : Bool) : (d.atsInvalidate p f base len mapped).mem = d.mem := by
  simp only [Dev.atsInvalidate]

/-! ### The management MAC (chapter 20) -/

@[simp] theorem Dev.macOn_mem (d : Dev) : (d.macOn).mem = d.mem := by
  simp only [Dev.macOn, Dev.sets_mem, Dev.setMgt_mem]

@[simp] theorem Dev.macOff_mem (d : Dev) : (d.macOff).mem = d.mem := by
  simp only [Dev.macOff, Dev.sets_mem, Dev.setMgt_mem]

@[simp] theorem Dev.frameReceive_mem (d : Dev) (f : Frame) (bad : Bool) : (d.frameReceive f bad).mem = d.mem := by
  simp only [Dev.frameReceive, Dev.incSat_mem, Dev.incWrap_mem, Dev.set_mem, Dev.agentFlush_mem, Dev.putRxq_mem, Dev.ite_mem, ite_self]

@[simp] theorem Dev.frameTransmit_mem (d : Dev) (collides : Bool) : (d.frameTransmit collides).mem = d.mem := by
  simp only [Dev.frameTransmit]
  repeat' split
  all_goals simp only [Dev.setMgt_mem, Dev.emit_mem, Dev.incWrap_mem, Dev.putTxq_mem]

@[simp] theorem Dev.collision_mem (d : Dev) (late : Bool) : (d.collision late).mem = d.mem := by
  simp only [Dev.collision]
  split <;> simp only [Dev.set_mem, Dev.incSat_mem, Dev.putTxq_mem, Dev.emit_mem, Dev.setMgt_mem, Dev.ite_mem, ite_self, Dev.fresh_mem]

@[simp] theorem Dev.backoffExpiry_mem (d : Dev) : (d.backoffExpiry).mem = d.mem := by
  simp only [Dev.backoffExpiry]
  split <;> simp only [Dev.setMgt_mem, Dev.ite_mem, ite_self]

@[simp] theorem Dev.plcaBeacon_mem (d : Dev) : (d.plcaBeacon).mem = d.mem := by
  simp only [Dev.plcaBeacon, Dev.emit_mem, Dev.set_mem, Dev.setMgt_mem, Dev.ite_mem, ite_self]

@[simp] theorem Dev.beaconLost_mem (d : Dev) : (d.beaconLost).mem = d.mem := by
  simp only [Dev.beaconLost, Dev.sets_mem, Dev.setMgt_mem, Dev.ite_mem, ite_self]

/-! ### Start-up (chapter 21) -/

@[simp] theorem Dev.stopWithMac_mem (d : Dev) (cause : Nat) : (d.stopWithMac cause).mem = d.mem := by
  simp only [Dev.stopWithMac, Dev.macOn_mem, Dev.setJ_mem, Dev.bootFail_mem, Dev.ite_mem, ite_self]

@[simp] theorem Dev.secStarts_mem (d : Dev) : (d.secStarts).mem = d.mem := by
  unfold Dev.secStarts
  dsimp only
  have hctr (l : List (Nat × Nat)) (e : Dev) :
      (l.foldl (fun d v => d.sets [(SEC_CTR.value v.2, v.1), (SEC_CTR.valid v.2, 1)]) e).mem = e.mem :=
    Dev.foldl_mem _ (fun _ _ => Dev.sets_mem ..) _ _
  split
  · exact (Dev.jnlAppend_mem ..).trans ((Dev.fresh_mem _).trans ((hctr _ _).trans (Dev.sets_mem ..)))
  · exact (hctr _ _).trans (Dev.sets_mem ..)

@[simp] theorem Dev.romDone_mem (d : Dev) (verified : Nat) : (d.romDone verified).mem = d.mem := by
  simp only [Dev.romDone, Dev.secStarts_mem, Dev.set_mem, Dev.ite_mem, ite_self, Dev.bootFail_mem]

@[simp] theorem Dev.coresStart_mem (d : Dev) (verified : Nat) : (d.coresStart verified).mem = d.mem := by
  simp only [Dev.coresStart]
  split
  · simp only [Dev.stopWithMac_mem]
  · simp only [Dev.sets_mem]
    refine (Dev.foldl_mem _ (fun d x => ?_) _ _).trans ?_
    · simp only [Dev.set_mem]
    · rfl

@[simp] theorem Dev.secFields_mem (d : Dev) (off : Nat) (l : List (RF × Nat)) : (d.secFields off l).mem = d.mem := by
  simp only [Dev.secFields, Dev.wrJ_mem]

@[simp] theorem Dev.secWrite_mem (d : Dev) (off : Nat) (v : Reg64) : (d.secWrite off v).mem = d.mem := by
  simp only [Dev.secWrite]
  split
  · split
    · simp only [Dev.wrJ_mem]
    · refine (Dev.foldl_mem _ (fun d x => ?_) _ _).trans ?_
      · simp only [Dev.setShadow_mem]
      · rfl
  · rfl

@[simp] theorem Dev.applyRepairs_mem (d : Dev) : (d.applyRepairs).mem = d.mem := by
  simp only [Dev.applyRepairs, Dev.setJ_mem]
  refine (Dev.foldl_mem _ (fun d x => ?_) _ _).trans ?_
  · simp only [Dev.setBit_mem]
  · refine (Dev.foldl_mem _ (fun d x => ?_) _ _).trans ?_
    · simp only [Dev.set_mem, Dev.putAg_mem]
    · refine (Dev.foldl_mem _ (fun d x => ?_) _ _).trans ?_
      · simp only [Dev.set_mem, Dev.putAg_mem]
      · refine (Dev.foldl_mem _ (fun d x => ?_) _ _).trans ?_
        · simp only [Dev.armJoint_mem, Dev.secWrite_mem]
        · rfl

@[simp] theorem Dev.applyOwner_mem (d : Dev) : (d.applyOwner).mem = d.mem := by
  simp only [Dev.applyOwner]
  split
  · simp only [Dev.secFields_mem]
  · simp only [Dev.setJ_mem]
    refine (Dev.foldl_mem _ (fun d x => ?_) _ _).trans ?_
    · simp only [Dev.setJ_mem]
    · simp only [Dev.setJ_mem, Dev.secFields_mem]

@[simp] theorem Dev.applyJoints_mem (d : Dev) : (d.applyJoints).mem = d.mem := by
  simp only [Dev.applyJoints, Dev.armJoint_mem, Dev.setShadow_mem, Dev.secFields_mem, Dev.ite_mem, ite_self]

@[simp] theorem Dev.applyMgmt_mem (d : Dev) : (d.applyMgmt).mem = d.mem := by
  simp only [Dev.applyMgmt]
  split
  · rfl
  · simp only [Dev.macOn_mem, Dev.setJ_mem]
    split
    · simp only [Dev.armJoint_mem, Dev.setJ_mem]
      refine (Dev.foldl_mem _ (fun d x => ?_) _ _).trans ?_
      · simp only [Dev.secWrite_mem]
      · rfl
    · simp only [Dev.setJ_mem]
      refine (Dev.foldl_mem _ (fun d x => ?_) _ _).trans ?_
      · simp only [Dev.secWrite_mem]
      · rfl

@[simp] theorem Dev.applyAlt_mem (d : Dev) : (d.applyAlt).mem = d.mem := by
  simp only [Dev.applyAlt, Dev.fieldUpdate_mem, Dev.jnlEventAfter_mem, Dev.sets_mem, Dev.ite_mem, ite_self]

@[simp] theorem Dev.beginRecord_mem (d : Dev) : (d.beginRecord).mem = d.mem := by
  simp only [Dev.beginRecord]
  split
  · simp only [Dev.bootFail_mem]
  · simp only [Dev.applyAlt_mem, Dev.applyMgmt_mem, Dev.set_mem]
    refine (Dev.foldl_mem _ (fun d x => ?_) _ _).trans ?_
    · simp only [Dev.setJ_mem]
    · simp only [Dev.wrJ_mem, Dev.applyJoints_mem, Dev.applyOwner_mem, Dev.applyRepairs_mem, Dev.setJ_mem]

@[simp] theorem Dev.beginThaw_mem (d : Dev) : (d.beginThaw).mem = d.mem := by
  simp only [Dev.beginThaw]
  refine (Dev.foldl_mem _ (fun d x => ?_) _ _).trans ?_
  · simp only [Dev.moveDomain_mem, Dev.ite_mem, ite_self]
  · refine (Dev.foldl_mem _ (fun d x => ?_) _ _).trans ?_
    · simp only [Dev.moveDomain_mem, Dev.ite_mem, ite_self]
    · simp only [Dev.moveDomain_mem, Dev.ite_mem, ite_self]

theorem Dev.scrubTiles_wf {d : Dev} (h : d.mem.wf = true) : (d.scrubTiles).mem.wf = true :=
  Mems.wf_filterLoc h _

@[simp] theorem Dev.applyRowMaps_mem (d : Dev) (s : Nat) : (d.applyRowMaps s).mem = d.mem := by
  simp only [Dev.applyRowMaps]
  refine (Dev.foldl_mem _ (fun d x => ?_) _ _).trans ?_
  · simp only [Dev.incSat_mem, Dev.ite_mem, ite_self]
  · rfl

@[simp] theorem Dev.hbmTrained_mem (d : Dev) (trained : Nat) (attempts codes : List Nat) : (d.hbmTrained trained attempts codes).mem = d.mem := by
  simp only [Dev.hbmTrained]
  split
  · rfl
  · split
    · simp only [Dev.bootFail_mem, Dev.set_mem]
      refine (Dev.foldl_mem _ (fun d x => ?_) _ _).trans ?_
      · simp only [Dev.set_mem, Dev.sets_mem, Dev.applyRowMaps_mem, Dev.ite_mem, ite_self]
      · simp only [Dev.setBoot_mem]
    · split
      · simp only [Dev.set_mem]
        refine (Dev.foldl_mem _ (fun d x => ?_) _ _).trans ?_
        · simp only [Dev.set_mem, Dev.sets_mem, Dev.applyRowMaps_mem, Dev.ite_mem, ite_self]
        · simp only [Dev.setBoot_mem]
      · simp only [Dev.fieldUpdate_mem, Dev.fresh_mem, Dev.set_mem]
        refine (Dev.foldl_mem _ (fun d x => ?_) _ _).trans ?_
        · simp only [Dev.set_mem, Dev.sets_mem, Dev.applyRowMaps_mem, Dev.ite_mem, ite_self]
        · simp only [Dev.setBoot_mem]

@[simp] theorem Dev.memReady_mem (d : Dev) : (d.memReady).mem = d.mem := by
  simp only [Dev.memReady, Dev.showFree_mem, Dev.set_mem, Dev.setBoot_mem]

@[simp] theorem Dev.beginFabric_mem (d : Dev) : (d.beginFabric).mem = d.mem := by
  simp only [Dev.beginFabric]
  refine (Dev.foldl_mem _ (fun d x => ?_) _ _).trans ?_
  · simp only [Dev.updPort_mem, Dev.setPort_mem, Dev.portAdmin_mem, Dev.ite_mem, ite_self]
  · rfl

@[simp] theorem Dev.takeId_mem (d : Dev) : (d.takeId).mem = d.mem := by
  simp only [Dev.takeId, Dev.resendRecords_mem, Dev.wrJ_mem]

@[simp] theorem Dev.becomeReady_mem (d : Dev) : (d.becomeReady).mem = d.mem := by
  simp only [Dev.becomeReady, Dev.emit_mem, Dev.jnlEventAfter_mem, Dev.sets_mem]

@[simp] theorem Dev.beginStep_mem (d : Dev) (n : Nat) : (d.beginStep n).mem = d.mem := by
  simp only [Dev.beginStep]
  split <;> simp only [Dev.bootFail_mem, Dev.setBoot_mem, Dev.ite_mem, ite_self, Dev.beginRecord_mem, Dev.beginThaw_mem, Dev.beginFabric_mem]

theorem Dev.stepDoes_wf {d : Dev} (h : d.mem.wf = true) (n verified holdMax : Nat) : (d.stepDoes n verified holdMax).mem.wf = true := by
  simp only [Dev.stepDoes]
  split
  · simpa only [Dev.romDone_mem] using h
  · simpa only [Dev.coresStart_mem] using h
  · simpa only [Dev.bootFail_mem, Dev.ite_mem, ite_self] using h
  · simpa only [Dev.set_mem] using Dev.scrubTiles_wf h
  · simpa only [Dev.memReady_mem] using h
  · simpa only [Dev.takeId_mem] using h
  · simpa only [Dev.becomeReady_mem] using h
  · exact h

theorem Dev.startupStep_wf {d : Dev} (h : d.mem.wf = true) (aclk : Bool) (verified cause holdMax : Nat) : (d.startupStep aclk verified cause holdMax).mem.wf = true := by
  unfold Dev.startupStep
  extract_lets n d₁ d₂ d₃
  have h₁ : d₁.mem.wf = true := by
    refine Dev.wf_of_mem_eq ?_ h
    unfold d₁
    rw [Dev.ite_mem, Dev.set_mem, ite_self]
  clear_value d₁
  have h₂ : d₂.mem.wf = true := Dev.stepDoes_wf h₁ ..
  clear_value d₂
  have h₃ : d₃.mem.wf = true := Dev.wf_of_mem_eq (Dev.sets_mem ..) h₂
  clear_value d₃
  split
  · exact h₁
  · split
    · rwa [Dev.bootFail_mem]
    · split
      · split
        · rwa [Dev.stopWithMac_mem]
        · rwa [Dev.bootFail_mem]
      · split
        · exact h₁
        · split
          · exact h₂
          · split
            · exact h₃
            · split
              · rwa [Dev.setBoot_mem]
              · rwa [Dev.beginStep_mem]

@[simp] theorem Dev.aoRelease_mem (d : Dev) (feed slot mode : Nat) (refA : Bool) : (d.aoRelease feed slot mode refA).mem = d.mem := by
  simp only [Dev.aoRelease, Dev.beginStep_mem, Dev.sets_mem, Dev.ite_mem, ite_self]

theorem Dev.powerOn_wf {d : Dev} (h : d.mem.wf = true) : (d.powerOn).mem.wf = true :=
  Mems.wf_emptyLoc h

theorem Dev.warmNow_wf {d : Dev} (h : d.mem.wf = true) (code origin : Nat) : (d.warmNow code origin).mem.wf = true := by
  unfold Dev.warmNow
  refine Dev.wf_of_mem_eq ((Dev.beginStep_mem ..).trans ((Dev.jnlEventAfter_mem ..).trans ((Dev.incSat_mem ..).trans
    ((Dev.set_mem ..).trans ((Dev.foldl_mem _ (fun _ _ => Dev.set_mem ..) _ _).trans ((Dev.foldl_mem _ (fun _ _ => Dev.set_mem ..) _ _).trans
      (Dev.sets_mem ..))))))) (Mems.wf_filterLoc ?_ _)
  refine Dev.foldl_wf _ (fun _ _ h => Dev.hostLost_wf h ..) _ _ ?_
  rw [Dev.ite_mem, Dev.sets_mem, Dev.setJ_mem, ite_self]
  refine Dev.foldl_wf _ (fun d b h => ?_) _ _ ?_
  · split
    · exact h
    · exact Dev.releasePages_wf h b
  · rwa [Dev.ite_mem, Dev.set_mem, ite_self]

theorem Dev.warmReset_wf {d : Dev} (h : d.mem.wf = true) (code origin : Nat) : (d.warmReset code origin).mem.wf = true := by
  simp only [Dev.warmReset]
  split
  · exact h
  · split
    · simpa only [Dev.setBoot_mem] using h
    · exact Dev.warmNow_wf h _ _

theorem Dev.warmCheck_wf {d : Dev} (h : d.mem.wf = true) : (d.warmCheck).mem.wf = true := by
  simp only [Dev.warmCheck]
  split
  · split
    · exact Dev.warmNow_wf h _ _
    · exact h
  · exact h

/-! ### Register writes with an effect (chapter 1) -/

@[simp] theorem Dev.regRead_mem (d : Dev) (via : Via) (off size : Nat) : (d.regRead via off size).2.mem = d.mem := by
  unfold Dev.regRead
  split <;> simp only [Dev.badAccess_mem, Dev.jnlShow_mem]

@[simp] theorem Dev.writeJoint_mem (d : Dev) (via : Via) (blk : Nat) (att : Reg64) : (d.writeJoint via blk att).mem = d.mem := by
  simp only [Dev.writeJoint, Dev.jointOp_mem]

@[simp] theorem Dev.writeDom_mem (d : Dev) (via : Via) (dom lo n : Nat) (att : Reg64) : (d.writeDom via dom lo n att).mem = d.mem := by
  simp only [Dev.writeDom, Dev.writeFields_mem, Dev.domainRequest_mem, Dev.ite_mem, ite_self]

theorem Dev.writeRing_wf {d : Dev} (h : d.mem.wf = true) (via : Via) (r lo n : Nat) (att : Reg64) : (d.writeRing via r lo n att).mem.wf = true := by
  simp only [Dev.writeRing]
  split
  · simpa only [Dev.writeFields_mem] using h
  · split
    · simpa only [Dev.set_mem, Dev.jnlRefused_mem, Dev.writeFields_mem, Dev.ringStart_mem, Dev.ite_mem, ite_self] using h
    · exact Dev.ringStop_wf (by simpa only [Dev.writeFields_mem] using h) _

@[simp] theorem Dev.writeOwn_mem (d : Dev) (via : Via) (r lo n : Nat) (att : Reg64) : (d.writeOwn via r lo n att).mem = d.mem := by
  simp only [Dev.writeOwn, Dev.writeFields_mem, Dev.jnlRefused_mem, Dev.staticErr_mem, Dev.ite_mem, ite_self]

@[simp] theorem Dev.writeThaw_mem (d : Dev) (via : Via) (b lo n : Nat) (att : Reg64) : (d.writeThaw via b lo n att).mem = d.mem := by
  unfold Dev.writeThaw
  extract_lets off ok
  clear_value ok
  split
  · rfl
  · split
    · exact Dev.jnlRefused_mem ..
    · rw [Dev.putBay_mem, Dev.jnlChange_mem]

@[simp] theorem Dev.writePort_mem (d : Dev) (via : Via) (p lo n : Nat) (att : Reg64) : (d.writePort via p lo n att).mem = d.mem := by
  simp only [Dev.writePort, Dev.portAdmin_mem, Dev.writeFields_mem]

@[simp] theorem Dev.writeId_mem (d : Dev) (via : Via) (lo n : Nat) (att : Reg64) : (d.writeId via lo n att).mem = d.mem := by
  simp only [Dev.writeId, Dev.writeFields_mem, Dev.resendRecords_mem, Dev.ite_mem, ite_self]

@[simp] theorem Dev.writeDeadClr_mem (d : Dev) (via : Via) (lo n : Nat) (att : Reg64) : (d.writeDeadClr via lo n att).mem = d.mem := by
  simp only [Dev.writeDeadClr, Dev.deadClear_mem, Dev.writeFields_mem, Dev.ite_mem, ite_self]

@[simp] theorem Dev.writeSisreg_mem (d : Dev) (via : Via) (lo n : Nat) (att : Reg64) : (d.writeSisreg via lo n att).mem = d.mem := by
  simp only [Dev.writeSisreg, Dev.writeFields_mem, Dev.showFree_mem, Dev.fieldUpdate_mem, Dev.ite_mem, ite_self]

theorem Dev.command_mem {d : Dev} {run : Dev → Dev} (hrun : ∀ d, (run d).mem = d.mem) (via : Via) (off : Nat) (att : Reg64)
    (refused : Dev → Bool) : (d.command via off att refused run).mem = d.mem := by
  simp only [Dev.command, hrun, Dev.jnlRefused_mem, Dev.jnlChange_mem, Dev.ite_mem, ite_self]

theorem Dev.command_wf {d : Dev} {run : Dev → Dev} (h : d.mem.wf = true) (hrun : ∀ {d : Dev}, d.mem.wf = true → (run d).mem.wf = true)
    (via : Via) (off : Nat) (att : Reg64) (refused : Dev → Bool) : (d.command via off att refused run).mem.wf = true := by
  refine hrun ?_
  simpa only [Dev.jnlRefused_mem, Dev.jnlChange_mem, Dev.ite_mem, ite_self] using h

theorem Dev.writeFwCmd_wf {d : Dev} (h : d.mem.wf = true) (via : Via) (lo n : Nat) (att : Reg64) : (d.writeFwCmd via lo n att).mem.wf = true := by
  unfold Dev.writeFwCmd
  split
  · exact h
  · exact Dev.command_wf h (fun h => Dev.fwCmd_wf h ..) ..

@[simp] theorem Dev.writeSecCmd_mem (d : Dev) (via : Via) (lo n : Nat) (att : Reg64) : (d.writeSecCmd via lo n att).mem = d.mem := by
  unfold Dev.writeSecCmd
  split
  · rfl
  · exact Dev.command_mem (fun _ => Dev.secCmd_mem ..) ..

theorem Dev.writeJnlCfg_wf {d : Dev} (h : d.mem.wf = true) (via : Via) (lo n : Nat) (att : Reg64) : (d.writeJnlCfg via lo n att).mem.wf = true := by
  simp only [Dev.writeJnlCfg]
  split
  · split
    · split
      · exact Dev.exportStart_wf (by simpa only [Dev.writeFields_mem, Dev.badAccess_mem] using h)
      · simpa only [Dev.writeFields_mem, Dev.badAccess_mem] using h
    · split
      · exact Dev.exportStart_wf (by simpa only [Dev.writeFields_mem, Dev.badAccess_mem] using h)
      · simpa only [Dev.writeFields_mem, Dev.badAccess_mem] using h
  · split
    · split
      · exact Dev.exportStart_wf (by simpa only [Dev.writeFields_mem] using h)
      · simpa only [Dev.writeFields_mem] using h
    · split
      · exact Dev.exportStart_wf (by simpa only [Dev.writeFields_mem] using h)
      · simpa only [Dev.writeFields_mem] using h

@[simp] theorem Dev.writeJnlBase_mem (d : Dev) (via : Via) (lo n : Nat) (att : Reg64) : (d.writeJnlBase via lo n att).mem = d.mem := by
  simp only [Dev.writeJnlBase, Dev.badAccess_mem, Dev.writeFields_mem, Dev.ite_mem, ite_self]

theorem Dev.writeReset_wf {d : Dev} (h : d.mem.wf = true) (via : Via) (lo n : Nat) (att : Reg64) : (d.writeReset via lo n att).mem.wf = true := by
  simp only [Dev.writeReset]
  split
  · exact h
  · split
    · simpa only [Dev.badAccess_mem] using h
    · exact Dev.warmReset_wf (by simpa only [Dev.jnlChange_mem] using h) _ _

@[simp] theorem Dev.writeMgtCfg_mem (d : Dev) (via : Via) (lo n : Nat) (att : Reg64) : (d.writeMgtCfg via lo n att).mem = d.mem := by
  simp only [Dev.writeMgtCfg, Dev.writeFields_mem, Dev.macOn_mem, Dev.macOff_mem, Dev.ite_mem, ite_self]

theorem Dev.wf_of_ite_some {c : Prop} [Decidable c] {a e : Dev} {o : Option Dev} (he : (if c then some a else o) = some e)
    (ha : a.mem.wf = true) (ho : o = some e → e.mem.wf = true) : e.mem.wf = true := by
  split at he
  · cases he
    exact ha
  · exact ho he

theorem Dev.specialWrite_wf {d e : Dev} (h : d.mem.wf = true) {via : Via} {off lo n : Nat} {att : Reg64}
    (he : d.specialWrite via off lo n att = some e) : e.mem.wf = true := by
  unfold Dev.specialWrite at he
  have hite {c : Prop} [Decidable c] {a : Dev} (ha : a.mem = d.mem) : (if c then a else d).mem.wf = true := by
    rwa [Dev.ite_mem, ha, ite_self]
  refine Dev.wf_of_ite_some he (hite (Dev.writeJoint_mem ..)) fun he => ?_
  refine Dev.wf_of_ite_some he (Dev.writeFwCmd_wf h ..) fun he => ?_
  refine Dev.wf_of_ite_some he (Dev.wf_of_mem_eq (Dev.writeSecCmd_mem ..) h) fun he => ?_
  refine Dev.wf_of_ite_some he (Dev.writeReset_wf h ..) fun he => ?_
  refine Dev.wf_of_ite_some he (Dev.writeJnlCfg_wf h ..) fun he => ?_
  refine Dev.wf_of_ite_some he (Dev.wf_of_mem_eq (Dev.writeJnlBase_mem ..) h) fun he => ?_
  refine Dev.wf_of_ite_some he (Dev.wf_of_mem_eq (Dev.writeMgtCfg_mem ..) h) fun he => ?_
  refine Dev.wf_of_ite_some he (Dev.wf_of_mem_eq (Dev.writeId_mem ..) h) fun he => ?_
  refine Dev.wf_of_ite_some he (Dev.wf_of_mem_eq (Dev.writeDeadClr_mem ..) h) fun he => ?_
  refine Dev.wf_of_ite_some he (Dev.wf_of_mem_eq (Dev.writeSisreg_mem ..) h) fun he => ?_
  split at he
  · cases he
    exact hite (Dev.pegAdd_mem ..)
  split at he
  · cases he
    exact Dev.wf_of_mem_eq (Dev.writeDom_mem ..) h
  split at he
  · cases he
    exact Dev.wf_of_mem_eq (Dev.writePort_mem ..) h
  split at he
  · cases he
    exact Dev.wf_of_mem_eq (Dev.writeThaw_mem ..) h
  split at he
  · cases he
    exact Dev.wf_of_mem_eq (Dev.writeOwn_mem ..) h
  · obtain ⟨r, -, rfl⟩ := Option.map_eq_some_iff.mp he
    exact Dev.writeRing_wf h ..

theorem Dev.regEffect_wf {d : Dev} (h : d.mem.wf = true) (via : Via) (off size value : Nat) : (d.regEffect via off size value).mem.wf = true := by
  unfold Dev.regEffect
  extract_lets base
  split
  · exact Dev.wf_of_mem_eq (Dev.badAccess_mem ..) h
  · split
    · exact Dev.wf_of_mem_eq (Dev.jnlRefused_mem ..) h
    · split
      · next he => exact Dev.specialWrite_wf h he
      · exact Dev.wf_of_mem_eq (Dev.regWriteCore_mem ..) h

theorem Dev.orHold_mem {d : Dev} {f : Dev → Dev} (hf : ∀ d, (f d).mem = d.mem) (w : HeldWrite) : (d.orHold w f).mem = d.mem := by
  unfold Dev.orHold
  dsimp only
  repeat' split
  · exact hf _
  · exact hf _
  · rfl

theorem Dev.orHold_wf {d : Dev} {f : Dev → Dev} (h : d.mem.wf = true) (hf : ∀ {d : Dev}, d.mem.wf = true → (f d).mem.wf = true)
    (w : HeldWrite) : (d.orHold w f).mem.wf = true := by
  unfold Dev.orHold
  dsimp only
  repeat' split
  · exact hf h
  · exact hf h
  · exact h

theorem Dev.throughPath_mem {d : Dev} {f : Dev → Dev} (hf : ∀ d, (f d).mem = d.mem) (via : Via) (off size value : Nat) :
    (d.throughPath via off size value f).mem = d.mem := by
  unfold Dev.throughPath
  repeat' split
  · simp only [Dev.badAccess_mem]
  · rfl
  · exact Dev.orHold_mem hf _

theorem Dev.throughPath_wf {d : Dev} {f : Dev → Dev} (h : d.mem.wf = true) (hf : ∀ {d : Dev}, d.mem.wf = true → (f d).mem.wf = true)
    (via : Via) (off size value : Nat) : (d.throughPath via off size value f).mem.wf = true := by
  unfold Dev.throughPath
  repeat' split
  · simpa only [Dev.badAccess_mem] using h
  · exact h
  · exact Dev.orHold_wf h hf _

theorem Dev.regWrite_wf {d : Dev} (h : d.mem.wf = true) (via : Via) (off size value : Nat) : (d.regWrite via off size value).mem.wf = true :=
  Dev.throughPath_wf h (fun h => Dev.regEffect_wf h ..) ..

theorem Dev.drainWrites_wf {d : Dev} (h : d.mem.wf = true) (n : Nat) : (d.drainWrites n).mem.wf = true := by
  induction n generalizing d with
  | zero => exact h
  | succ n ih =>
    unfold Dev.drainWrites
    repeat' split
    · exact h
    · exact ih (Dev.regEffect_wf (by simpa only [Dev.setJnl_mem] using h) _ _ _ _)
    · exact h

theorem Dev.fwWrite_wf {d : Dev} (h : d.mem.wf = true) (via : Via) (op mask : Nat) : (d.fwWrite via op mask).mem.wf = true := by
  refine Dev.throughPath_wf h (fun h => ?_) ..
  split
  · exact Dev.wf_of_mem_eq (Dev.jnlRefused_mem ..) h
  · exact Dev.writeFwCmd_wf h ..

@[simp] theorem Dev.secWriteCmd_mem (d : Dev) (via : Via) (op : Nat) : (d.secWriteCmd via op).mem = d.mem :=
  Dev.throughPath_mem (fun _ => Dev.writeSecCmd_mem ..) ..

/-! ### Management messages (chapter 20) -/

@[simp] theorem Dev.segmentReply_mem (d : Dev) (mac : Nat) (pkt : Packet) : (d.segmentReply mac pkt).mem = d.mem := by
  simp only [Dev.segmentReply, Dev.sendSegment_mem]

@[simp] theorem Dev.segmentDiscover_mem (d : Dev) (fr : Frame) (pkt : Packet) : (d.segmentDiscover fr pkt).mem = d.mem := by
  unfold Dev.segmentDiscover
  split
  · exact Dev.segmentReply_mem ..
  · exact (Dev.setMgt_mem ..).trans (Dev.fresh_mem d)

theorem Dev.onDiscovery_mem {d : Dev} {fabric : Dev → Nat → Packet → Dev} {segment : Dev → Frame → Packet → Dev}
    (hfabric : ∀ d p pkt, (fabric d p pkt).mem = d.mem) (hsegment : ∀ d fr pkt, (segment d fr pkt).mem = d.mem) (type : Nat) :
    (d.onDiscovery type fabric segment).mem = d.mem := by
  unfold Dev.onDiscovery
  repeat' split
  · exact Dev.onPacket_mem hfabric _ _
  · simp only [hsegment, Dev.served_mem]
  · rfl
  · rfl

@[simp] theorem Dev.fabricReply_mem (d : Dev) (a : Nat) (pkt : Packet) : (d.fabricReply a pkt).mem = d.mem := by
  unfold Dev.fabricReply
  split
  · exact Dev.checkConflict_mem ..
  · exact Dev.sourceRoute_mem (fun _ _ => Dev.emit_mem ..) ..

@[simp] theorem Dev.delayedReply_mem (d : Dev) : (d.delayedReply).mem = d.mem := by
  simp only [Dev.delayedReply]
  split <;> simp only [Dev.segmentReply_mem, Dev.setMgt_mem]

@[simp] theorem Dev.assign_mem (d : Dev) (origin : Nat) (pkt : Packet) : (d.assign origin pkt).mem = d.mem := by
  simp only [Dev.assign, Dev.writeFields_mem, Dev.resendRecords_mem, Dev.ite_mem, ite_self]

@[simp] theorem Dev.fabricAssign_mem (d : Dev) (pkt : Packet) : (d.fabricAssign pkt).mem = d.mem := by
  simp only [Dev.fabricAssign, Dev.assign_mem, Dev.incSat_mem, Dev.ite_mem, ite_self]

@[simp] theorem Dev.segmentAssign_mem (d : Dev) (mac : Nat) (secured : Bool) (pkt : Packet) : (d.segmentAssign mac secured pkt).mem = d.mem := by
  simp only [Dev.segmentAssign, Dev.incSat_mem, Dev.assign_mem, Dev.ite_mem, ite_self]

@[simp] theorem Dev.regReadMsg_mem (d : Dev) (m : Msg) : (d.regReadMsg m).1.mem = d.mem := by
  simp only [Dev.regReadMsg, Dev.regRead_mem]

theorem Dev.regWriteMsg_wf {d : Dev} (h : d.mem.wf = true) (ok : Bool) (m : Msg) : (d.regWriteMsg ok m).1.mem.wf = true := by
  unfold Dev.regWriteMsg
  dsimp only
  split
  · simpa only [Dev.badAccess_mem] using h
  · exact Dev.regWrite_wf h _ _ _ _

theorem Dev.stageMsg_wf {d : Dev} (h : d.mem.wf = true) (ok : Bool) (m : Msg) : (d.stageMsg ok m).1.mem.wf = true := by
  unfold Dev.stageMsg
  extract_lets off n st e
  unfold e
  split
  · exact h
  · exact Dev.foldl_wf _ (fun _ _ h => Dev.putByte_wf _ _ _ h) _ _ h

@[simp] theorem Dev.answerPeer_mem (d : Dev) (q mac : Nat) (m : Msg) : (d.answerPeer q mac m).mem = d.mem := by
  simp only [Dev.answerPeer]
  split <;> simp only [Dev.setMgt_mem, Dev.answer_mem]

theorem Dev.onFresh_mem {d : Dev} {take : Dev → Nat → Msg → Dev} (htake : ∀ d mac m, (take d mac m).mem = d.mem) (type q : Nat) :
    (d.onFresh type q take).mem = d.mem := by
  refine Dev.onMessage_mem (fun d fr m => ?_) _
  dsimp only
  split
  · simp only [Dev.putTxq_mem, Dev.incSat_mem]
  · exact htake _ _ _

theorem Dev.onFresh_wf {d : Dev} {take : Dev → Nat → Msg → Dev} (h : d.mem.wf = true)
    (htake : ∀ {d : Dev}, d.mem.wf = true → ∀ mac m, (take d mac m).mem.wf = true) (type q : Nat) :
    (d.onFresh type q take).mem.wf = true := by
  refine Dev.onMessage_wf h (fun h fr m => ?_) _
  dsimp only
  split
  · simpa only [Dev.putTxq_mem, Dev.incSat_mem] using h
  · exact htake h _ _

theorem Dev.onRequest_mem {d : Dev} {perform : Dev → Bool → Msg → Dev × Msg} (hperform : ∀ d ok m, (perform d ok m).1.mem = d.mem)
    (type q : Nat) : (d.onRequest type q perform).mem = d.mem := by
  refine Dev.onFresh_mem (fun d mac m => ?_) _ _
  simp only [Dev.answerPeer_mem, hperform]

theorem Dev.onRequest_wf {d : Dev} {perform : Dev → Bool → Msg → Dev × Msg} (h : d.mem.wf = true)
    (hperform : ∀ {d : Dev}, d.mem.wf = true → ∀ ok m, (perform d ok m).1.mem.wf = true) (type q : Nat) :
    (d.onRequest type q perform).mem.wf = true := by
  refine Dev.onFresh_wf h (fun h mac m => ?_) _ _
  simpa only [Dev.answerPeer_mem] using hperform h _ m

theorem Dev.unlessHeld_wf {d e : Dev} (h : d.mem.wf = true) (he : e.mem.wf = true) : (d.unlessHeld e).mem.wf = true := by
  unfold Dev.unlessHeld
  split <;> assumption

theorem Dev.application_wf {d : Dev} (h : d.mem.wf = true) (mac n : Nat) (msg : List Byte) : (d.application mac n msg).1.mem.wf = true := by
  unfold Dev.application
  split
  · exact h
  · split
    · split
      · exact Dev.wf_of_mem_eq (Dev.segmentAssign_mem ..) h
      · exact h
    · exact h
  · split
    · next m _ =>
      extract_lets r e
      have hr : r.1.mem.wf = true := by
        unfold r
        split
        · exact Dev.wf_of_mem_eq (Dev.regReadMsg_mem ..) h
        · exact Dev.regWriteMsg_wf h ..
        · exact Dev.stageMsg_wf h ..
        · exact h
      unfold e
      split
      · exact hr
      · exact Dev.wf_of_mem_eq ((Dev.set_mem ..).trans (Dev.incSat_mem ..)) hr
    · exact h

@[simp] theorem Dev.sessionChange_mem (d : Dev) (t change : Nat) : (d.sessionChange t change).mem = d.mem := by
  simp only [Dev.sessionChange, Dev.showSessions_mem]

@[simp] theorem Dev.tdiMoves_mem (d : Dev) (p : Nat) (m : Option (Nat × Bool)) : (d.tdiMoves p m).mem = d.mem := by
  cases m <;> rfl

@[simp] theorem Dev.spdmSend_mem (d : Dev) (path : SpdmPath) (requester : Nat) (answer : List Byte) : (d.spdmSend path requester answer).mem = d.mem := by
  simp only [Dev.spdmSend]
  split <;> simp only [Dev.emit_mem, Dev.answerPeer_mem, Dev.sendWrites_mem]

theorem Dev.spdmServe_wf {d : Dev} (h : d.mem.wf = true) (path : SpdmPath) (requester : Nat) (msg : List Byte) : (d.spdmServe path requester msg).mem.wf = true := by
  simp only [Dev.spdmServe, Dev.spdmSend_mem]
  split
  · simpa only [Dev.tdiMoves_mem, Dev.sessionChange_mem, Dev.fresh_mem] using h
  · simp only [Dev.sessionChange_mem]
    split
    · exact Dev.application_wf (by simpa only [Dev.fresh_mem] using h) _ _ _
    · simpa only [Dev.fresh_mem] using h

@[simp] theorem Dev.spdmQueue_mem (d : Dev) (path : SpdmPath) (requester : Nat) (msg : List Byte) : (d.spdmQueue path requester msg).mem = d.mem := by
  simp only [Dev.spdmQueue, Dev.ite_mem, ite_self]

theorem Dev.spdmDrain_wf {d : Dev} (h : d.mem.wf = true) : (d.spdmDrain).mem.wf = true := by
  simp only [Dev.spdmDrain]
  refine Dev.foldl_wf _ (fun d x h => ?_) _ _ ?_
  · exact Dev.spdmServe_wf h _ _ _
  · exact h

theorem Dev.spdmArrives_wf {d : Dev} (h : d.mem.wf = true) (path : SpdmPath) (requester : Nat) (msg : List Byte) : (d.spdmArrives path requester msg).mem.wf = true := by
  simp only [Dev.spdmArrives]
  split
  · exact h
  · split
    · exact Dev.spdmServe_wf h _ _ _
    · simpa only [Dev.spdmQueue_mem] using h

theorem Dev.spdmRequest_wf {d : Dev} (h : d.mem.wf = true) (path : SpdmPath) (requester : Nat) (msg : List Byte) : (d.spdmRequest path requester msg).mem.wf = true := by
  cases path with
  | doe p =>
    unfold Dev.spdmRequest
    dsimp only
    split
    · exact Dev.spdmArrives_wf h ..
    · exact h
  | mgmt => exact Dev.unlessHeld_wf h (Dev.onFresh_wf h (fun h _ _ => Dev.spdmArrives_wf h ..) ..)
  | fabric =>
    unfold Dev.spdmRequest
    dsimp only
    split
    · exact h
    · split
      · refine Dev.spdmServe_wf ?_ ..
        exact h
      · exact h

/-! ### End-to-end packets (chapter 12) -/

theorem Dev.regBytesWrite_wf {d : Dev} (h : d.mem.wf = true) (off : Nat) (l : List Byte) : (d.regBytesWrite off l).mem.wf = true := by
  simp only [Dev.regBytesWrite]
  exact Dev.regWrite_wf h _ _ _ _

@[simp] theorem Dev.regBytesRead_mem (d : Dev) (off n : Nat) : (d.regBytesRead off n).2.mem = d.mem := by
  simp only [Dev.regBytesRead, Dev.regRead_mem]

theorem Dev.writeUntagged_wf {d : Dev} (h : d.mem.wf = true) (pkt : Packet) : (d.writeUntagged pkt).mem.wf = true := by
  simp only [Dev.writeUntagged]
  split
  · split
    · simpa only [Dev.ackDue_mem, Dev.rxMark_mem] using Dev.regBytesWrite_wf h _ _
    · simpa only [Dev.ackDue_mem, Dev.rxMark_mem] using Dev.putLocalBytes_wf _ _ _ h
    · simpa only [Dev.nack_mem] using h
  · split
    · simpa only [Dev.ackDue_mem, Dev.rxMark_mem] using Dev.putBytes_wf _ _ _ h
    · simpa only [Dev.ackDue_mem, Dev.rxMark_mem, Dev.spdmQueue_mem, Dev.ite_mem, ite_self, Dev.nack_mem] using h

theorem Dev.writeTagged_wf {d : Dev} (h : d.mem.wf = true) (pkt : Packet) : (d.writeTagged pkt).mem.wf = true := by
  simp only [Dev.writeTagged]
  split
  · simpa only [Dev.nack_mem] using h
  · split
    · simpa only [Dev.ackDue_mem, Dev.rxMark_mem] using Dev.putBayBytes_wf _ _ _ _ h
    · simpa only [Dev.nack_mem] using h

@[simp] theorem Dev.readResp_mem (d : Dev) (pkt : Packet) (status : Nat) (bytes : List Byte) : (d.readResp pkt status bytes).mem = d.mem := by
  simp only [Dev.readResp]
  refine (Dev.foldl_mem _ (fun d x => ?_) _ _).trans ?_
  · simp only [Dev.sendRouted_mem]
  · rfl

@[simp] theorem Dev.readAnswer_mem (d : Dev) (pkt : Packet) (bad : Bool) (bytes : List Byte) : (d.readAnswer pkt bad bytes).mem = d.mem := by
  simp only [Dev.readAnswer, Dev.readResp_mem, Dev.ite_mem, ite_self]

theorem Dev.lineLost_wf {d : Dev} (h : d.mem.wf = true) (a : Nat) : (d.lineLost a).mem.wf = true := by
  simp only [Dev.lineLost]
  split
  · exact Dev.hbmError_wf h _ _ _
  · exact Dev.tmError_wf h _ _ _
  · exact h

theorem Dev.remoteLost_wf {d : Dev} (h : d.mem.wf = true) (b va : Nat) : (d.remoteLost b va).mem.wf = true := by
  simp only [Dev.remoteLost]
  split
  · exact Dev.lineLost_wf h _
  · exact h

theorem Dev.readUntagged_wf {d : Dev} (h : d.mem.wf = true) (pkt : Packet) (n : Nat) (bad : Bool) : (d.readUntagged pkt n bad).mem.wf = true := by
  simp only [Dev.readUntagged]
  split
  · split
    · simpa only [Dev.readResp_mem, Dev.regBytesRead_mem] using h
    · simp only [Dev.readAnswer_mem]
      split
      · exact Dev.lineLost_wf h _
      · exact h
    · simpa only [Dev.nack_mem] using h
  · split
    · simp only [Dev.readAnswer_mem]
      split
      · exact Dev.hbmError_wf h _ _ _
      · exact h
    · simpa only [Dev.nack_mem] using h

theorem Dev.readTagged_wf {d : Dev} (h : d.mem.wf = true) (pkt : Packet) (n : Nat) (bad : Bool) : (d.readTagged pkt n bad).mem.wf = true := by
  simp only [Dev.readTagged]
  split
  · simpa only [Dev.nack_mem] using h
  · split
    · simp only [Dev.readAnswer_mem]
      split
      · exact Dev.remoteLost_wf h _ _
      · exact h
    · simpa only [Dev.nack_mem] using h

theorem Dev.readReq_wf {d : Dev} (h : d.mem.wf = true) (pkt : Packet) (bad : Bool) : (d.readReq pkt bad).mem.wf = true := by
  simp only [Dev.readReq]
  split
  · simpa only [Dev.nack_mem] using h
  · split
    · exact Dev.readUntagged_wf h _ _ _
    · exact Dev.readTagged_wf h _ _ _

/-! ### The tick (chapter 2) -/

theorem Dev.eachBay_mem {d : Dev} {f : Dev → Nat → Dev} (hf : ∀ d b, (f d b).mem = d.mem) : (d.eachBay f).mem = d.mem := Dev.foldl_mem _ hf _ _

theorem Dev.eachBay_wf {d : Dev} {f : Dev → Nat → Dev} (h : d.mem.wf = true)
    (hf : ∀ {d : Dev}, d.mem.wf = true → ∀ b, (f d b).mem.wf = true) : (d.eachBay f).mem.wf = true := Dev.foldl_wf _ (fun _ b h => hf h b) _ _ h

@[simp] theorem Dev.ageBay_mem (d : Dev) (b : Nat) : (d.ageBay b).mem = d.mem := by
  simp only [Dev.ageBay]
  split
  · rfl
  · refine (Dev.foldl_mem _ (fun d x => ?_) _ _).trans ?_
    · simp only [Dev.ageCtx_mem, Dev.ite_mem, ite_self]
    · rfl

@[simp] theorem Dev.gateTick_mem (d : Dev) (b : Nat) : (d.gateTick b).mem = d.mem := by
  simp only [Dev.gateTick]
  split <;> simp only [Dev.putFltBay_mem, Dev.ite_mem, ite_self]

@[simp] theorem Dev.markOver_mem (d : Dev) (b : Nat) : (d.markOver b).mem = d.mem := by
  simp only [Dev.markOver]
  split <;> simp only [Dev.putBay_mem, Dev.ite_mem, ite_self]

theorem Dev.closeBay_wf {d : Dev} (h : d.mem.wf = true) (b : Nat) : (d.closeBay b).mem.wf = true := by
  rw [Dev.closeBay]
  split
  · exact h
  · rw [Dev.answerAsks_mem, Dev.putFltBay_mem]
    refine Dev.colStepClose_wf ?_ _ _ _
    rw [Dev.set_mem]
    refine Dev.closeStep_wf ?_ _
    exact h

theorem Dev.action1_wf {d : Dev} (h : d.mem.wf = true) : (d.action1).mem.wf = true := by
  unfold Dev.action1
  rw [Dev.eachBay_mem Dev.markOver_mem, Dev.eachBay_mem Dev.gateTick_mem]
  refine Dev.colEdge_wf (Dev.wf_of_mem_eq ?_ h)
  rw [Dev.eachBay_mem Dev.noteOver_mem, Dev.rollWindows_mem, Dev.eachBay_mem Dev.checkOver_mem, Dev.eachBay_mem Dev.ageBay_mem,
    Dev.eachBay_mem Dev.agePres_mem, Dev.eachBay_mem Dev.closeTick_mem]

theorem Dev.closePre_wf {d : Dev} (h : d.mem.wf = true) (b : Nat) : (d.closePre b).mem.wf = true := by
  rw [Dev.closePre]
  refine Dev.foldl_wf _ (fun d x h => ?_) _ _ ?_
  · dsimp only
    split
    · split
      · rw [Dev.settleCtx_mem, Dev.set_mem, Dev.putCtx_mem]
        refine Dev.colStepClose_wf ?_ _ _ _
        refine Dev.endPre_wf ?_ _ _ _ _
        exact h
      · exact h
    · exact h
  · exact h

theorem Dev.closeBays_wf {d : Dev} (h : d.mem.wf = true) : (d.closeBays).mem.wf = true := by
  refine Dev.eachBay_wf (Dev.foldl_wf _ (fun _ _ h => Dev.closeBay_wf h ..) _ _ h) (fun h b => ?_)
  split
  · exact Dev.restoreBegin_wf (Dev.closePre_wf h b) b
  · exact h

@[simp] theorem Dev.action2_mem (d : Dev) : (d.action2).mem = d.mem := by
  simp only [Dev.action2, Dev.jnlShow_mem]

@[simp] theorem Dev.timingEdge_mem (d : Dev) : (d.timingEdge).mem = d.mem := by
  simp only [Dev.timingEdge]
  split <;> simp only [Dev.checkGuard_mem, Dev.set_mem, Dev.wr_mem, Dev.wrJ_mem, Dev.ite_mem, ite_self]

@[simp] theorem Dev.waitsForRoom_mem (d : Dev) (a : Armed) : (d.waitsForRoom a).mem = d.mem := by
  simp only [Dev.waitsForRoom]

@[simp] theorem Dev.commitArmed_mem (d : Dev) (a : Armed) : (d.commitArmed a).mem = d.mem := by
  simp only [Dev.commitArmed]
  split <;> simp only [Dev.waitsForRoom_mem, Dev.startBinds_mem, Dev.commitJoint_mem, Dev.ite_mem, ite_self]

@[simp] theorem Dev.commitAll_mem (d : Dev) : (d.commitAll).mem = d.mem := by
  simp only [Dev.commitAll]
  refine (Dev.foldl_mem _ (fun d x => ?_) _ _).trans ?_
  · simp only [Dev.commitArmed_mem]
  · rfl

theorem Dev.raiseEdge_wf {d : Dev} (h : d.mem.wf = true) (b : Nat) : (d.raiseEdge b).mem.wf = true := by
  simp only [Dev.raiseEdge]
  split
  · split
    · split
      · simpa only [Dev.startBinds_mem] using Dev.raiseCommit_wf h _
      · exact h
    · split
      · simpa only [Dev.startBinds_mem] using Dev.raiseCommit_wf h _
      · exact h
  · exact h

@[simp] theorem Dev.thawBay_mem (d : Dev) (b : Nat) : (d.thawBay b).mem = d.mem := by
  simp only [Dev.thawBay]
  split <;> simp only [Dev.sets_mem, Dev.putBay_mem, Dev.ite_mem, ite_self]

@[simp] theorem Dev.jointHold_mem (d : Dev) (b : Nat) : (d.jointHold b).mem = d.mem := by
  simp only [Dev.jointHold, Dev.set_mem, Dev.sets_mem, Dev.ite_mem, ite_self]

theorem Dev.action3_wf {d : Dev} (h : d.mem.wf = true) : (d.action3).mem.wf = true := by
  unfold Dev.action3
  rw [Dev.eachBay_mem Dev.jointHold_mem, Dev.eachBay_mem Dev.thawBay_mem]
  exact Dev.eachBay_wf (Dev.wf_of_mem_eq ((Dev.commitAll_mem _).trans (Dev.timingEdge_mem _)) h) Dev.raiseEdge_wf

theorem Dev.strikeAt_wf {d : Dev} (h : d.mem.wf = true) (b : Nat) : (d.strikeAt b).mem.wf = true := by
  simp only [Dev.strikeAt]
  split
  · split
    · exact Dev.fltStrike_wf (Dev.beginStrike_wf (by simpa only [Dev.leaveAll_mem] using h) _) _
    · exact h
  · exact h

theorem Dev.action5_wf {d : Dev} (h : d.mem.wf = true) : (d.action5).mem.wf = true := by
  have hstrike := Dev.eachBay_wf h Dev.strikeAt_wf
  unfold Dev.action5
  dsimp only
  rw [Dev.eachBay_mem Dev.dropAtEdge_mem]
  split
  · exact Dev.eachBay_wf hstrike (fun h b => Dev.drainEnd_wf (Dev.preemptPoints_wf h b) b)
  · exact hstrike

@[simp] theorem Dev.freezeBay_mem (d : Dev) (b : Nat) : (d.freezeBay b).mem = d.mem := by
  simp only [Dev.freezeBay, Dev.sets_mem, Dev.ite_mem, ite_self]

theorem Dev.endDamaged_wf {d : Dev} (h : d.mem.wf = true) (b c : Nat) : (d.endDamaged b c).mem.wf = true := by
  rw [Dev.endDamaged, Dev.settleCtx_mem, Dev.putCtx_mem]
  split
  · rw [Dev.set_mem, Dev.putCtx_mem]
    refine Dev.colStepClose_wf ?_ _ _ _
    refine Dev.endPre_wf ?_ _ _ _ _
    rw [Dev.set_mem]
    exact h
  · split
    · refine Dev.flushBad_wf ?_ _ _
      refine Dev.complete_wf ?_ _ _ _
      rw [Dev.set_mem]
      exact h
    · rw [Dev.set_mem]
      exact h

theorem Dev.runCtx_wf {d : Dev} (h : d.mem.wf = true) (b c : Nat) : (d.runCtx b c).mem.wf = true := by
  simp only [Dev.runCtx]
  split
  · simpa only [Dev.resumeStep_mem] using h
  · split
    · split
      · exact h
      · split
        · simpa only [Dev.settleCtx_mem, Dev.putCtx_mem] using Dev.flushBad_wf (Dev.complete_wf h _ _ _) _ _
        · simpa only [Dev.colStepStart_mem] using Dev.flushBad_wf (Dev.startStep_wf h _ _ _) _ _
    · exact h

theorem Dev.startChosen_wf {d : Dev} (h : d.mem.wf = true) (b c : Nat) : (d.startChosen b c).mem.wf = true := by
  simp only [Dev.startChosen]
  split
  · exact Dev.endDamaged_wf h _ _
  · split
    · split
      · exact Dev.runCtx_wf h _ _
      · simpa only [Dev.startSwitch_mem] using h
    · exact Dev.runCtx_wf (by simpa only [Dev.sets_mem] using h) _ _

theorem Dev.schEdge_wf {d : Dev} (h : d.mem.wf = true) (b n : Nat) : (d.schEdge b n).mem.wf = true := by
  induction n generalizing d with
  | zero => exact h
  | succ n ih =>
    unfold Dev.schEdge
    dsimp only
    repeat' split
    · exact h
    · exact h
    · exact Dev.startChosen_wf (by simpa only [Dev.putBay_mem] using h) _ _
    · exact ih (by simpa only [Dev.putBay_mem] using h)
    · exact h
    · exact ih (Dev.startChosen_wf h _ _)
    · exact h

theorem Dev.chooseAfterDrain_wf {d : Dev} (h : d.mem.wf = true) (b : Nat) : (d.chooseAfterDrain b).mem.wf = true := by
  simp only [Dev.chooseAfterDrain]
  split
  · exact h
  · split
    · split
      · exact h
      · exact Dev.startChosen_wf h _ _
    · exact h

theorem Dev.preemptDrainEnd_wf {d : Dev} (h : d.mem.wf = true) (b : Nat) : (d.preemptDrainEnd b).mem.wf = true := by
  simp only [Dev.preemptDrainEnd]
  split
  · split
    · exact Dev.chooseAfterDrain_wf (Dev.drainEnd_wf h _) _
    · exact Dev.drainEnd_wf h _
  · exact h

theorem Dev.action7_wf {d : Dev} (h : d.mem.wf = true) (ran : List Nat) : (d.action7 ran).mem.wf = true :=
  Dev.eachBay_wf (Dev.foldl_wf _ (fun _ _ h => Dev.snapStart_wf h ..) _ _
    (Dev.wf_of_mem_eq (Dev.eachBay_mem Dev.freezeBay_mem) h)) (fun h _ => Dev.schEdge_wf h ..)

@[simp] theorem Dev.tickPegs_mem (d : Dev) (b : Nat) : (d.tickPegs b).mem = d.mem := by
  simp only [Dev.tickPegs]
  split
  · split
    · refine (Dev.foldl_mem _ (fun d x => ?_) _ _).trans ?_
      · simp only [Dev.putAg_mem, Dev.tickPegIncrement_mem]
      · rfl
    · rfl
  · rfl

@[simp] theorem Dev.beginTick_mem (d : Dev) : (d.beginTick).mem = d.mem := by
  unfold Dev.beginTick
  dsimp only
  rw [Dev.eachBay_mem Dev.jointHold_mem, Dev.foldl_mem _ (fun _ _ => Dev.refreshArmed_mem ..), Dev.eachBay_mem Dev.tickPegs_mem]
  refine Dev.eachBay_mem (fun d b => ?_)
  rw [Dev.ite_mem, Dev.noteInputs_mem, ite_self]

@[simp] theorem Dev.nextTick_mem (d : Dev) : (d.nextTick).mem = d.mem := by
  simp only [Dev.nextTick, Dev.incWrap_mem, Dev.setTime_mem]

@[simp] theorem Dev.setNextEdge_mem (d : Dev) : (d.setNextEdge).mem = d.mem := by
  simp only [Dev.setNextEdge]

theorem Dev.edgeActions_wf {d : Dev} (h : d.mem.wf = true) : (d.edgeActions).mem.wf = true := by
  have h3 := Dev.action3_wf (Dev.wf_of_mem_eq (Dev.action2_mem _) (Dev.closeBays_wf (Dev.action1_wf h)))
  exact Dev.action7_wf (Dev.eachBay_wf (Dev.action5_wf (Dev.wf_of_mem_eq (Dev.pwrEdge_mem _) h3)) Dev.issueScheduled_wf) _

theorem Dev.tickEdge_wf {d : Dev} (h : d.mem.wf = true) : (d.tickEdge).mem.wf = true := by
  simp only [Dev.tickEdge]
  split
  · exact h
  · refine Dev.warmCheck_wf ?_
    refine Dev.foldl_wf _ (fun d x h => ?_) _ _ ?_
    · simpa only [Dev.showRecent_mem] using h
    · exact Dev.fwAdvance_wf (by simpa only [Dev.jumpAtEdge_mem, Dev.beginTick_mem, Dev.setNextEdge_mem] using Dev.edgeActions_wf (by simpa only [Dev.nextTick_mem] using h))

@[simp] theorem Dev.closeSet_mem (d : Dev) : (d.closeSet).mem = d.mem := by
  simp only [Dev.closeSet, Dev.setTime_mem, Dev.ite_mem, ite_self]

@[simp] theorem Dev.commitWaiting_mem (d : Dev) : (d.commitWaiting).mem = d.mem := by
  simp only [Dev.commitWaiting]
  refine (Dev.foldl_mem _ (fun d x => ?_) _ _).trans ?_
  · simp only [Dev.commitArmed_mem]
  · rfl

theorem Dev.roomFreed_wf {d : Dev} (h : d.mem.wf = true) : (d.roomFreed).mem.wf = true := by
  simp only [Dev.roomFreed, Dev.jnlShow_mem]
  split
  · exact Dev.drainWrites_wf (by simpa only [Dev.commitWaiting_mem, Dev.drainEvents_mem] using h) _
  · exact Dev.fwAdvance_wf (by simpa only [Dev.secResume_mem] using Dev.drainWrites_wf (by simpa only [Dev.commitWaiting_mem, Dev.drainEvents_mem] using h) _)

end Sys2Proof.Machine
end

section
/-! ## Steps: every command answers a next state, and keeps the memories canonical -/
namespace Sys2Proof.Machine

/-- A command answers a next state that differs in the device alone, whose memories are in their canonical form. -/
def AnswersWf (s : State) (o : Host.Outcome State Fault Refusal) : Prop := ∃ e, o = .next { s with dev := e } ∧ e.mem.wf = true

theorem onDev_answersWf {s : State} {f : Dev → Dev} (hf : (f s.dev).mem.wf = true) : AnswersWf s (onDev s f) := ⟨_, rfl, hf⟩

section
variable {s : State} (h : s.dev.mem.wf = true)
include h

theorem execLinkTrainingDone_answersWf (port : FabPort) : AnswersWf s (execLinkTrainingDone port s) := by
  refine onDev_answersWf (Dev.wf_of_mem_eq ?_ h)
  dsimp only
  split
  · rw [Dev.setPort_mem, Dev.set_mem]
  · rw [Dev.ite_mem, Dev.setPort_mem, ite_self]

theorem execTrainTimeout_answersWf (port : FabPort) : AnswersWf s (execTrainTimeout port s) := by
  refine onDev_answersWf (Dev.wf_of_mem_eq ?_ h)
  dsimp only
  rw [Dev.ite_mem, Dev.setPort_mem, Dev.incSat_mem, ite_self]

theorem execAlignDone_answersWf (port : FabPort) : AnswersWf s (execAlignDone port s) := by
  refine onDev_answersWf (Dev.wf_of_mem_eq ?_ h)
  dsimp only
  split
  · rfl
  · rw [Dev.ite_mem, Dev.emit_mem, ite_self, Dev.setPort_mem, Dev.set_mem]

theorem execAlignTimeout_answersWf (port : FabPort) : AnswersWf s (execAlignTimeout port s) := by
  refine onDev_answersWf ?_
  dsimp only
  split
  · exact h
  · exact Dev.fall_wf h ..

theorem execAckCreditTimer_answersWf (port : FabPort) : AnswersWf s (execAckCreditTimer port s) := by
  refine onDev_answersWf (Dev.wf_of_mem_eq ?_ h)
  dsimp only
  rw [Dev.ite_mem, Dev.sendCredit_mem, ite_self]

theorem execFecRateSecond_answersWf (port : FabPort) (corrected : Vector (BitVec 32) 8) (uncorrected : BitVec 16) :
    AnswersWf s (execFecRateSecond port corrected uncorrected s) := by
  refine onDev_answersWf (Dev.wf_of_mem_eq ?_ h)
  dsimp only
  refine (Dev.foldl_mem _ (fun d e => ?_) _ _).trans ((Dev.incSat_mem ..).trans (Dev.incWrap_mem ..))
  rw [Dev.ite_mem, Dev.laneSecond_mem, ite_self]

theorem execPfcPause_answersWf (port : FabPort) (mask : BitVec 8) (on : Bool) : AnswersWf s (execPfcPause port mask on s) := by
  refine onDev_answersWf (Dev.wf_of_mem_eq ?_ h)
  dsimp only
  rw [Dev.ite_mem, Dev.drainQueue_mem, Dev.putPort_mem, ite_self]

theorem execWrite_answersWf : AnswersWf s (execWrite s) := by
  refine onDev_answersWf ?_
  dsimp only
  split
  · exact h
  · refine Dev.onPacket_wf h (fun h _ pkt => Dev.receive_wf h (fun h => ?_) _) _ _
    split
    · exact Dev.writeUntagged_wf h _
    · exact Dev.writeTagged_wf h _

theorem execReadReq_answersWf (uncorrectable : Bool) : AnswersWf s (execReadReq uncorrectable s) := by
  refine onDev_answersWf (Dev.onPacket_wf h (fun h _ pkt => ?_) _ _)
  split
  · exact Dev.readReq_wf (Dev.wf_of_mem_eq (Dev.rxMark_mem ..) h) ..
  · exact Dev.readReq_wf (Dev.wf_of_mem_eq (Dev.incSat_mem ..) h) ..
  · exact h

theorem execReadResp_answersWf : AnswersWf s (execReadResp s) := by
  refine onDev_answersWf (Dev.onPacket_wf h (fun h _ pkt => ?_) _ _)
  split
  · exact h
  · split
    · exact h
    · dsimp only
      split
      · exact Dev.readPart_wf (Dev.readData_wf h ..) ..
      · exact Dev.readPart_wf (Dev.readLost_wf h ..) ..
      · exact Dev.endsBad_wf h ..

theorem execE2eNack_answersWf : AnswersWf s (execE2eNack s) := by
  refine onDev_answersWf (Dev.onPacket_wf h (fun h _ pkt => ?_) _ _)
  split
  · exact Dev.endsBad_wf h ..
  · exact h

theorem execE2eAckCoalesce_answersWf (src : BitVec 15) (tc : BitVec 3) : AnswersWf s (execE2eAckCoalesce src tc s) := by
  refine onDev_answersWf (Dev.wf_of_mem_eq ?_ h)
  dsimp only
  rw [Dev.ite_mem, Dev.sendAck_mem, ite_self]

theorem execSyncReq_answersWf (t2 t3 : BitVec 64) : AnswersWf s (execSyncReq t2 t3 s) := by
  refine onDev_answersWf (Dev.wf_of_mem_eq (Dev.onPacket_mem (fun d p pkt => ?_) _ _) h)
  rw [Dev.ite_mem, Dev.toPort_mem, Dev.incSat_mem, ite_self]

theorem execSyncMsg_answersWf (port : FabPort) (t1 corr t2 : BitVec 64) : AnswersWf s (execSyncMsg port t1 corr t2 s) := by
  refine onDev_answersWf (Dev.wf_of_mem_eq ?_ h)
  split
  · rfl
  · exact Dev.emit_mem ..

theorem execDelayReq_answersWf (port : FabPort) (req : PtpReq) : AnswersWf s (execDelayReq port req s) := by
  refine onDev_answersWf (Dev.wf_of_mem_eq ?_ h)
  rw [Dev.ite_mem, Dev.emit_mem, ite_self]

theorem execAssign_answersWf : AnswersWf s (execAssign s) := by
  refine onDev_answersWf (Dev.wf_of_mem_eq ?_ h)
  split
  · rfl
  · exact Dev.onDiscovery_mem (fun _ _ _ => Dev.sourceRoute_mem (fun _ _ => Dev.fabricAssign_mem ..) ..)
      (fun _ _ _ => Dev.segmentAssign_mem ..) _

theorem execHeartbeatControl_answersWf : AnswersWf s (execHeartbeatControl s) := by
  refine onDev_answersWf (Dev.wf_of_mem_eq (Dev.onPacket_mem (fun d p pkt => ?_) _ _) h)
  dsimp only
  split
  · rfl
  · rw [Dev.chooseMaster_mem, Dev.ite_mem, Dev.set_mem, ite_self, Dev.updPort_mem, Dev.incWrap_mem]

theorem execCollective_answersWf : AnswersWf s (execCollective s) := by
  refine onDev_answersWf (Dev.onPacket_wf h (fun h _ pkt => Dev.receive_wf h (fun h => ?_) _) _ _)
  split
  · exact Dev.colReceive_wf h ..
  · exact Dev.wf_of_mem_eq (Dev.nack_mem ..) h

theorem execLeave_answersWf : AnswersWf s (execLeave s) := by
  refine onDev_answersWf (Dev.onPacket_wf h (fun h _ pkt => Dev.receive_wf h (fun h => ?_) _) _ _)
  split
  · exact Dev.wf_of_mem_eq ((Dev.ackDue_mem ..).trans (Dev.rxMark_mem ..)) (Dev.memberLeaves_wf h ..)
  · exact Dev.wf_of_mem_eq (Dev.nack_mem ..) h

theorem execCalibrationTimeout_answersWf : AnswersWf s (execCalibrationTimeout s) := by
  refine onDev_answersWf (Dev.wf_of_mem_eq ?_ h)
  rw [Dev.ite_mem, Dev.calFails_mem, ite_self]

theorem execPowerModeExit_answersWf : AnswersWf s (execPowerModeExit s) := by
  refine onDev_answersWf (Dev.wf_of_mem_eq ?_ h)
  rw [Dev.ite_mem, Dev.emit_mem, Dev.refreshEff_mem, Dev.set_mem, ite_self]

theorem execPmbAlert_answersWf (status : BitVec 16) : AnswersWf s (execPmbAlert status s) := by
  refine onDev_answersWf (Dev.wf_of_mem_eq ?_ h)
  rw [Dev.ite_mem, Dev.emit_mem, Dev.powerMode_mem, ite_self]

theorem execThermalModeExit_answersWf : AnswersWf s (execThermalModeExit s) := by
  refine onDev_answersWf (Dev.wf_of_mem_eq ?_ h)
  split
  · rw [Dev.ite_mem, Dev.emit_mem, Dev.refreshEff_mem, Dev.set_mem, ite_self]
  · rfl

theorem execRailUndervoltage_answersWf (rail : Fin 21) (deep : Bool) : AnswersWf s (execRailUndervoltage rail deep s) := by
  refine onDev_answersWf (Dev.wf_of_mem_eq ?_ h)
  extract_lets d
  have hd : d.mem = s.dev.mem := (Dev.powerMode_mem _).trans ((Dev.incSat_mem ..).trans (Dev.setBit_mem ..))
  split
  · split
    · rw [Dev.endStepEarly_mem, hd]
    · exact hd
  · exact hd

theorem execClockStateConfirm_answersWf (confirmed : Bool) : AnswersWf s (execClockStateConfirm confirmed s) := by
  refine onDev_answersWf (Dev.wf_of_mem_eq ?_ h)
  split
  · rw [Dev.ite_mem, Dev.ite_mem, Dev.ite_mem, Dev.set_mem, Dev.setPwr_mem, Dev.set_mem, Dev.setPwr_mem, ite_self, ite_self, ite_self]
  · rfl

theorem execDomainTransitionDone_answersWf (dom : DomId) : AnswersWf s (execDomainTransitionDone dom s) := by
  refine onDev_answersWf ?_
  dsimp only
  split
  · exact Dev.domainReach_wf h ..
  · exact h

theorem execCoreRestartDone_answersWf (core : CoreId) (us : BitVec 16) : AnswersWf s (execCoreRestartDone core us s) := by
  have hret := Dev.coreReturns_wf h core.val us.toNat
  refine onDev_answersWf ?_
  dsimp only
  split
  · exact Dev.spdmDrain_wf hret
  · exact hret

theorem execSeal_answersWf : AnswersWf s (execSeal s) := by
  refine onDev_answersWf (Dev.wf_of_mem_eq ?_ h)
  rw [Dev.ite_mem, Dev.ite_mem, Dev.seal_mem, Dev.setJnl_mem, ite_self, ite_self]

theorem execHostLoss_answersWf (port : HostPort) (cause : LossCause) : AnswersWf s (execHostLoss port cause s) := by
  refine onDev_answersWf (Dev.hostLost_wf ?_ ..)
  split
  · exact h
  · exact h

theorem execAclkLockTimeout_answersWf : AnswersWf s (execAclkLockTimeout s) := by
  refine onDev_answersWf (Dev.wf_of_mem_eq ?_ h)
  rw [Dev.ite_mem, Dev.setBoot_mem, ite_self]


theorem exec_answersWf (c : Instr) : AnswersWf s (exec c s) := by
  cases c with
  | registerWrite => exact ⟨_, rfl, Dev.regWrite_wf h ..⟩
  | arm => exact ⟨_, rfl, Dev.wf_of_mem_eq (Dev.throughPath_mem (fun _ => Dev.jointOp_mem ..) ..) h⟩
  | disarm => exact ⟨_, rfl, Dev.wf_of_mem_eq (Dev.throughPath_mem (fun _ => Dev.jointOp_mem ..) ..) h⟩
  | jointRevert => exact ⟨_, rfl, Dev.wf_of_mem_eq (Dev.throughPath_mem (fun _ => Dev.jointOp_mem ..) ..) h⟩
  | pegAdd => exact ⟨_, rfl, Dev.wf_of_mem_eq (Dev.throughPath_mem (fun _ => Dev.pegAdd_mem ..) ..) h⟩
  | domainRequest => exact ⟨_, rfl, Dev.wf_of_mem_eq (Dev.throughPath_mem (fun _ => Dev.writeDom_mem ..) ..) h⟩
  | prethawTarget => exact ⟨_, rfl, Dev.wf_of_mem_eq (Dev.throughPath_mem (fun _ => Dev.writeFields_mem ..) ..) h⟩
  | bayThaw => exact ⟨_, rfl, Dev.wf_of_mem_eq (Dev.throughPath_mem (fun _ => Dev.writeThaw_mem ..) ..) h⟩
  | ringEnable => exact ⟨_, rfl, Dev.throughPath_wf h (fun h => Dev.writeRing_wf h ..) ..⟩
  | ringDisable => exact ⟨_, rfl, Dev.throughPath_wf h (fun h => Dev.writeRing_wf h ..) ..⟩
  | sqTailDoorbell => exact ⟨_, rfl, Dev.wf_of_mem_eq (Dev.sqDoorbell_mem ..) h⟩
  | cqHeadDoorbell => exact ⟨_, rfl, Dev.cqDoorbell_wf h ..⟩
  | commandFetch => exact ⟨_, rfl, Dev.commandFetch_wf h ..⟩
  | msixCoalesceTimeout => exact ⟨_, rfl, Dev.wf_of_mem_eq (Dev.coalesceTimeout_mem ..) h⟩
  | nop => exact ⟨_, rfl, Dev.hostCmd_wf h (fun h _ => Dev.complete_wf h ..) ..⟩
  | raise => exact ⟨_, rfl, Dev.hostCmd_wf h (fun h _ => Dev.raiseCmd_wf h ..) ..⟩
  | strike => exact ⟨_, rfl, Dev.hostCmd_wf h (fun h _ => Dev.strikeCmd_wf h ..) ..⟩
  | step => exact ⟨_, rfl, Dev.hostCmd_wf h (fun h _ => Dev.stepCmd_wf h ..) ..⟩
  | copy => exact ⟨_, rfl, Dev.hostCmd_wf h (fun h _ => Dev.copyCmd_wf h ..) ..⟩
  | fill => exact ⟨_, rfl, Dev.hostCmd_wf h (fun h _ => Dev.copyCmd_wf h ..) ..⟩
  | snapshot => exact ⟨_, rfl, Dev.hostCmd_wf h (fun h _ => Dev.snapshotCmd_wf h ..) ..⟩
  | restore => exact ⟨_, rfl, Dev.hostCmd_wf h (fun h _ => Dev.restoreCmd_wf h ..) ..⟩
  | fence => exact ⟨_, rfl, Dev.hostCmd_wf h (fun h _ => Dev.fenceCmd_wf h ..) ..⟩
  | query => exact ⟨_, rfl, Dev.hostCmd_wf h (fun h _ => Dev.complete_wf h ..) ..⟩
  | preempt => exact ⟨_, rfl, Dev.hostCmd_wf h (fun h _ => Dev.preemptCmd_wf h ..) ..⟩
  | resume => exact ⟨_, rfl, Dev.hostCmd_wf h (fun h _ => Dev.resumeCmd_wf h ..) ..⟩
  | telemetry => exact ⟨_, rfl, Dev.hostCmd_wf h (fun h _ => Dev.telemetryCmd_wf h ..) ..⟩
  | raiseStagingDone => exact ⟨_, rfl, Dev.stagingDone_wf h ..⟩
  | raiseVerificationDone => exact ⟨_, rfl, Dev.verificationDone_wf h ..⟩
  | raiseContentCheckDone => exact ⟨_, rfl, Dev.contentDone_wf h ..⟩
  | raiseReservationDone => exact ⟨_, rfl, Dev.reservationDone_wf h ..⟩
  | raiseLoadDone => exact ⟨_, rfl, Dev.loadDone_wf h ..⟩
  | raiseThawTimeout => exact ⟨_, rfl, Dev.thawTimeout_wf h ..⟩
  | strikeRelease => exact ⟨_, rfl, Dev.strikeRelease_wf h ..⟩
  | strikeScrubDone => exact ⟨_, rfl, Dev.strikeScrubDone_wf h ..⟩
  | hbmPageZeroed => exact ⟨_, rfl, Dev.pageZeroed_wf h ..⟩
  | edgeSetClose => exact ⟨_, rfl, Dev.wf_of_mem_eq (Dev.closeSet_mem ..) h⟩
  | tickEdge => exact ⟨_, rfl, Dev.tickEdge_wf h⟩
  | tickPegIncrement => exact ⟨_, rfl, Dev.wf_of_mem_eq (Dev.tickPegIncrement_mem ..) h⟩
  | wsGemm => exact ⟨_, rfl, Dev.wsGemm_wf h ..⟩
  | osGemm => exact ⟨_, rfl, Dev.osGemm_wf h ..⟩
  | wload => exact ⟨_, rfl, Dev.wf_of_mem_eq (Dev.wloadPass_mem ..) h⟩
  | drain => exact ⟨_, rfl, Dev.drainPass_wf h ..⟩
  | passComplete => exact ⟨_, rfl, Dev.wf_of_mem_eq (Dev.passComplete_mem ..) h⟩
  | arrayStartGrant => exact ⟨_, rfl, Dev.wf_of_mem_eq (Dev.arrayStartGrant_mem ..) h⟩
  | stagingComplete => exact ⟨_, rfl, Dev.stagingComplete_wf h ..⟩
  | drainRowEnqueue => exact ⟨_, rfl, Dev.drainRowEnqueue_wf h ..⟩
  | locateTest => exact ⟨_, rfl, Dev.wf_of_mem_eq (Dev.locateTest_mem ..) h⟩
  | locateTestDone => exact ⟨_, rfl, Dev.wf_of_mem_eq (Dev.locateTestDone_mem ..) h⟩
  | pegForwardLand => exact ⟨_, rfl, Dev.wf_of_mem_eq (Dev.pegForwardLand_mem ..) h⟩
  | tmPatrol => exact ⟨_, rfl, Dev.tmPatrol_wf h ..⟩
  | tmLineRetire => exact ⟨_, rfl, Dev.wf_of_mem_eq (Dev.tmLineRetire_mem ..) h⟩
  | dmaCopy => exact ⟨_, rfl, Dev.dmaStart_wf h ..⟩
  | dmaFill => exact ⟨_, rfl, Dev.dmaStart_wf h ..⟩
  | dmaComplete => exact ⟨_, rfl, Dev.wf_of_mem_eq ((Dev.dmaComplete_mem ..).trans (Dev.meshWaits_mem ..)) h⟩
  | programCopyDone => exact ⟨_, rfl, Dev.wf_of_mem_eq (Dev.programCopyDone_mem ..) h⟩
  | vNop => exact ⟨_, rfl, Dev.wf_of_mem_eq (Dev.vecRun_mem (fun _ _ _ => vNop_mem ..) ..) h⟩
  | vAdd => exact ⟨_, rfl, Dev.wf_of_mem_eq (Dev.vecRun_mem (fun _ _ _ => vAdd_mem ..) ..) h⟩
  | vSub => exact ⟨_, rfl, Dev.wf_of_mem_eq (Dev.vecRun_mem (fun _ _ _ => vSub_mem ..) ..) h⟩
  | vMul => exact ⟨_, rfl, Dev.wf_of_mem_eq (Dev.vecRun_mem (fun _ _ _ => vMul_mem ..) ..) h⟩
  | vFma => exact ⟨_, rfl, Dev.wf_of_mem_eq (Dev.vecRun_mem (fun _ _ _ => Dev.vecFma_mem ..) ..) h⟩
  | vFnma => exact ⟨_, rfl, Dev.wf_of_mem_eq (Dev.vecRun_mem (fun _ _ _ => Dev.vecFma_mem ..) ..) h⟩
  | vDiv => exact ⟨_, rfl, Dev.wf_of_mem_eq (Dev.vecRun_mem (fun _ _ _ => vDiv_mem ..) ..) h⟩
  | vSqrt => exact ⟨_, rfl, Dev.wf_of_mem_eq (Dev.vecRun_mem (fun _ _ _ => vSqrtOp_mem ..) ..) h⟩
  | vMin => exact ⟨_, rfl, Dev.wf_of_mem_eq (Dev.vecRun_mem (fun _ _ _ => vMinMax_mem ..) ..) h⟩
  | vMax => exact ⟨_, rfl, Dev.wf_of_mem_eq (Dev.vecRun_mem (fun _ _ _ => vMinMax_mem ..) ..) h⟩
  | vMinn => exact ⟨_, rfl, Dev.wf_of_mem_eq (Dev.vecRun_mem (fun _ _ _ => vMinMaxNum_mem ..) ..) h⟩
  | vMaxn => exact ⟨_, rfl, Dev.wf_of_mem_eq (Dev.vecRun_mem (fun _ _ _ => vMinMaxNum_mem ..) ..) h⟩
  | vAbs => exact ⟨_, rfl, Dev.wf_of_mem_eq (Dev.vecRun_mem (fun _ _ _ => vSign_mem ..) ..) h⟩
  | vNeg => exact ⟨_, rfl, Dev.wf_of_mem_eq (Dev.vecRun_mem (fun _ _ _ => vSign_mem ..) ..) h⟩
  | vRint => exact ⟨_, rfl, Dev.wf_of_mem_eq (Dev.vecRun_mem (fun _ _ _ => vRintOp_mem ..) ..) h⟩
  | vAnd => exact ⟨_, rfl, Dev.wf_of_mem_eq (Dev.vecRun_mem (fun _ _ _ => vLogic_mem ..) ..) h⟩
  | vOr => exact ⟨_, rfl, Dev.wf_of_mem_eq (Dev.vecRun_mem (fun _ _ _ => vLogic_mem ..) ..) h⟩
  | vXor => exact ⟨_, rfl, Dev.wf_of_mem_eq (Dev.vecRun_mem (fun _ _ _ => vLogic_mem ..) ..) h⟩
  | vShl => exact ⟨_, rfl, Dev.wf_of_mem_eq (Dev.vecRun_mem (fun _ _ _ => vShift_mem ..) ..) h⟩
  | vShr => exact ⟨_, rfl, Dev.wf_of_mem_eq (Dev.vecRun_mem (fun _ _ _ => vShift_mem ..) ..) h⟩
  | vShrl => exact ⟨_, rfl, Dev.wf_of_mem_eq (Dev.vecRun_mem (fun _ _ _ => vShift_mem ..) ..) h⟩
  | vCmp => exact ⟨_, rfl, Dev.wf_of_mem_eq (Dev.vecRun_mem (fun _ _ _ => vCmpOp_mem ..) ..) h⟩
  | vSel => exact ⟨_, rfl, Dev.wf_of_mem_eq (Dev.vecRun_mem (fun _ _ _ => vSelOp_mem ..) ..) h⟩
  | vPset => exact ⟨_, rfl, Dev.wf_of_mem_eq (Dev.vecRun_mem (fun _ _ _ => vPsetOp_mem ..) ..) h⟩
  | vPlog => exact ⟨_, rfl, Dev.wf_of_mem_eq (Dev.vecRun_mem (fun _ _ _ => vPlogOp_mem ..) ..) h⟩
  | vExp => exact ⟨_, rfl, Dev.wf_of_mem_eq (Dev.vecRun_mem (fun _ _ _ => vFunc_mem ..) ..) h⟩
  | vLog => exact ⟨_, rfl, Dev.wf_of_mem_eq (Dev.vecRun_mem (fun _ _ _ => vFunc_mem ..) ..) h⟩
  | vRsqrt => exact ⟨_, rfl, Dev.wf_of_mem_eq (Dev.vecRun_mem (fun _ _ _ => vFunc_mem ..) ..) h⟩
  | vSigm => exact ⟨_, rfl, Dev.wf_of_mem_eq (Dev.vecRun_mem (fun _ _ _ => vFunc_mem ..) ..) h⟩
  | vTanh => exact ⟨_, rfl, Dev.wf_of_mem_eq (Dev.vecRun_mem (fun _ _ _ => vFunc_mem ..) ..) h⟩
  | vSilu => exact ⟨_, rfl, Dev.wf_of_mem_eq (Dev.vecRun_mem (fun _ _ _ => vFunc_mem ..) ..) h⟩
  | vGelu => exact ⟨_, rfl, Dev.wf_of_mem_eq (Dev.vecRun_mem (fun _ _ _ => vFunc_mem ..) ..) h⟩
  | vCvt => exact ⟨_, rfl, Dev.wf_of_mem_eq (Dev.vecRun_mem (fun _ _ _ => vCvtOp_mem ..) ..) h⟩
  | vRsum => exact ⟨_, rfl, Dev.wf_of_mem_eq (Dev.vecRun_mem (fun _ _ _ => vReduce_mem ..) ..) h⟩
  | vRmax => exact ⟨_, rfl, Dev.wf_of_mem_eq (Dev.vecRun_mem (fun _ _ _ => vReduce_mem ..) ..) h⟩
  | vRmin => exact ⟨_, rfl, Dev.wf_of_mem_eq (Dev.vecRun_mem (fun _ _ _ => vReduce_mem ..) ..) h⟩
  | vPerm => exact ⟨_, rfl, Dev.wf_of_mem_eq (Dev.vecRun_mem (fun _ _ _ => vPermOp_mem ..) ..) h⟩
  | vShuf => exact ⟨_, rfl, Dev.wf_of_mem_eq (Dev.vecRun_mem (fun _ _ _ => vShufOp_mem ..) ..) h⟩
  | vPack => exact ⟨_, rfl, Dev.wf_of_mem_eq (Dev.vecRun_mem (fun _ _ _ => vPackOp_mem ..) ..) h⟩
  | vUnpk => exact ⟨_, rfl, Dev.wf_of_mem_eq (Dev.vecRun_mem (fun _ _ _ => vUnpkOp_mem ..) ..) h⟩
  | vBcast => exact ⟨_, rfl, Dev.wf_of_mem_eq (Dev.vecRun_mem (fun _ _ _ => vBcastOp_mem ..) ..) h⟩
  | vMovs => exact ⟨_, rfl, Dev.wf_of_mem_eq (Dev.vecRun_mem (fun _ _ _ => vMovsOp_mem ..) ..) h⟩
  | vMovv => exact ⟨_, rfl, Dev.wf_of_mem_eq (Dev.vecRun_mem (fun _ _ _ => vMovvOp_mem ..) ..) h⟩
  | vVld => exact ⟨_, rfl, Dev.wf_of_mem_eq (Dev.vecRun_mem (fun _ _ _ => vVldOp_mem ..) ..) h⟩
  | vVst => exact ⟨_, rfl, Dev.vecRun_wf h (fun h _ _ => vVstOp_wf h ..) ..⟩
  | vVldc => exact ⟨_, rfl, Dev.wf_of_mem_eq (Dev.vecRun_mem (fun _ _ _ => vVldcOp_mem ..) ..) h⟩
  | vVstc => exact ⟨_, rfl, Dev.vecRun_wf h (fun h _ _ => vVstcOp_wf h ..) ..⟩
  | vVstb => exact ⟨_, rfl, Dev.vecRun_wf h (fun h _ _ => vVstbOp_wf h ..) ..⟩
  | vGath => exact ⟨_, rfl, Dev.wf_of_mem_eq (Dev.vecRun_mem (fun _ _ _ => vGathOp_mem ..) ..) h⟩
  | vScat => exact ⟨_, rfl, Dev.vecRun_wf h (fun h _ _ => vScatOp_wf h ..) ..⟩
  | vScta => exact ⟨_, rfl, Dev.vecRun_wf h (fun h _ _ => vSctaOp_wf h ..) ..⟩
  | vVrecv => exact ⟨_, rfl, Dev.wf_of_mem_eq (Dev.vecRun_mem (fun _ _ _ => vVrecvOp_mem ..) ..) h⟩
  | vSli => exact ⟨_, rfl, Dev.wf_of_mem_eq (Dev.vecRun_mem (fun _ _ _ => vSli_mem ..) ..) h⟩
  | vSlih => exact ⟨_, rfl, Dev.wf_of_mem_eq (Dev.vecRun_mem (fun _ _ _ => vSlih_mem ..) ..) h⟩
  | vSadd => exact ⟨_, rfl, Dev.wf_of_mem_eq (Dev.vecRun_mem (fun _ _ _ => vSadd_mem ..) ..) h⟩
  | vSmul => exact ⟨_, rfl, Dev.wf_of_mem_eq (Dev.vecRun_mem (fun _ _ _ => vScalarOp_mem ..) ..) h⟩
  | vSand => exact ⟨_, rfl, Dev.wf_of_mem_eq (Dev.vecRun_mem (fun _ _ _ => vScalarOp_mem ..) ..) h⟩
  | vSshl => exact ⟨_, rfl, Dev.wf_of_mem_eq (Dev.vecRun_mem (fun _ _ _ => vScalarOp_mem ..) ..) h⟩
  | vSshr => exact ⟨_, rfl, Dev.wf_of_mem_eq (Dev.vecRun_mem (fun _ _ _ => vScalarOp_mem ..) ..) h⟩
  | vSrd => exact ⟨_, rfl, Dev.wf_of_mem_eq (Dev.vecRun_mem (fun _ _ _ => vSrdOp_mem ..) ..) h⟩
  | vBne => exact ⟨_, rfl, Dev.wf_of_mem_eq (Dev.vecRun_mem (fun _ _ _ => vBneOp_mem ..) ..) h⟩
  | vBlt => exact ⟨_, rfl, Dev.wf_of_mem_eq (Dev.vecRun_mem (fun _ _ _ => vBltOp_mem ..) ..) h⟩
  | vWait => exact ⟨_, rfl, Dev.wf_of_mem_eq (Dev.vecRun_mem (fun _ _ _ => vWaitOp_mem ..) ..) h⟩
  | vInc => exact ⟨_, rfl, Dev.wf_of_mem_eq (Dev.vecRun_mem (fun _ _ _ => vIncOp_mem ..) ..) h⟩
  | vFence => exact ⟨_, rfl, Dev.wf_of_mem_eq (Dev.vecRun_mem (fun _ _ _ => Dev.nextPc_mem ..) ..) h⟩
  | vEnd => exact ⟨_, rfl, Dev.wf_of_mem_eq (Dev.vecRun_mem (fun _ _ _ => vEndOp_mem ..) ..) h⟩
  | gateDecision => exact ⟨_, rfl, Dev.wf_of_mem_eq (Dev.gateDecision_mem ..) h⟩
  | preemptDrainEnd => exact ⟨_, rfl, Dev.preemptDrainEnd_wf h ..⟩
  | contextSaveDone => exact ⟨_, rfl, Dev.saveDone_wf h ..⟩
  | contextRestoreDone => exact ⟨_, rfl, Dev.restoreDone_wf h ..⟩
  | hbmPatrol => exact ⟨_, rfl, Dev.hbmPatrol_wf h ..⟩
  | hbmTemperatureRead => exact ⟨_, rfl, Dev.wf_of_mem_eq (Dev.hbmTemps_mem ..) h⟩
  | hbmRowRepair => exact ⟨_, rfl, Dev.wf_of_mem_eq (Dev.hbmRowRepair_mem ..) h⟩
  | portSignalDetect => exact ⟨_, rfl, Dev.wf_of_mem_eq (Dev.signalDetect_mem ..) h⟩
  | linkTrainingDone => exact execLinkTrainingDone_answersWf h ..
  | trainTimeout => exact execTrainTimeout_answersWf h ..
  | alignDone => exact execAlignDone_answersWf h ..
  | alignTimeout => exact execAlignTimeout_answersWf h ..
  | initFlits => exact ⟨_, rfl, Dev.wf_of_mem_eq (Dev.linkInit_mem ..) h⟩
  | handshake => exact ⟨_, rfl, Dev.handshake_wf h ..⟩
  | handshakeResend => exact ⟨_, rfl, Dev.wf_of_mem_eq (Dev.handshakeResend_mem ..) h⟩
  | ackCredit => exact ⟨_, rfl, Dev.wf_of_mem_eq (Dev.ackCredit_mem ..) h⟩
  | ackCreditTimer => exact execAckCreditTimer_answersWf h ..
  | nak => exact ⟨_, rfl, Dev.wf_of_mem_eq (Dev.nak_mem ..) h⟩
  | retrain => exact ⟨_, rfl, Dev.wf_of_mem_eq (Dev.retrain_mem ..) h⟩
  | heartbeat => exact ⟨_, rfl, Dev.wf_of_mem_eq (Dev.heartbeat_mem ..) h⟩
  | heartbeatSend => exact ⟨_, rfl, Dev.wf_of_mem_eq (Dev.heartbeatSend_mem ..) h⟩
  | peerDead => exact ⟨_, rfl, Dev.peerDead_wf h ..⟩
  | retire => exact ⟨_, rfl, Dev.wf_of_mem_eq (Dev.retire_mem ..) h⟩
  | retireRequestTimeout => exact ⟨_, rfl, Dev.wf_of_mem_eq (Dev.retireAgain_mem ..) h⟩
  | withdrawDrained => exact ⟨_, rfl, Dev.drained_wf h ..⟩
  | laneRetire => exact ⟨_, rfl, Dev.wf_of_mem_eq (Dev.laneRetire_mem ..) h⟩
  | fecRateSecond => exact execFecRateSecond_answersWf h ..
  | portEnable => exact ⟨_, rfl, Dev.wf_of_mem_eq (Dev.throughPath_mem (fun _ => Dev.writePort_mem ..) ..) h⟩
  | portDisable => exact ⟨_, rfl, Dev.wf_of_mem_eq (Dev.throughPath_mem (fun _ => Dev.writePort_mem ..) ..) h⟩
  | pfcPause => exact execPfcPause_answersWf h ..
  | packetReceive => exact ⟨_, rfl, Dev.wf_of_mem_eq (Dev.packetReceive_mem ..) h⟩
  | write => exact execWrite_answersWf h
  | readReq => exact execReadReq_answersWf h ..
  | readResp => exact execReadResp_answersWf h
  | e2eAck => exact ⟨_, rfl, Dev.onPacket_wf h (fun h _ _ => Dev.e2eAck_wf h _) ..⟩
  | e2eNack => exact execE2eNack_answersWf h
  | e2eAckCoalesce => exact execE2eAckCoalesce_answersWf h ..
  | e2eTimeout => exact ⟨_, rfl, Dev.e2eTimeout_wf h ..⟩
  | announce => exact ⟨_, rfl, Dev.wf_of_mem_eq (Dev.onPacket_mem (fun _ _ _ => Dev.announce_mem ..) ..) h⟩
  | announceSend => exact ⟨_, rfl, Dev.wf_of_mem_eq (Dev.announceSend_mem ..) h⟩
  | announceAgeOut => exact ⟨_, rfl, Dev.wf_of_mem_eq (Dev.ageOut_mem ..) h⟩
  | syncMeasure => exact ⟨_, rfl, Dev.wf_of_mem_eq (Dev.syncMeasure_mem ..) h⟩
  | syncReq => exact execSyncReq_answersWf h ..
  | syncResp => exact ⟨_, rfl, Dev.wf_of_mem_eq (Dev.onPacket_mem (fun _ _ _ => Dev.syncResp_mem ..) ..) h⟩
  | syncMsg => exact execSyncMsg_answersWf h ..
  | delayReq => exact execDelayReq_answersWf h ..
  | delayResp => exact ⟨_, rfl, Dev.wf_of_mem_eq (Dev.delayResp_mem ..) h⟩
  | ppsPulse => exact ⟨_, rfl, Dev.wf_of_mem_eq (Dev.ppsPulse_mem ..) h⟩
  | discover => exact ⟨_, rfl, Dev.wf_of_mem_eq (Dev.onDiscovery_mem (fun _ _ _ => Dev.sourceRoute_mem (fun _ _ => Dev.discoverReply_mem ..) ..) Dev.segmentDiscover_mem _) h⟩
  | discoverReply => exact ⟨_, rfl, Dev.wf_of_mem_eq (Dev.onDiscovery_mem Dev.fabricReply_mem (fun _ _ _ => Dev.emit_mem ..) _) h⟩
  | discoverReplyDelay => exact ⟨_, rfl, Dev.wf_of_mem_eq (Dev.delayedReply_mem ..) h⟩
  | assign => exact execAssign_answersWf h
  | heartbeatControl => exact execHeartbeatControl_answersWf h
  | reduceScatter => exact ⟨_, rfl, Dev.colRun_wf h ..⟩
  | allGather => exact ⟨_, rfl, Dev.colRun_wf h ..⟩
  | allReduce => exact ⟨_, rfl, Dev.colRun_wf h ..⟩
  | allToAll => exact ⟨_, rfl, Dev.colRun_wf h ..⟩
  | collective => exact execCollective_answersWf h
  | collectiveComplete => exact ⟨_, rfl, Dev.colFinish_wf h ..⟩
  | leave => exact execLeave_answersWf h
  | faultNotice => exact ⟨_, rfl, Dev.onPacket_wf h (fun h _ _ => Dev.faultNotice_wf h _) ..⟩
  | faultResendTimer => exact ⟨_, rfl, Dev.wf_of_mem_eq (Dev.faultTimer_mem ..) h⟩
  | sisterBind => exact ⟨_, rfl, Dev.wf_of_mem_eq (Dev.control_mem (fun _ _ => Dev.sisterBind_mem ..) _) h⟩
  | sisterReply => exact ⟨_, rfl, Dev.wf_of_mem_eq (Dev.control_mem (fun _ _ => Dev.sisterReply_mem ..) _) h⟩
  | sisterBindRetry => exact ⟨_, rfl, Dev.wf_of_mem_eq (Dev.bindRetry_mem ..) h⟩
  | snapshotReadDone => exact ⟨_, rfl, Dev.snapRead_wf h ..⟩
  | snapCommit => exact ⟨_, rfl, Dev.wf_of_mem_eq (Dev.control_mem (fun _ _ => Dev.snapCommit_mem ..) _) h⟩
  | refillReq => exact ⟨_, rfl, Dev.wf_of_mem_eq (Dev.control_mem (fun _ _ => Dev.refillReq_mem ..) _) h⟩
  | refillReply => exact ⟨_, rfl, Dev.control_wf h (fun h _ => Dev.refillReply_wf h _) _⟩
  | deadClr => exact ⟨_, rfl, Dev.wf_of_mem_eq (Dev.throughPath_mem (fun _ => Dev.writeDeadClr_mem ..) ..) h⟩
  | unfence => exact ⟨_, rfl, Dev.wf_of_mem_eq (Dev.throughPath_mem (fun _ => Dev.writeFields_mem ..) ..) h⟩
  | clearDropped => exact ⟨_, rfl, Dev.wf_of_mem_eq (Dev.throughPath_mem (fun _ => Dev.writeFields_mem ..) ..) h⟩
  | governorInterval => exact ⟨_, rfl, Dev.wf_of_mem_eq (Dev.govern_mem ..) h⟩
  | calibrationRead => exact ⟨_, rfl, Dev.wf_of_mem_eq (Dev.calRead_mem ..) h⟩
  | calibrationTimeout => exact execCalibrationTimeout_answersWf h
  | powerModeExit => exact execPowerModeExit_answersWf h
  | pmbAlert => exact execPmbAlert_answersWf h ..
  | junctionSample => exact ⟨_, rfl, Dev.warmCheck_wf (Dev.wf_of_mem_eq (Dev.junctions_mem ..) h)⟩
  | thermalModeExit => exact execThermalModeExit_answersWf h
  | thermalTrip => exact ⟨_, rfl, Dev.thermalTrip_wf h⟩
  | railUndervoltage => exact execRailUndervoltage_answersWf h ..
  | clockStateConfirm => exact execClockStateConfirm_answersWf h ..
  | domainTransitionDone => exact execDomainTransitionDone_answersWf h ..
  | tokenWindow => exact ⟨_, rfl, Dev.wf_of_mem_eq (Dev.tokenWindow_mem ..) h⟩
  | coordAnnounce => exact ⟨_, rfl, Dev.wf_of_mem_eq (Dev.onEither_mem (fun _ _ _ _ => Dev.coordAnnounce_mem ..) ..) h⟩
  | coordAnnounceSend => exact ⟨_, rfl, Dev.wf_of_mem_eq (Dev.coordSend_mem ..) h⟩
  | coordinatorLost => exact ⟨_, rfl, Dev.wf_of_mem_eq ((Dev.electCoord_mem _).trans (Dev.setPwr_mem ..)) h⟩
  | tokenReq => exact ⟨_, rfl, Dev.wf_of_mem_eq (Dev.onEither_mem (fun _ _ _ _ => Dev.tokenReq_mem ..) ..) h⟩
  | tokenGrant => exact ⟨_, rfl, Dev.wf_of_mem_eq (Dev.onEither_mem (fun _ _ _ _ => Dev.tokenGrant_mem ..) ..) h⟩
  | watchdog => exact ⟨_, rfl, Dev.coreFails_wf h ..⟩
  | fatalTrap => exact ⟨_, rfl, Dev.coreFails_wf h ..⟩
  | coreMemoryError => exact ⟨_, rfl, Dev.coreMemory_wf h ..⟩
  | coreRestartDone => exact execCoreRestartDone_answersWf h ..
  | stage => exact ⟨_, rfl, Dev.fwWrite_wf h ..⟩
  | stageDone => exact ⟨_, rfl, Dev.wf_of_mem_eq (Dev.stageDone_mem ..) h⟩
  | activate => exact ⟨_, rfl, Dev.fwWrite_wf h ..⟩
  | cancel => exact ⟨_, rfl, Dev.fwWrite_wf h ..⟩
  | restart => exact ⟨_, rfl, Dev.fwWrite_wf h ..⟩
  | revert => exact ⟨_, rfl, Dev.fwWrite_wf h ..⟩
  | installKeyPackage => exact ⟨_, rfl, Dev.wf_of_mem_eq (Dev.secWriteCmd_mem ..) h⟩
  | presentOwnerRecord => exact ⟨_, rfl, Dev.wf_of_mem_eq (Dev.secWriteCmd_mem ..) h⟩
  | sealNow => exact ⟨_, rfl, Dev.wf_of_mem_eq (Dev.secWriteCmd_mem ..) h⟩
  | journalRoomFreed => exact ⟨_, rfl, Dev.roomFreed_wf h⟩
  | exportEnable => exact ⟨_, rfl, Dev.throughPath_wf h (fun h => Dev.writeJnlCfg_wf h ..) ..⟩
  | exportPoll => exact ⟨_, rfl, Dev.exportPoll_wf h ..⟩
  | spdmRequest => exact ⟨_, rfl, Dev.spdmRequest_wf h ..⟩
  | ideFail => exact ⟨_, rfl, Dev.wf_of_mem_eq (Dev.ideFail_mem ..) h⟩
  | linkUp => exact ⟨_, rfl, Dev.wf_of_mem_eq (Dev.linkUp_mem ..) h⟩
  | hostLoss => exact execHostLoss_answersWf h ..
  | vfFlr => exact ⟨_, rfl, Dev.wf_of_mem_eq (Dev.vfReset_mem ..) h⟩
  | tdiError => exact ⟨_, rfl, Dev.wf_of_mem_eq ((Dev.set_mem ..).trans (Dev.vfReset_mem ..)) h⟩
  | atsInvalidation => exact ⟨_, rfl, Dev.wf_of_mem_eq (Dev.atsInvalidate_mem ..) h⟩
  | macEnable => exact ⟨_, rfl, Dev.wf_of_mem_eq (Dev.throughPath_mem (fun _ => Dev.writeMgtCfg_mem ..) ..) h⟩
  | macDisable => exact ⟨_, rfl, Dev.wf_of_mem_eq (Dev.throughPath_mem (fun _ => Dev.writeMgtCfg_mem ..) ..) h⟩
  | frameReceive => exact ⟨_, rfl, Dev.wf_of_mem_eq (Dev.frameReceive_mem ..) h⟩
  | frameTransmit => exact ⟨_, rfl, Dev.wf_of_mem_eq (Dev.frameTransmit_mem ..) h⟩
  | collision => exact ⟨_, rfl, Dev.wf_of_mem_eq (Dev.collision_mem ..) h⟩
  | backoffExpiry => exact ⟨_, rfl, Dev.wf_of_mem_eq (Dev.backoffExpiry_mem ..) h⟩
  | beaconLost => exact ⟨_, rfl, Dev.wf_of_mem_eq (Dev.beaconLost_mem ..) h⟩
  | regRead => exact ⟨_, rfl, Dev.wf_of_mem_eq (Dev.onRequest_mem (fun _ _ _ => Dev.regReadMsg_mem ..) ..) h⟩
  | regWrite => exact ⟨_, rfl, Dev.unlessHeld_wf h (Dev.onRequest_wf h (fun h _ _ => Dev.regWriteMsg_wf h ..) ..)⟩
  | stageData => exact ⟨_, rfl, Dev.onRequest_wf h (fun h _ _ => Dev.stageMsg_wf h ..) ..⟩
  | powerOnReset => exact ⟨_, rfl, Dev.powerOn_wf h⟩
  | aoRelease => exact ⟨_, rfl, Dev.wf_of_mem_eq (Dev.aoRelease_mem ..) h⟩
  | aclkLockTimeout => exact execAclkLockTimeout_answersWf h
  | startupStepComplete => exact ⟨_, rfl, Dev.startupStep_wf h ..⟩
  | hbmTrainingDone => exact ⟨_, rfl, Dev.wf_of_mem_eq (Dev.hbmTrained_mem ..) h⟩
  | wrstNAssert => exact ⟨_, rfl, Dev.warmReset_wf h ..⟩
  | warmReset => exact ⟨_, rfl, Dev.throughPath_wf h (fun h => Dev.writeReset_wf h ..) ..⟩
  | ppsAbsent => exact ⟨_, rfl, Dev.wf_of_mem_eq (Dev.ppsAbsent_mem ..) h⟩
  | plcaBeacon => exact ⟨_, rfl, Dev.wf_of_mem_eq (Dev.plcaBeacon_mem ..) h⟩
  | perstNDeassert => exact ⟨_, rfl, h⟩
  | i3cPageRefresh => exact ⟨_, rfl, h⟩
  | i3cDynamicAddress => exact ⟨_, rfl, h⟩
  -- What is left is `Instr.seal`: `seal` is a keyword of Lean, so the case cannot be named.
  | _ => exact execSeal_answersWf h

end

/-- A step keeps the memories canonical, and takes at most the front of the queue. -/
theorem step_memWf {s t : State} (h : s.dev.mem.wf = true) (ht : step s = .next t) :
    t.dev.mem.wf = true ∧ t.pending = s.pending.tail := by
  unfold step at ht
  split at ht
  · next hq =>
    cases ht
    exact ⟨Dev.wf_of_mem_eq s.dev.idle_mem h, by rw [hq]; exact hq⟩
  · next c rest hq =>
    obtain ⟨e, he, hwf⟩ := exec_answersWf (s := s.popped rest) h c
    cases he.symm.trans ht
    exact ⟨hwf, by rw [hq]; rfl⟩

/-! ### The queue -/

/-- A command is a function of the device; it neither reads nor changes the queue. -/
theorem exec_eq_onDev (c : Instr) : ∃ f, ∀ s, exec c s = onDev s f := by
  unfold exec
  cases c <;> exact ⟨_, fun _ => rfl⟩

theorem step_front (c : Instr) (s : State) (rest : List Instr) :
    step { s with pending := c :: rest } = exec c { s with pending := rest } := rfl

end Sys2Proof.Machine

namespace Sys2Proof.Proofs

open Sys2Proof.Machine Sys2Proof.Claims

/-- Settles O50: a command keeps the memories canonical (`exec_answersWf`), and the queue only loses its front. -/
theorem stepsKeepTheStateSound : Obligations.StepsKeepTheStateSound := by
  unfold Obligations.StepsKeepTheStateSound
  intro s t hs ht
  simp only [State.sound, Dev.memWf, Bool.and_eq_true, List.all_eq_true] at hs ⊢
  obtain ⟨hmem, hqueue⟩ := hs
  obtain ⟨hmem', hqueue'⟩ := step_memWf hmem ht
  refine ⟨hmem', fun c hc => hqueue c ?_⟩
  rw [hqueue'] at hc
  exact List.mem_of_mem_tail hc

/-- Settles O47: every command is a function of the device. -/
theorem everyCommandAnswersANextState : Obligations.EveryCommandAnswersANextState := by
  unfold Obligations.EveryCommandAnswersANextState
  intro c s
  obtain ⟨f, hf⟩ := exec_eq_onDev c
  exact ⟨f s.dev, hf s⟩

/-- Settles O48, by induction on the list: a command acts on the device alone, whatever waits behind it. -/
theorem waitingCommandsRunInOrder : Obligations.WaitingCommandsRunInOrder := by
  unfold Obligations.WaitingCommandsRunInOrder
  intro cs
  induction cs with
  | nil => exact fun _ => rfl
  | cons c cs ih =>
    intro s
    obtain ⟨f, hf⟩ := exec_eq_onDev c
    rw [List.length_cons, steps, List.cons_append, step_front, runAll, hf, hf, onDev_eq, onDev_eq]
    exact ih { s with dev := f s.dev }

/-- Settles O45. -/
theorem aStepRunsTheFrontCommand : Obligations.AStepRunsTheFrontCommand := by
  unfold Obligations.AStepRunsTheFrontCommand
  exact fun c s => step_front c s s.pending

/-- Settles O46: the idle step is `setTime` to the next nanosecond, or nothing. -/
theorem anIdleStepPassesANanosecond : Obligations.AnIdleStepPassesANanosecond := by
  unfold Obligations.AnIdleStepPassesANanosecond
  intro s hq
  have hstep : step s = .next { s with dev := s.dev.idle } := by
    simp only [step, hq, idle]
  refine ⟨fun hlt => ⟨s.dev.setTime (s.dev.clk.timeNs + 1), ?_, rfl, ?_, fun off hoff => Dev.rd_set_other _ _ _ _ hoff, rfl⟩, fun hle => ?_⟩
  · rw [hstep, Dev.idle, if_pos hlt]
  · rw [Dev.gtime, Dev.setTime, Dev.get_set_same _ _ _ (by decide), Nat.add_sub_cancel_left]
    rfl
  · rw [hstep, Dev.idle, if_neg (Nat.not_lt.mpr hle)]

/-- Settles O49: nothing is stored at reset, and nothing waits. -/
theorem resetIsSound : Obligations.ResetIsSound := by
  unfold Obligations.ResetIsSound
  exact ⟨rfl, rfl⟩

end Sys2Proof.Proofs
end

section
/-! ## Stored bytes read back (R13, R181, R500) -/

namespace Sys2Proof.Machine

/-- A filtered map reads as before where the filter keeps the key, and its default elsewhere. -/
theorem Tab.get_filter {α : Type} (dflt : Nat → α) (t : Tab α) (k : Nat) (p : Nat → Bool) :
    Tab.get dflt (t.filter fun e => p e.1) k = if p k then Tab.get dflt t k else dflt k := by
  unfold Tab.get
  cases hp : p k with
  | true => rw [Tab.find_filter t k p hp, if_pos rfl]
  | false => rw [Tab.find_filter_none t k p hp, if_neg Bool.false_ne_true]

variable (d : Dev)

/-- A list stored from an address on, read at an address: by the list's recursion, one byte and then the rest. -/
theorem getD_of_stored (a k : Nat) (v : Byte) (l : List Byte) (x : Byte) :
    (if a + 1 ≤ k ∧ k < a + 1 + l.length then l.getD (k - (a + 1)) 0 else if k = a then v else x) =
      if a ≤ k ∧ k < a + (v :: l).length then (v :: l).getD (k - a) 0 else x := by
  rw [List.length_cons]
  by_cases hin : a + 1 ≤ k ∧ k < a + 1 + l.length
  · obtain ⟨m, rfl⟩ := Nat.exists_eq_add_of_le hin.1
    rw [if_pos hin, if_pos (by omega), Nat.add_sub_cancel_left, Nat.add_assoc, Nat.add_sub_cancel_left, Nat.add_comm 1 m,
      List.getD_cons_succ]
  · rw [if_neg hin]
    by_cases hk : k = a
    · rw [if_pos hk, if_pos (by omega), hk, Nat.sub_self, List.getD_cons_zero]
    · rw [if_neg hk, if_neg (by omega)]

theorem Dev.byte_putByte (a k : Nat) (v : Byte) : (d.putByte a v).byte k = if k = a then v else d.byte k := by
  split
  · next h => rw [h, Dev.byte_putByte_same]
  · next h => exact Dev.byte_putByte_other _ _ _ _ h

theorem Dev.hostByte_putHostByte (p a k : Nat) (v : Byte) :
    (d.putHostByte p a v).hostByte p k = if k = a then v else d.hostByte p k := by
  split
  · next h => rw [h, Dev.hostByte_putHostByte_same]
  · next h => by_cases hp : p = 0 <;> simp [Dev.putHostByte, Dev.hostByte, hp, Tab.get_put_other _ _ _ _ _ h]

/-- Bytes stored in local memory read back at their addresses, and nowhere else. -/
theorem Dev.byte_putBytes (a k : Nat) (l : List Byte) :
    (d.putBytes a l).byte k = if a ≤ k ∧ k < a + l.length then l.getD (k - a) 0 else d.byte k := by
  induction l generalizing d a with
  | nil => rw [if_neg (by simp), Dev.putBytes]
  | cons v l ih => rw [Dev.putBytes, ih, Dev.byte_putByte, getD_of_stored]

/-- So do bytes stored in a host's memory. -/
theorem Dev.hostByte_putHostBytes (p a k : Nat) (l : List Byte) :
    (d.putHostBytes p a l).hostByte p k = if a ≤ k ∧ k < a + l.length then l.getD (k - a) 0 else d.hostByte p k := by
  induction l generalizing d a with
  | nil => rw [if_neg (by simp), Dev.putHostBytes]
  | cons v l ih => rw [Dev.putHostBytes, ih, Dev.hostByte_putHostByte, getD_of_stored]

/-- Storing in one host's memory leaves the other's alone. -/
theorem Dev.hostByte_putHostBytes_other (a k : Nat) (l : List Byte) :
    (d.putHostBytes 0 a l).hostByte 1 k = d.hostByte 1 k ∧ (d.putHostBytes 1 a l).hostByte 0 k = d.hostByte 0 k := by
  induction l generalizing d a with
  | nil => exact ⟨rfl, rfl⟩
  | cons v l ih =>
    exact ⟨(ih (d.putHostByte 0 a v) (a + 1)).1, (ih (d.putHostByte 1 a v) (a + 1)).2⟩

/-- A zeroed range reads zero, and every byte outside it as before. -/
theorem Dev.byte_zeroLocal (a n k : Nat) : (d.zeroLocal a n).byte k = if a ≤ k ∧ k < a + n then 0 else d.byte k := by
  refine (Tab.get_filter memDefault d.mem.loc k fun j => !(decide (a ≤ j) && decide (j < a + n))).trans ?_
  by_cases h : a ≤ k ∧ k < a + n
  · rw [if_neg (by simp [h]), if_pos h]
    rfl
  · rw [if_pos (by simp; omega), if_neg h]
    rfl

end Sys2Proof.Machine

namespace Sys2Proof.Proofs

open Sys2Proof.Machine

/-- Settles O51, by induction on the list stored. -/
theorem memoriesReadBackWhatWasStored : Obligations.MemoriesReadBackWhatWasStored := by
  unfold Obligations.MemoriesReadBackWhatWasStored
  exact ⟨Dev.byte_putBytes, Dev.hostByte_putHostBytes, Dev.hostByte_putHostBytes_other, Dev.byte_zeroLocal⟩

end Sys2Proof.Proofs
end

section
/-! ## The governor's interval (R375, R377, R378) -/

namespace Sys2Proof.Machine

/-- What every operation of a fold keeps, the fold keeps. -/
theorem foldl_keeps {α β γ : Type} (keep : β → γ) (f : β → α → β) (hf : ∀ b x, keep (f b x) = keep b) (l : List α) (b : β) :
    keep (l.foldl f b) = keep b := by
  induction l generalizing b with
  | nil => rfl
  | cons x l ih => exact (ih _).trans (hf b x)

/-- The governor's account and the journal, which the holding load leaves alone. -/
def Dev.pwrJnl (d : Dev) : PwrU × Journal := (d.pwr, d.jnl)

theorem Dev.gateIdle_pwrJnl (d : Dev) (a : Nat) : (d.gateIdle a).pwrJnl = d.pwrJnl := by
  unfold Dev.gateIdle
  extract_lets ready
  split <;> rfl

theorem Dev.spreadHold_pwrJnl (d : Dev) (ags : List Nat) (total : Nat) : (d.spreadHold ags total).pwrJnl = d.pwrJnl := by
  refine foldl_keeps Dev.pwrJnl _ (fun d e => ?_) _ _
  exact foldl_keeps Dev.pwrJnl _ (fun d x => d.gateIdle_pwrJnl _) _ _

theorem Dev.setHold_pwrJnl (d : Dev) (hold : Nat) : (d.setHold hold).pwrJnl = d.pwrJnl := by
  unfold Dev.setHold
  dsimp only
  rw [Dev.spreadHold_pwrJnl, Dev.spreadHold_pwrJnl, Dev.spreadHold_pwrJnl]

theorem Dev.showEff_pwrJnl (d : Dev) (eff : Nat) : (d.showEff eff).pwrJnl = ({ d.pwr with eff := eff }, d.jnl) := rfl

/-- The account after an interval, but for what later intervals alone read; the shortfall noted changes registers alone. -/
theorem Dev.govern_account (d : Dev) (raw : Nat) (hsite : d.flag PWR_THAW_CFG.site_en = false) :
    let want := raw * d.pwr.gainNow / 65536
    let upper := min (d.effNext (d.get PWR_SLEW_DN.slew)) (d.pwr.draw + d.get PWR_SLEW_UP.slew)
    let work := min want upper
    let floor := if d.get PWR_STATUS.mode = 0 then
      max (d.pwr.draw - d.get PWR_SLEW_DN.slew) (1000000 * d.get PWR_TARGET.prethaw_w) else 0
    let hold := min (min floor upper - work) (1000000 * d.get PWR_FROST.hold_max_w)
    (d.govern raw).pwr.draw = work + hold ∧ (d.govern raw).pwr.hold = hold ∧ (d.govern raw).pwr.want = want ∧
      (d.govern raw).jnl = d.jnl := by
  intro want upper work floor hold
  have hgov : ∃ u : PwrU, (d.govern raw).pwrJnl = (u, d.jnl) ∧ u.draw = work + hold ∧ u.hold = hold ∧ u.want = want := by
    unfold Dev.govern
    rw [hsite]
    extract_lets u _ _ eff _ _ _ _ _ _ _ _ _ _ _ _ _ _ lost _ _ short d₁ d₂
    have hnote : d₂.pwrJnl = d₁.pwrJnl := by
      unfold d₂
      split
      · rfl
      · rfl
    refine ⟨{ d₁.pwr with eff := eff }, ?_, rfl, rfl, rfl⟩
    rw [Dev.setHold_pwrJnl, Dev.showEff_pwrJnl, (Prod.mk.inj hnote).1, (Prod.mk.inj hnote).2]
    rfl
  obtain ⟨u, hpair, hdraw, hhold, hwant⟩ := hgov
  obtain ⟨hpwr, hjnl⟩ := Prod.mk.inj hpair
  rw [hpwr]
  exact ⟨hdraw, hhold, hwant, hjnl⟩

end Sys2Proof.Machine

namespace Sys2Proof.Proofs

open Sys2Proof.Machine

/-- Settles O36: past the account itself an interval changes registers and the holding load of the AGs alone. -/
theorem governorIntervalSetsTheDraw : Obligations.GovernorIntervalSetsTheDraw := by
  unfold Obligations.GovernorIntervalSetsTheDraw
  rintro raw s want upper work floor hold hsite rfl rfl rfl rfl rfl
  obtain ⟨hdraw, hhold, hwant, hjnl⟩ := s.dev.govern_account raw.toNat hsite
  exact ⟨s.dev.govern raw.toNat, rfl, hdraw, hhold, hwant, Dev.govern_mem .., hjnl⟩

end Sys2Proof.Proofs
end

section
/-! ## Commands at the front of a ring (chapter 19): NOP, FENCE, QUERY, TELEMETRY, COPY and FILL -/

namespace Sys2Proof.Machine

open Sys2Proof.Claims

/-- A command that is a function of the device answers what that function makes of it. -/
theorem onDev_answers {s : State} {f : Dev → Dev} {e : Dev} (he : f s.dev = e) : onDev s f = .next { s with dev := e } := by
  rw [← he, onDev_eq]

/-- The parts of `atFront`. -/
theorem atFront_iff {d : Dev} {r op : Nat} {c : Cmd} : atFront d r op c = true ↔
    (d.ringU r).fetched.head? = some c ∧ d.ringStarts r = true ∧ c.op = op ∧ d.preCheck c = none := by
  simp only [atFront, Bool.and_eq_true, beq_iff_eq, Option.isNone_iff_eq_none, and_assoc]

/-- The command at the front of a ring that may start it runs; entries with a reserved opcode behind it complete. -/
theorem Dev.hostCmd_of_front {d : Dev} {r op : Nat} {c : Cmd} (h : atFront d r op c = true) (run : Dev → Cmd → Dev) :
    d.hostCmd r op run = (run d c).flushBad r 64 := by
  obtain ⟨hfront, hstarts, hop, hpre⟩ := atFront_iff.mp h
  obtain ⟨rest, hfetched⟩ := List.head?_eq_some_iff.mp hfront
  unfold Dev.hostCmd
  rw [hfetched]
  simp only [hstarts, hop, hpre, BEq.rfl, Bool.and_self, if_true]

theorem op_of_front {d : Dev} {r op : Nat} {c : Cmd} (h : atFront d r op c = true) : c.op = op := (atFront_iff.mp h).2.2.1

/-- A FENCE with nothing started completes. -/
theorem Dev.fenceCmd_of_idle {d : Dev} {c : Cmd} (h : (d.ringU c.ring).started = []) : d.fenceCmd c = d.complete c stOk 0 := by
  rw [Dev.fenceCmd, h]
  rfl

/-- TELEMETRY of a context ring, its destination in reach, writes its block and completes. -/
theorem Dev.telemetryCmd_of_reach {d : Dev} {c : Cmd} {l : List Byte} (hctx : c.isAdmin = false)
    (hl : l = d.telemetryBytes (c.num 8 1) c.bay) (hrows : d.rowsOk c.bay (c.num 16 8) 0 l.length 1 = true) :
    d.telemetryCmd c = (d.putBayBytes c.bay (c.num 16 8) l).complete c stOk d.snapTick := by
  rw [Dev.telemetryCmd, ← hl]
  simp only [hctx, hrows, Bool.false_eq_true, if_false, if_true]

/-- A copy within the bay, in reach and not resident, starts and moves its bytes. -/
theorem Dev.copyCmd_of_local {d : Dev} {c : Cmd} {op : Nat} (hsrc : (c.copyDesc op).remSrc = false)
    (hdst : (c.copyDesc op).remDst = false)
    (hread : op = 1 ∨ d.rowsOk c.bay (c.copyDesc op).src 0 (c.copyDesc op).rowBytes 1 = true)
    (hwrite : d.rowsOk c.bay (c.copyDesc op).dst 0 (c.copyDesc op).rowBytes 1 = true) (hres : d.isResidentCmd c = false) :
    d.copyCmd c op = (d.startCmd c).copyMove c (c.copyDesc op) := by
  have hread' : (op == 1 || d.rowsOk c.bay (c.copyDesc op).src 0 (c.copyDesc op).rowBytes 1) = true := by
    rcases hread with rfl | h
    · rfl
    · rw [h, Bool.or_true]
  unfold Dev.copyCmd
  simp only [hsrc, hdst, hres, hwrite, Bool.false_or, hread', Bool.and_self, Bool.not_true, Bool.false_and, Bool.and_false,
    Bool.false_eq_true, if_false]

theorem Dev.copyMove_copy {d : Dev} {c : Cmd} (hsrc : (c.copyDesc 0).remSrc = false) (hdst : (c.copyDesc 0).remDst = false) :
    d.copyMove c (c.copyDesc 0) = (d.copyLocal c.bay (c.copyDesc 0)).complete c stOk 0 := by
  unfold Dev.copyMove
  simp only [hsrc, hdst, Bool.false_eq_true, if_false]
  rfl

theorem Dev.copyMove_fill {d : Dev} {c : Cmd} (hsrc : (c.copyDesc 1).remSrc = false) (hdst : (c.copyDesc 1).remDst = false) :
    d.copyMove c (c.copyDesc 1) =
      (d.putBayBytes c.bay (c.copyDesc 1).dst (patternBytes (c.num 32 8) 8 (c.copyDesc 1).rowBytes)).complete c stOk 0 := by
  unfold Dev.copyMove
  simp only [hsrc, hdst, Bool.false_eq_true, if_false]
  rfl

/-! ### What a completion leaves alone, and what a move within the bay changes -/

/-- The local bytes and the units that a COPY or FILL within the bay leaves alone. -/
def Dev.units (d : Dev) : Tab ArrayU × Tab VecU × Tab DmaU × Tab AgU × Tab BayU × Tab CtxU × Joints × FabU × Journal :=
  (d.arr, d.vec, d.dma, d.ag, d.bay, d.ctx, d.jt, d.fab, d.jnl)

/-- Local memory and the units together, which a completion leaves alone: it changes its ring, registers and a host's memory. -/
def Dev.inner (d : Dev) := (d.mem.loc, d.units)

section
variable (d : Dev)

theorem Dev.inner_putHostBytes (p a : Nat) (l : List Byte) : (d.putHostBytes p a l).inner = d.inner := by
  induction l generalizing d a with
  | nil => rfl
  | cons v l ih =>
    rw [Dev.putHostBytes, ih, Dev.putHostByte]
    split <;> rfl

theorem Dev.inner_sets (l : List (RF × Nat)) : (d.sets l).inner = d.inner := by
  obtain ⟨r, h⟩ := d.sets_frame l
  rw [h]
  rfl

theorem Dev.inner_set (f : RF) (n : Nat) : (d.set f n).inner = d.inner := rfl

theorem Dev.inner_putRing (r : Nat) (u : RingU) : (d.putRing r u).inner = d.inner := rfl

theorem Dev.inner_writeCpl (r : Nat) (c : Cpl) : (d.writeCpl r c).inner = d.inner := by
  unfold Dev.writeCpl
  extract_lets tail addr phase d₁ d₂ u d₃
  have h₁ : d₁.inner = d.inner := d.inner_putHostBytes _ _ _
  clear_value d₁
  have h₂ : d₂.inner = d.inner := by
    unfold d₂
    split
    · exact h₁
    · exact h₁
  clear_value d₂
  split
  · exact d.inner_sets _
  · split
    · exact h₂
    · exact h₂

theorem Dev.inner_post (r : Nat) (c : Cpl) : (d.post r c).inner = d.inner := by
  unfold Dev.post
  dsimp only
  split
  · rfl
  · split
    · exact d.inner_writeCpl r c
    · rfl

theorem Dev.inner_drainRing (r : Nat) : (d.drainRing r).inner = d.inner := by
  unfold Dev.drainRing
  split <;> rfl

theorem Dev.inner_complete (c : Cmd) (status result : Nat) : (d.complete c status result).inner = d.inner := by
  unfold Dev.complete
  dsimp only
  split
  · rfl
  · split
    · rw [Dev.showRing, Dev.inner_sets, Dev.inner_drainRing, Dev.inner_post, Dev.inner_putRing]
    · rfl

theorem Dev.inner_flushBad (r n : Nat) : (d.flushBad r n).inner = d.inner := by
  induction n generalizing d with
  | zero => rfl
  | succ n ih =>
    unfold Dev.flushBad
    split
    · split
      · rw [ih, Dev.inner_complete]
      · rfl
    · rfl

/-- Translation reads registers and the bay's unit alone. -/
theorem Dev.xlate_congr {d e : Dev} (hregs : e.regs = d.regs) (hbay : e.bay = d.bay) (b va : Nat) : e.xlate b va = d.xlate b va := by
  cases d
  cases e
  cases hregs
  cases hbay
  rfl

theorem Dev.wrLoc_mem_only (l : Loc) (v : Byte) : ∃ m, d.wrLoc l v = { d with mem := m } := by
  cases l with
  | loc a => exact ⟨_, rfl⟩
  | host p a =>
    unfold Dev.wrLoc Dev.putHostByte
    dsimp only
    split
    · exact ⟨_, rfl⟩
    · exact ⟨_, rfl⟩

theorem Dev.putBayByte_mem_only (b va : Nat) (v : Byte) : ∃ m, d.putBayByte b va v = { d with mem := m } := by
  unfold Dev.putBayByte
  split
  · exact d.wrLoc_mem_only _ _
  · exact ⟨d.mem, rfl⟩

/-- A byte stored in the bay changes only the local byte that its address translates to. -/
theorem Dev.byte_putBayByte {b va a : Nat} (v : Byte) (h : d.xlate b va ≠ some (.loc a)) : (d.putBayByte b va v).byte a = d.byte a := by
  unfold Dev.putBayByte
  cases hx : d.xlate b va with
  | none => rfl
  | some l =>
    cases l with
    | loc k => exact Dev.byte_putByte_other _ _ _ _ fun hk => h (by rw [hx, hk])
    | host p k =>
      dsimp only [Dev.wrLoc, Dev.putHostByte]
      split <;> rfl

/-- So do bytes stored from an address on. -/
theorem Dev.byte_putBayBytes {b va a : Nat} {l : List Byte} (h : ∀ i < l.length, d.xlate b (va + i) ≠ some (.loc a)) :
    (d.putBayBytes b va l).byte a = d.byte a := by
  induction l generalizing d va with
  | nil => rfl
  | cons v l ih =>
    obtain ⟨m, hm⟩ := d.putBayByte_mem_only b va v
    rw [Dev.putBayBytes, ih, d.byte_putBayByte v (by simpa using h 0 (Nat.succ_pos _))]
    intro i hi
    rw [Dev.xlate_congr (d := d) (by rw [hm]) (by rw [hm]), Nat.add_assoc, Nat.add_comm 1 i]
    exact h (i + 1) (Nat.succ_lt_succ hi)

theorem Dev.units_putBayBytes (b va : Nat) (l : List Byte) : (d.putBayBytes b va l).units = d.units := by
  induction l generalizing d va with
  | nil => rfl
  | cons v l ih =>
    obtain ⟨m, hm⟩ := d.putBayByte_mem_only b va v
    rw [Dev.putBayBytes, ih, hm]
    rfl

end

theorem patternBytes_length (pattern w n : Nat) : (patternBytes pattern w n).length = n := by
  simp [patternBytes]

/-- A local copy of one row is one store of as many bytes as the row holds. -/
theorem Dev.copyLocal_one (d : Dev) (b : Nat) {q : DmaDesc} (hrows : q.rows = 1) :
    ∃ l : List Byte, l.length = q.rowBytes ∧ d.copyLocal b q = d.fresh.2.putBayBytes b q.dst l := by
  unfold Dev.copyLocal
  simp only [hrows, List.range_one, List.map_cons, List.map_nil, List.zipIdx_cons, List.zipIdx_nil, List.foldl_cons, List.foldl_nil]
  refine ⟨_, ?_, by rw [Dev.copyRow, Nat.zero_mul, Nat.add_zero]⟩
  simp [Dev.bayBytes]

end Sys2Proof.Machine

namespace Sys2Proof.Proofs

open Sys2Proof.Machine Sys2Proof.Claims

/-- Settles O8: each of the four is the front command of its ring, run. -/
theorem plainHostCommandsComplete : Obligations.PlainHostCommandsComplete := by
  unfold Obligations.PlainHostCommandsComplete
  refine ⟨fun r c s h => ?_, fun r c s h hidle => ?_, fun r c s h => ?_, fun r c s l h hctx hl hrows => ?_⟩
  · show execNop r s = _
    exact onDev_answers (Dev.hostCmd_of_front h _)
  · show execFence r s = _
    refine onDev_answers ?_
    rw [Dev.hostCmd_of_front h, Dev.fenceCmd_of_idle hidle]
  · show execQuery r s = _
    exact onDev_answers (Dev.hostCmd_of_front h _)
  · show execTelemetry r s = _
    refine onDev_answers ?_
    rw [Dev.hostCmd_of_front h, Dev.telemetryCmd_of_reach hctx hl hrows]

/-- Settles O9: a COPY or FILL in the bay and not resident is its start, its move and its completion. -/
theorem copyAndFillMoveBytes : Obligations.CopyAndFillMoveBytes := by
  unfold Obligations.CopyAndFillMoveBytes
  refine ⟨?_, ?_⟩
  · rintro r c s q h rfl hsrc hdst hread hwrite hres
    show execCopy r s = _
    refine onDev_answers ?_
    rw [Dev.hostCmd_of_front h, Dev.copyCmd_of_local hsrc hdst (.inr hread) hwrite hres, Dev.copyMove_copy hsrc hdst]
  · rintro r c s q h rfl hsrc hdst hwrite hres
    show execFill r s = _
    refine onDev_answers ?_
    rw [Dev.hostCmd_of_front h, Dev.copyCmd_of_local hsrc hdst (.inl rfl) hwrite hres, Dev.copyMove_fill hsrc hdst]

/-- Settles O52: a COPY or FILL in the bay is one store at its destination, between the ring's records. -/
theorem copyAndFillLeaveOtherBytes : Obligations.CopyAndFillLeaveOtherBytes := by
  unfold Obligations.CopyAndFillLeaveOtherBytes
  rintro r c s op a q hop h rfl hsrc hdst hread hwrite hres hclear
  have hmove : ∃ l : List Byte, ∃ f : Clock, l.length = (c.copyDesc (op - 4)).rowBytes ∧ Answers (if op = 4 then .copy r else .fill r) s
      (((({ s.dev.startCmd c with clk := f } : Dev).putBayBytes c.bay (c.copyDesc (op - 4)).dst l).complete c stOk 0).flushBad r.val 64) := by
    rcases hop with rfl | rfl
    · obtain ⟨l, hl, hcopy⟩ := (s.dev.startCmd c).copyLocal_one c.bay (q := c.copyDesc 0) rfl
      refine ⟨l, (s.dev.startCmd c).fresh.2.clk, hl, ?_⟩
      have hans := copyAndFillMoveBytes.1 r c s _ h rfl hsrc hdst (hread rfl) hwrite hres
      rw [hcopy] at hans
      exact hans
    · exact ⟨_, s.dev.clk, patternBytes_length _ _ _, copyAndFillMoveBytes.2 r c s _ h rfl hsrc hdst hwrite hres⟩
  obtain ⟨l, f, hl, hans⟩ := hmove
  set moved := ({ s.dev.startCmd c with clk := f } : Dev).putBayBytes c.bay (c.copyDesc (op - 4)).dst l with hmoved
  have hbyte : moved.byte a = s.dev.byte a := Dev.byte_putBayBytes _ fun i hi =>
    ne_of_eq_of_ne (Dev.xlate_congr (d := s.dev) rfl rfl _ _) (hclear i (hl ▸ hi))
  have hunits : moved.units = s.dev.units := Dev.units_putBayBytes _ _ _ _
  refine ⟨_, hans, ?_⟩
  have hinner := (Dev.inner_flushBad (moved.complete c stOk 0) r.val 64).trans (moved.inner_complete c stOk 0)
  generalize (moved.complete c stOk 0).flushBad r.val 64 = e at hinner
  obtain ⟨hloc, hrest⟩ := Prod.mk.inj hinner
  rw [hunits] at hrest
  simp only [Dev.units, Prod.mk.injEq] at hrest
  obtain ⟨harr, hvec, hdma, hag, hbay, hctx, hjt, hfab, hjnl⟩ := hrest
  exact ⟨(congrArg (Tab.get memDefault · a) hloc).trans hbyte, harr, hvec, hdma, hag, hbay, hctx, hjt, hfab, hjnl⟩

end Sys2Proof.Proofs
end

section
/-! # O18 to O22: the vector instructions at the slice's program counter

Every vector command is `Dev.vecRun` of its op and of its effect; `VecExec` says so, and `VecExec.runs` gives the claim's
form of it. -/

namespace Sys2Proof.Machine

theorem Dev.vecRun_of_next {d : Dev} {x b : Nat} {w : VWord} (next : d.vecNext x = some (b, w)) (stall : Nat)
    (sem : Dev → Nat → VWord → Dev) :
    d.vecRun x w.op stall sem = sem (d.incWrap (AG_VEC_PERF.stall_cycles (x / 6) (x % 6)) stall) b w := by
  simp [Dev.vecRun, next]

theorem Dev.gated_run {d : Dev} {b : Nat} {w : VWord} (h : d.storeGate b w = .run) (x : Nat) (k : Dev → Dev) :
    d.gated x b w k = (k d).nextPc x := by
  simp [Dev.gated, h]

theorem Dev.gated_skip {d : Dev} {b : Nat} {w : VWord} (h : d.storeGate b w = .skip) (x : Nat) (k : Dev → Dev) :
    d.gated x b w k = d.nextPc x := by
  simp [Dev.gated, h]

end Sys2Proof.Machine

namespace Sys2Proof.Proofs
open Sys2Proof.Machine Sys2Proof.Claims

/-- The command `c` runs `sem` when the slice's next instruction has the op (R145, R146). -/
def VecExec (c : SliceId → Nat → Instr) (op : Nat) (sem : Dev → Nat → Nat → VWord → Dev) : Prop :=
  ∀ (x : SliceId) (stall : Nat) (s : State),
    exec (c x stall) s = onDev s fun d => d.vecRun x.val op stall fun d b w => sem d x.val b w

theorem VecExec.answers {c : SliceId → Nat → Instr} {op : Nat} {sem : Dev → Nat → Nat → VWord → Dev} (h : VecExec c op sem)
    {x : SliceId} {stall : Nat} {s : State} {b : Nat} {w : VWord} (next : s.dev.vecNext x.val = some (b, w)) (hop : w.op = op)
    {e : Dev} (he : sem (s.dev.incWrap (AG_VEC_PERF.stall_cycles (x.val / 6) (x.val % 6)) stall) x.val b w = e) :
    Answers (c x stall) s e := by
  subst hop
  refine (h x stall s).trans (onDev_answers ?_)
  rw [Dev.vecRun_of_next next, he]

theorem VecExec.runs {c : SliceId → Nat → Instr} {op : Nat} {sem : Dev → Nat → Nat → VWord → Dev} (h : VecExec c op sem) :
    VecRuns c op sem :=
  fun _ _ _ _ _ next hop => h.answers next hop rfl

/-- Settles O18: each command is `vecRun` of its op and its effect. -/
theorem vectorArithmeticRuns : Obligations.VectorArithmeticRuns := by
  refine ⟨?_, ?_, ?_, ?_, ?_, ?_, ?_, ?_, ?_, ?_, ?_, ?_, ?_, ?_, ?_⟩ <;> exact VecExec.runs fun _ _ _ => rfl

/-- Settles O19: each command is `vecRun` of its op and its effect. -/
theorem vectorLogicPredicatesAndFunctionsRun : Obligations.VectorLogicPredicatesAndFunctionsRun := by
  refine ⟨?_, ?_, ?_, ?_, ?_, ?_, ?_, ?_, ?_, ?_, ?_, ?_, ?_, ?_, ?_, ?_, ?_⟩ <;> exact VecExec.runs fun _ _ _ => rfl

/-- Settles O20: each command is `vecRun` of its op and its effect. -/
theorem vectorConversionsMovesAndLoadsRun : Obligations.VectorConversionsMovesAndLoadsRun := by
  refine ⟨?_, ?_, ?_, ?_, ?_, ?_, ?_, ?_, ?_, ?_, ?_, ?_, ?_, ?_⟩ <;> exact VecExec.runs fun _ _ _ => rfl

theorem vecExec_vst : VecExec .vVst 0x41 vVstOp := fun _ _ _ => rfl
theorem vecExec_vstc : VecExec .vVstc 0x43 vVstcOp := fun _ _ _ => rfl
theorem vecExec_vstb : VecExec .vVstb 0x44 vVstbOp := fun _ _ _ => rfl
theorem vecExec_scat : VecExec .vScat 0x46 vScatOp := fun _ _ _ => rfl
theorem vecExec_scta : VecExec .vScta 0x47 vSctaOp := fun _ _ _ => rfl
theorem vecExec_vrecv : VecExec .vVrecv 0x48 vVrecvOp := fun _ _ _ => rfl
theorem vecExec_wait : VecExec .vWait 0x5C vWaitOp := fun _ _ _ => rfl

/-- Settles O21: with the gate open each store is its effect followed by `nextPc`, behind a skipping gate `nextPc` alone. -/
theorem vectorStoresRun : Obligations.VectorStoresRun := by
  refine ⟨?_, ?_, ?_, ?_, ?_, ?_, ?_⟩
  · rintro x stall s b w _ _ next hop rfl run rfl
    exact vecExec_vst.answers next hop (Dev.gated_run run ..)
  · rintro x stall s b w _ _ _ _ _ _ next hop rfl run rfl rfl rfl rfl rfl
    exact vecExec_vstc.answers next hop (Dev.gated_run run ..)
  · rintro x stall s b w _ _ _ _ _ _ _ _ next hop rfl run rfl rfl rfl rfl rfl rfl rfl
    exact vecExec_vstb.answers next hop (Dev.gated_run run ..)
  · rintro x stall s b w _ _ _ _ next hop rfl run rfl rfl rfl
    exact vecExec_scat.answers next hop (Dev.gated_run run ..)
  · rintro x stall s b w _ _ _ _ _ next hop rfl run rfl rfl rfl rfl
    exact vecExec_scta.answers next hop (Dev.gated_run run ..)
  · rintro x stall s b w _ q rest _ next hop rfl hq rfl
    exact vecExec_vrecv.answers next hop (by simp only [vVrecvOp, hq])
  · intro x stall s b w c op hc next hop skip
    simp only [List.mem_cons, Prod.mk.injEq, List.not_mem_nil, or_false] at hc
    obtain ⟨rfl, rfl⟩ | ⟨rfl, rfl⟩ | ⟨rfl, rfl⟩ | ⟨rfl, rfl⟩ | ⟨rfl, rfl⟩ := hc
    · exact vecExec_vst.answers next hop (Dev.gated_skip skip ..)
    · exact vecExec_vstc.answers next hop (Dev.gated_skip skip ..)
    · exact vecExec_vstb.answers next hop (Dev.gated_skip skip ..)
    · exact vecExec_scat.answers next hop (Dev.gated_skip skip ..)
    · exact vecExec_scta.answers next hop (Dev.gated_skip skip ..)

/-- Settles O22: each command is `vecRun` of its op and its effect; WAIT takes the branch of a reached threshold. -/
theorem vectorScalarAndControlRun : Obligations.VectorScalarAndControlRun := by
  refine ⟨?_, ?_, ?_, ?_, ?_, ?_, ?_, ?_, ?_, ?_, ?_, ?_, ?_, ?_, ?_⟩
  case refine_11 =>
    rintro x stall s b w _ next hop rfl reached
    exact vecExec_wait.answers next hop (if_pos reached)
  case refine_15 =>
    intro x s p copying
    show execProgramCopyDone x s = _
    exact onDev_answers (by simp only [Dev.programCopyDone, copying])
  all_goals exact VecExec.runs fun _ _ _ => rfl

end Sys2Proof.Proofs
end

section
/-! # O53: the vector register instructions leave the rest

`SliceOnly x d e` says that `e` differs from `d` at most in the register space, the clock record and slice `x`. It holds of
every update that the register instructions are built of. -/

namespace Sys2Proof.Machine

theorem Dev.foldl_sets_eq (l : List (RF × Nat)) (d : Dev) : d.sets l = { d with regs := (d.sets l).regs } := by
  induction l generalizing d with
  | nil => rfl
  | cons p l ih => exact (ih (d.set p.1 p.2)).trans rfl

/-- `e` differs from `d` at most in the register space, the clock record and slice `x`. -/
def SliceOnly (x : Nat) (d e : Dev) : Prop :=
  e = { d with regs := e.regs, clk := e.clk, vec := e.vec } ∧ ∀ y, y ≠ x → e.vecU y = d.vecU y

variable {x : Nat} {d e f : Dev}

theorem SliceOnly.refl (x : Nat) (d : Dev) : SliceOnly x d d := ⟨rfl, fun _ _ => rfl⟩

theorem SliceOnly.trans (h : SliceOnly x d e) (k : SliceOnly x e f) : SliceOnly x d f := by
  obtain ⟨hde, hvec⟩ := h
  obtain ⟨hef, kvec⟩ := k
  refine ⟨?_, fun y hy => (kvec y hy).trans (hvec y hy)⟩
  rw [hde] at hef
  exact hef

theorem sliceOnly_sets (x : Nat) (d : Dev) (l : List (RF × Nat)) : SliceOnly x d (d.sets l) := by
  have h := Dev.foldl_sets_eq l d
  refine ⟨by rw [h], fun y _ => by rw [h]; rfl⟩

theorem sliceOnly_set (x : Nat) (d : Dev) (f : RF) (n : Nat) : SliceOnly x d (d.set f n) := sliceOnly_sets x d [(f, n)]

theorem sliceOnly_incWrap (x : Nat) (d : Dev) (f : RF) (n : Nat) : SliceOnly x d (d.incWrap f n) := sliceOnly_set ..

theorem sliceOnly_incSat (x : Nat) (d : Dev) (f : RF) (n : Nat) : SliceOnly x d (d.incSat f n) := sliceOnly_set ..

theorem sliceOnly_putVec (x : Nat) (d : Dev) (u : VecU) : SliceOnly x d (d.putVec x u) :=
  ⟨rfl, fun _ hy => Tab.get_put_other _ _ _ _ _ hy⟩

theorem sliceOnly_showVec (x : Nat) (d : Dev) (state waitOn : Nat) : SliceOnly x d (d.showVec x state waitOn) := sliceOnly_sets ..

theorem sliceOnly_nextPc (x : Nat) (d : Dev) : SliceOnly x d (d.nextPc x) :=
  (sliceOnly_putVec ..).trans (sliceOnly_showVec ..)

theorem sliceOnly_vecCalc (x : Nat) (d : Dev) (b : Nat) (r : VecU × FFlags) : SliceOnly x d (d.vecCalc x b r) :=
  ((sliceOnly_putVec x d r.1).trans (sliceOnly_set ..)).trans (sliceOnly_nextPc ..)

theorem sliceOnly_vecMap (x : Nat) (d : Dev) (b : Nat) (w : VWord) (f : Fmt) (g : VecU → Nat → Nat × FFlags) :
    SliceOnly x d (d.vecMap x b w f g) := sliceOnly_vecCalc ..

theorem sliceOnly_vecBin (x : Nat) (d : Dev) (b : Nat) (w : VWord) (ff : RMode → Val → Val → Val × FFlags)
    (fi : Int → Int → Int) : SliceOnly x d (d.vecBin x b w ff fi) := by
  unfold Dev.vecBin
  exact sliceOnly_vecMap ..

theorem sliceOnly_countOut (x : Nat) (d : Dev) (n : Nat) : SliceOnly x d (d.countOut x n) := by
  unfold Dev.countOut
  split
  · exact .refl x d
  · exact (sliceOnly_incSat ..).trans (sliceOnly_set ..)

theorem sliceOnly_countGather (x : Nat) (d : Dev) (n : Nat) : SliceOnly x d (d.countGather x n) := by
  unfold Dev.countGather
  split
  · exact .refl x d
  · exact (sliceOnly_incSat ..).trans (sliceOnly_set ..)

theorem sliceOnly_vecScalar (x : Nat) (d : Dev) (w : VWord) (v : Nat) : SliceOnly x d (d.vecScalar x w v) :=
  (sliceOnly_putVec ..).trans (sliceOnly_nextPc ..)

theorem sliceOnly_vecBranch (x : Nat) (d : Dev) (w : VWord) (taken : Bool) : SliceOnly x d (d.vecBranch x w taken) := by
  unfold Dev.vecBranch
  split
  · exact (sliceOnly_putVec ..).trans (sliceOnly_showVec ..)
  · exact sliceOnly_nextPc ..

theorem sliceOnly_vVldOp (x : Nat) (d : Dev) (b : Nat) (w : VWord) : SliceOnly x d (vVldOp d x b w) :=
  (sliceOnly_countOut ..).trans (sliceOnly_vecCalc ..)

theorem sliceOnly_vVldcOp (x : Nat) (d : Dev) (b : Nat) (w : VWord) : SliceOnly x d (vVldcOp d x b w) :=
  (sliceOnly_countOut ..).trans (sliceOnly_vecCalc ..)

theorem sliceOnly_vGathOp (x : Nat) (d : Dev) (b : Nat) (w : VWord) : SliceOnly x d (vGathOp d x b w) :=
  (sliceOnly_countGather ..).trans (sliceOnly_vecCalc ..)

theorem sliceOnly_vVrecvOp (x : Nat) (d : Dev) (b : Nat) (w : VWord) : SliceOnly x d (vVrecvOp d x b w) := by
  simp only [vVrecvOp]
  split
  · exact sliceOnly_showVec ..
  · exact sliceOnly_vecCalc ..

theorem sliceOnly_vWaitOp (x : Nat) (d : Dev) (b : Nat) (w : VWord) : SliceOnly x d (vWaitOp d x b w) := by
  unfold vWaitOp
  split
  · exact sliceOnly_nextPc ..
  · exact sliceOnly_showVec ..

theorem sliceOnly_vEndOp (x : Nat) (d : Dev) (b : Nat) (w : VWord) : SliceOnly x d (vEndOp d x b w) :=
  (sliceOnly_putVec ..).trans (sliceOnly_showVec ..)

theorem SliceOnly.vecRun {sem : Dev → Nat → VWord → Dev} (h : ∀ d b w, SliceOnly x d (sem d b w)) (d : Dev) (op stall : Nat) :
    SliceOnly x d (d.vecRun x op stall sem) := by
  unfold Dev.vecRun
  split
  · split
    · exact (sliceOnly_incWrap ..).trans (h ..)
    · exact .refl x d
  · exact .refl x d

end Sys2Proof.Machine

namespace Sys2Proof.Proofs
open Sys2Proof.Machine Sys2Proof.Claims

theorem VecExec.frame {c : SliceId → Nat → Instr} {op : Nat} {sem : Dev → Nat → Nat → VWord → Dev} (h : VecExec c op sem)
    (hsem : ∀ x d b w, SliceOnly x d (sem d x b w)) : VecFrame c := by
  intro x stall s e he
  have hrun := (h x stall s).symm.trans he
  rw [onDev, Host.Outcome.next.injEq, State.mk.injEq] at hrun
  rw [← hrun.1]
  exact SliceOnly.vecRun (fun _ _ _ => hsem ..) ..

/-- An instruction of which `SliceOnly` is known. -/
theorem vecFrame_of {c : SliceId → Nat → Instr} (op : Nat) (sem : Dev → Nat → Nat → VWord → Dev)
    (hsem : ∀ x d b w, SliceOnly x d (sem d x b w)) (h : VecExec c op sem := by exact fun _ _ _ => rfl) : VecFrame c :=
  h.frame hsem

/-- Settles O53: each of the instructions ends in `vecCalc`, `vecScalar` or an update of its own slice, so that `SliceOnly`
holds of its effect. -/
theorem vectorRegisterInstructionsLeaveTheRest : Obligations.VectorRegisterInstructionsLeaveTheRest :=
  ⟨vecFrame_of 0x00 vNop (fun _ _ _ _ => sliceOnly_nextPc ..),
   vecFrame_of 0x01 vAdd (by simp only [vAdd, sliceOnly_vecBin, implies_true]),
   vecFrame_of 0x02 vSub (by simp only [vSub, sliceOnly_vecBin, implies_true]),
   vecFrame_of 0x03 vMul (by simp only [vMul, sliceOnly_vecBin, implies_true]),
   vecFrame_of 0x04 (fun d x b w => d.vecFma x b w false) (by simp only [Dev.vecFma, sliceOnly_vecMap, implies_true]),
   vecFrame_of 0x05 (fun d x b w => d.vecFma x b w true) (by simp only [Dev.vecFma, sliceOnly_vecMap, implies_true]),
   vecFrame_of 0x06 vDiv (by simp only [vDiv, sliceOnly_vecBin, implies_true]),
   vecFrame_of 0x07 vSqrtOp (by simp only [vSqrtOp, sliceOnly_vecMap, implies_true]),
   vecFrame_of 0x08 (vMinMax false) (by simp only [vMinMax, sliceOnly_vecBin, implies_true]),
   vecFrame_of 0x09 (vMinMax true) (by simp only [vMinMax, sliceOnly_vecBin, implies_true]),
   vecFrame_of 0x0A (vMinMaxNum false) (by simp only [vMinMaxNum, sliceOnly_vecBin, implies_true]),
   vecFrame_of 0x0B (vMinMaxNum true) (by simp only [vMinMaxNum, sliceOnly_vecBin, implies_true]),
   vecFrame_of 0x0C (vSign false) (by simp only [vSign, sliceOnly_vecMap, implies_true]),
   vecFrame_of 0x0D (vSign true) (by simp only [vSign, sliceOnly_vecMap, implies_true]),
   vecFrame_of 0x0E vRintOp (by simp only [vRintOp, sliceOnly_vecMap, implies_true]),
   vecFrame_of 0x10 (vLogic (· &&& ·)) (by simp only [vLogic, sliceOnly_vecMap, implies_true]),
   vecFrame_of 0x11 (vLogic (· ||| ·)) (by simp only [vLogic, sliceOnly_vecMap, implies_true]),
   vecFrame_of 0x12 (vLogic (· ^^^ ·)) (by simp only [vLogic, sliceOnly_vecMap, implies_true]),
   vecFrame_of 0x13 (vShift fun p n => p <<< n % 2 ^ 32) (by simp only [vShift, sliceOnly_vecMap, implies_true]),
   vecFrame_of 0x14 (vShift fun p n => wrapInt 32 (signedOf 32 p / 2 ^ n)) (by simp only [vShift, sliceOnly_vecMap, implies_true]),
   vecFrame_of 0x15 (vShift fun p n => p >>> n) (by simp only [vShift, sliceOnly_vecMap, implies_true]),
   vecFrame_of 0x18 vCmpOp (by simp only [vCmpOp, sliceOnly_vecCalc, implies_true]),
   vecFrame_of 0x19 vSelOp (by simp only [vSelOp, sliceOnly_vecCalc, implies_true]),
   vecFrame_of 0x1A vPsetOp (by simp only [vPsetOp, sliceOnly_vecCalc, implies_true]),
   vecFrame_of 0x1B vPlogOp (by simp only [vPlogOp, sliceOnly_vecCalc, implies_true]),
   vecFrame_of 0x20 (vFunc 0) (by simp only [vFunc, sliceOnly_vecMap, implies_true]),
   vecFrame_of 0x21 (vFunc 1) (by simp only [vFunc, sliceOnly_vecMap, implies_true]),
   vecFrame_of 0x22 (vFunc 2) (by simp only [vFunc, sliceOnly_vecMap, implies_true]),
   vecFrame_of 0x23 (vFunc 3) (by simp only [vFunc, sliceOnly_vecMap, implies_true]),
   vecFrame_of 0x24 (vFunc 4) (by simp only [vFunc, sliceOnly_vecMap, implies_true]),
   vecFrame_of 0x25 (vFunc 5) (by simp only [vFunc, sliceOnly_vecMap, implies_true]),
   vecFrame_of 0x26 (vFunc 6) (by simp only [vFunc, sliceOnly_vecMap, implies_true]),
   vecFrame_of 0x28 vCvtOp (by simp only [vCvtOp, sliceOnly_vecCalc, implies_true]),
   vecFrame_of 0x30 (vReduce 0) (by simp only [vReduce, sliceOnly_vecCalc, implies_true]),
   vecFrame_of 0x31 (vReduce 1) (by simp only [vReduce, sliceOnly_vecCalc, implies_true]),
   vecFrame_of 0x32 (vReduce 2) (by simp only [vReduce, sliceOnly_vecCalc, implies_true]),
   vecFrame_of 0x38 vPermOp (by simp only [vPermOp, sliceOnly_vecMap, implies_true]),
   vecFrame_of 0x39 vShufOp (by simp only [vShufOp, sliceOnly_vecMap, implies_true]),
   vecFrame_of 0x3A vPackOp (by simp only [vPackOp, sliceOnly_vecCalc, implies_true]),
   vecFrame_of 0x3B vUnpkOp (by simp only [vUnpkOp, sliceOnly_vecMap, implies_true]),
   vecFrame_of 0x3C vBcastOp (by simp only [vBcastOp, sliceOnly_vecMap, implies_true]),
   vecFrame_of 0x3D vMovsOp (by simp only [vMovsOp, sliceOnly_vecMap, implies_true]),
   vecFrame_of 0x3E vMovvOp (by simp only [vMovvOp, sliceOnly_vecCalc, implies_true]),
   vecFrame_of 0x40 vVldOp sliceOnly_vVldOp,
   vecFrame_of 0x42 vVldcOp sliceOnly_vVldcOp,
   vecFrame_of 0x45 vGathOp sliceOnly_vGathOp,
   vecFrame_of 0x48 vVrecvOp sliceOnly_vVrecvOp,
   vecFrame_of 0x50 vSli (by simp only [vSli, sliceOnly_vecScalar, implies_true]),
   vecFrame_of 0x51 vSlih (by simp only [vSlih, sliceOnly_vecScalar, implies_true]),
   vecFrame_of 0x52 vSadd (by simp only [vSadd, sliceOnly_vecScalar, implies_true]),
   vecFrame_of 0x53 (vScalarOp (· * ·)) (by simp only [vScalarOp, sliceOnly_vecScalar, implies_true]),
   vecFrame_of 0x54 (vScalarOp (· &&& ·)) (by simp only [vScalarOp, sliceOnly_vecScalar, implies_true]),
   vecFrame_of 0x55 (vScalarOp fun p q => p <<< (q % 64)) (by simp only [vScalarOp, sliceOnly_vecScalar, implies_true]),
   vecFrame_of 0x56 (vScalarOp fun p q => p >>> (q % 64)) (by simp only [vScalarOp, sliceOnly_vecScalar, implies_true]),
   vecFrame_of 0x57 vSrdOp (by simp only [vSrdOp, sliceOnly_vecScalar, implies_true]),
   vecFrame_of 0x58 vBneOp (by simp only [vBneOp, sliceOnly_vecBranch, implies_true]),
   vecFrame_of 0x59 vBltOp (by simp only [vBltOp, sliceOnly_vecBranch, implies_true]),
   vecFrame_of 0x5C vWaitOp sliceOnly_vWaitOp,
   vecFrame_of 0x5E (fun d x _ _ => d.nextPc x) (fun _ _ _ _ => sliceOnly_nextPc ..),
   vecFrame_of 0x5F vEndOp sliceOnly_vEndOp⟩

end Sys2Proof.Proofs
end

section
/-! # O56: ADD on INT32

The elements packed into a register read back; the two's-complement sum of the elements as signed integers is their sum
modulo 2^32; and a register instruction without a flag leaves the bay's sticky flags. -/

namespace Sys2Proof.Machine

theorem packElems_lt (w : Nat) (l : List Nat) : packElems w l < 2 ^ (w * l.length) := by
  induction l with
  | nil => simp [packElems]
  | cons x l ih =>
    have hx : x % 2 ^ w < 2 ^ w := Nat.mod_lt _ (by positivity)
    calc x % 2 ^ w + 2 ^ w * packElems w l < 2 ^ w * (packElems w l + 1) := by rw [Nat.mul_add]; omega
      _ ≤ 2 ^ w * 2 ^ (w * l.length) := Nat.mul_le_mul_left _ ih
      _ = 2 ^ (w * (l.length + 1)) := by rw [← Nat.pow_add]; congr 1; ring

theorem elemAt_packElems (w : Nat) (l : List Nat) {i : Nat} (hi : i < l.length) :
    elemAt w i (packElems w l) = l[i] % 2 ^ w := by
  induction l generalizing i with
  | nil => simp at hi
  | cons x l ih =>
    cases i with
    | zero => simp [elemAt, packElems]
    | succ i =>
      have hx : x % 2 ^ w < 2 ^ w := Nat.mod_lt _ (by positivity)
      have hdrop : packElems w (x :: l) >>> (w * (i + 1)) = packElems w l >>> (w * i) := by
        rw [Nat.mul_add, Nat.mul_one, Nat.add_comm, Nat.shiftRight_add, Nat.shiftRight_eq_div_pow _ w, packElems,
          Nat.add_mul_div_left _ _ (by positivity), Nat.div_eq_of_lt hx, Nat.zero_add]
      simpa [elemAt, hdrop] using ih (Nat.lt_of_succ_lt_succ hi)

theorem toNat_ofNat_of_lt {w x : Nat} (h : x < 2 ^ w) : (BitVec.ofNat w x).toNat = x := by
  rw [BitVec.toNat_ofNat, Nat.mod_eq_of_lt h]

theorem VecU.vreg_setV_packElems (u : VecU) (r width : Nat) (l : List Nat) (hl : width * l.length ≤ 4096) :
    (u.setV r (packElems width l)).vreg r = packElems width l := by
  rw [VecU.vreg, VecU.setV, Tab.get_put_same]
  exact toNat_ofNat_of_lt ((packElems_lt ..).trans_le (Nat.pow_le_pow_right Nat.two_pos hl))

theorem VecU.elemAt_writeElems (u : VecU) (w : VWord) {width n i : Nat} (g : Nat → Nat) (hi : i < n) (hn : n ≤ 4096 / width) :
    elemAt width i ((u.writeElems w width n g).vreg w.d) =
      (if u.on w i then g i else if w.z = 1 then 0 else elemAt width i (u.vreg w.d)) % 2 ^ width := by
  rw [VecU.writeElems, VecU.vreg_setV_packElems, elemAt_packElems]
  · rw [List.getElem_map, List.getElem_range, if_pos hi]
  · rw [List.length_map, List.length_range]
    exact hi.trans_le hn
  · rw [List.length_map, List.length_range]
    exact Nat.mul_div_le 4096 width

theorem VecU.writeElems_congr {u : VecU} {w : VWord} {width n : Nat} {g g' : Nat → Nat}
    (h : ∀ i, i < n → u.on w i = true → g i = g' i) : u.writeElems w width n g = u.writeElems w width n g' := by
  simp only [VecU.writeElems]
  congr 2
  refine List.map_congr_left fun i _ => ?_
  by_cases hi : i < n <;> by_cases on : u.on w i = true <;> simp [hi, on, h]

theorem signedOf_emod (w a : Nat) : signedOf w a % (2 ^ w : Int) = (a : Int) % 2 ^ w := by
  unfold signedOf
  push_cast
  split <;> simp

theorem wrapInt_add_signed (w a b : Nat) : wrapInt w (signedOf w a + signedOf w b) = (a + b) % 2 ^ w := by
  have h : (signedOf w a + signedOf w b) % (2 ^ w : Int) = ((a + b) % 2 ^ w : Nat) := by
    rw [Int.add_emod, signedOf_emod, signedOf_emod, ← Int.add_emod]
    norm_cast
  rw [wrapInt, h, Int.toNat_natCast]

theorem FFlags.orAll_eq_none {l : List FFlags} (h : ∀ f ∈ l, f = FFlags.none) : FFlags.orAll l = FFlags.none := by
  rw [List.eq_replicate_of_mem h, FFlags.orAll]
  induction l.length with
  | zero => rfl
  | succ n ih => rwa [List.replicate_succ, List.foldl_cons]

theorem Dev.get_lt (d : Dev) (f : RF) : d.get f < 2 ^ f.w := Nat.mod_lt _ (by positivity)

theorem Dev.get_orFlags_none (d : Dev) (b : Nat) :
    (d.orFlags b FFlags.none).get (SCH_BAY_VFLAG.flags b) = d.get (SCH_BAY_VFLAG.flags b) := by
  have h : (SCH_BAY_VFLAG.flags b).lo + (SCH_BAY_VFLAG.flags b).w ≤ 64 := by simp [SCH_BAY_VFLAG.flags]
  rw [Dev.orFlags, Dev.get_set_same _ _ _ h]
  simpa [FFlags.toNat, FFlags.none] using Nat.mod_eq_of_lt (d.get_lt (SCH_BAY_VFLAG.flags b))

/-- The register space of the AGs lies above the registers of the scheduler. -/
theorem SCH_BAY_VFLAG.off_lt {b : Nat} (hb : b < 8) : SCH_BAY_VFLAG.off b < 0x870000 := by unfold SCH_BAY_VFLAG.off; omega

theorem Dev.get_nextPc_of_low (d : Dev) (x : Nat) {f : RF} (hf : f.off < 0x870000) : (d.nextPc x).get f = d.get f := by
  have low : f.off ≠ AG_VEC_STATUS.off (x / 6) (x % 6) := by unfold AG_VEC_STATUS.off; omega
  unfold Dev.get
  rw [Dev.nextPc, Dev.showVec, Dev.rd_sets_other]
  · rfl
  · simpa using ⟨low.symm, low.symm, low.symm, low.symm, low.symm⟩

theorem Dev.bayOfAg_lt {d : Dev} {n b : Nat} (h : d.bayOfAg n = some b) : b < 8 := by
  simpa using List.mem_of_find?_eq_some h

theorem Dev.vecNext_bay {d : Dev} {x b : Nat} {w : VWord} (h : d.vecNext x = some (b, w)) : d.bayOfAg (x / 6) = some b := by
  simp only [Dev.vecNext] at h
  split at h
  case h_1 => cases h
  case h_2 b' hb =>
    split at h
    · obtain ⟨_, _, hw⟩ := Option.map_eq_some_iff.1 h
      exact (Prod.mk.inj hw).1 ▸ hb
    · cases h

theorem Dev.vecU_vecCalc (d : Dev) (x b : Nat) (r : VecU × FFlags) :
    (d.vecCalc x b r).vecU x = { r.1 with pc := (r.1.pc + 1) % 2048 } := by
  have h (d : Dev) (l : List (RF × Nat)) : (d.sets l).vecU x = d.vecU x := by rw [Dev.foldl_sets_eq]; rfl
  have hu : ((d.putVec x r.1).orFlags b r.2).vecU x = r.1 := Tab.get_put_same ..
  rw [Dev.vecCalc, Dev.nextPc, Dev.showVec, h, hu]
  exact Tab.get_put_same ..

theorem Dev.vecMap_int32 (d : Dev) (x b : Nat) (w : VWord) (g : VecU → Nat → Nat) :
    d.vecMap x b w .int32 (fun u i => (g u i, FFlags.none)) =
      d.vecCalc x b ((d.vecU x).writeElems w 32 128 (g (d.vecU x)), FFlags.none) := by
  have flags : FFlags.orAll (((List.range 128).map fun i =>
      if (d.vecU x).on w i then (g (d.vecU x) i, FFlags.none) else (0, FFlags.none)).map (·.2)) = FFlags.none := by
    refine FFlags.orAll_eq_none fun f hf => ?_
    simp only [List.mem_map, exists_exists_and_eq_and] at hf
    obtain ⟨i, _, rfl⟩ := hf
    split <;> rfl
  refine congrArg₂ (fun u f => d.vecCalc x b (u, f)) (VecU.writeElems_congr fun i hi on => ?_) flags
  rw [List.getD_eq_getElem?_getD, List.getElem?_map, List.getElem?_range hi, Option.map_some, if_pos on, Option.getD_some]

theorem Dev.vecBin_int32 (d : Dev) {x b : Nat} {w : VWord} (hf : fmtOf w.fmt = .int32) (ff : RMode → Val → Val → Val × FFlags)
    (fi : Int → Int → Int) :
    d.vecBin x b w ff fi = d.vecMap x b w .int32 fun u i =>
      (wrapInt 32 (fi (signedOf 32 (u.elem .int32 w.a i)) (signedOf 32 (u.elem .int32 w.b i))), FFlags.none) := by
  rw [Dev.vecBin, hf]
  rfl

/-- The results of ADD on INT32 (R151, R152). -/
theorem Dev.vAdd_int32 (d : Dev) {x b i : Nat} {w : VWord} (hb : b < 8) (hfmt : w.fmt = 0x09) (hi : i < 128) :
    ((d.vecU x).on w i = true →
      ((vAdd d x b w).vecU x).elem .int32 w.d i = ((d.vecU x).elem .int32 w.a i + (d.vecU x).elem .int32 w.b i) % 2 ^ 32) ∧
    ((d.vecU x).on w i = false → w.z = 1 → ((vAdd d x b w).vecU x).elem .int32 w.d i = 0) ∧
    ((d.vecU x).on w i = false → w.z ≠ 1 → ((vAdd d x b w).vecU x).elem .int32 w.d i = (d.vecU x).elem .int32 w.d i) ∧
    (vAdd d x b w).get (SCH_BAY_VFLAG.flags b) = d.get (SCH_BAY_VFLAG.flags b) ∧ (vAdd d x b w).mem = d.mem := by
  have hf : fmtOf w.fmt = .int32 := by rw [hfmt]; rfl
  generalize hu : d.vecU x = u
  have hsum : vAdd d x b w = d.vecCalc x b (u.writeElems w 32 128 (fun i => (u.elem .int32 w.a i + u.elem .int32 w.b i) % 2 ^ 32),
      FFlags.none) := by
    rw [vAdd, Dev.vecBin_int32 d hf, Dev.vecMap_int32, hu]
    exact congrArg (fun v => d.vecCalc x b (v, FFlags.none))
      (VecU.writeElems_congr fun i _ _ => wrapInt_add_signed ..)
  have helem : ((vAdd d x b w).vecU x).elem .int32 w.d i =
      (if u.on w i then (u.elem .int32 w.a i + u.elem .int32 w.b i) % 2 ^ 32 else if w.z = 1 then 0 else u.elem .int32 w.d i) % 2 ^ 32 := by
    rw [hsum, Dev.vecU_vecCalc]
    exact VecU.elemAt_writeElems u w _ hi (by decide)
  refine ⟨fun on => ?_, fun off z => ?_, fun off z => ?_, ?_, ?_⟩
  · rw [helem, if_pos on, Nat.mod_mod]
  · rw [helem, off, if_neg (by simp), if_pos z, Nat.zero_mod]
  · rw [helem, off, if_neg (by simp), if_neg z]
    exact Nat.mod_mod ..
  · rw [hsum, Dev.vecCalc, Dev.get_nextPc_of_low _ _ (SCH_BAY_VFLAG.off_lt hb), Dev.get_orFlags_none]
    rfl
  · rw [hsum, Dev.vecCalc_mem]

end Sys2Proof.Machine

namespace Sys2Proof.Proofs
open Sys2Proof.Machine Sys2Proof.Claims

theorem vecExec_add : VecExec .vAdd 0x01 vAdd := fun _ _ _ => rfl

/-- Settles O56: the stall count leaves slice, flags and memory, and `Dev.vAdd_int32` says what ADD then does. -/
theorem vectorIntegerAddWrapsAndMasks : Obligations.VectorIntegerAddWrapsAndMasks := by
  intro x stall s b i w next hop hfmt hi
  have hb := Dev.bayOfAg_lt (Dev.vecNext_bay next)
  refine ⟨_, vecExec_add.answers next hop rfl, ?_⟩
  generalize hd : s.dev.incWrap (AG_VEC_PERF.stall_cycles (x.val / 6) (x.val % 6)) stall = d
  have hflags : d.get (SCH_BAY_VFLAG.flags b) = s.dev.get (SCH_BAY_VFLAG.flags b) := by
    rw [← hd]
    refine Dev.get_set_reg _ _ _ _ ?_
    have := SCH_BAY_VFLAG.off_lt hb
    simp only [SCH_BAY_VFLAG.flags, AG_VEC_PERF.stall_cycles, AG_VEC_PERF.off]
    omega
  have hvec : d.vecU x.val = s.dev.vecU x.val := by rw [← hd]; rfl
  have hmem : d.mem = s.dev.mem := by rw [← hd]; rfl
  rw [← hvec, ← hflags, ← hmem]
  exact d.vAdd_int32 hb hfmt hi

end Sys2Proof.Proofs
end

section
/-! # O59: a 64-bit write leaves each field what its access code says

The fields of a register do not overlap, so that the field-by-field fold of `Dev.writeFields` leaves each field its own result;
and what follows the fold, the change entry, the refusals and the shadows, writes only the journal's registers and the status
registers of the block, which hold neither static nor joint fields. -/

namespace Sys2Proof.Machine

/-! ### The layout of the registers -/

/-- The fields of a register lie within its 64 bits and do not overlap. -/
def RegDef.laidOut (r : RegDef) : Bool :=
  (r.fields.all fun f => decide (0 < f.w) && decide (f.lo + f.w ≤ 64)) &&
  decide (r.fields.Pairwise fun f g => f.lo + f.w ≤ g.lo ∨ g.lo + g.w ≤ f.lo)

theorem regTableOf_laidOut (off : Nat) : (regTableOf off).all RegDef.laidOut = true := by
  fun_cases regTableOf off
  all_goals decide +kernel

theorem laidOut_of_findReg {off : Nat} {r : RegDef} {ix : List Nat} (h : findReg off = some (r, ix)) : r.laidOut = true := by
  obtain ⟨r', hr, hx⟩ := List.exists_of_findSome?_eq_some h
  split at hx
  case isTrue =>
    obtain ⟨_, _, hix⟩ := Option.map_eq_some_iff.mp hx
    exact (Prod.mk.inj hix).1 ▸ List.all_eq_true.mp (regTableOf_laidOut off) r' hr
  case isFalse => cases hx

theorem RegDef.laidOut_iff {r : RegDef} : r.laidOut = true ↔
    (∀ f ∈ r.fields, 0 < f.w ∧ f.lo + f.w ≤ 64) ∧ r.fields.Pairwise fun f g => f.lo + f.w ≤ g.lo ∨ g.lo + g.w ≤ f.lo := by
  simp [RegDef.laidOut]

/-- No field of the register at the offset is static or behind a joint. -/
def plainReg (off : Nat) : Bool :=
  match findReg off with
  | some (r, _) => r.fields.all fun f => f.acc != .sw && f.acc != .jw
  | none => true

/-- Where the joint status registers of the blocks lie. -/
theorem jointStatus_off {off : Nat} : off = jointBlockOf off + 8 →
    off ∈ [0x1FF008, 0x3FF008, 0x1FFF008, 0x2FFF008, 0x33FF008, 0x35FF008, 0x37FF008, 0x3800108, 0x3FFF008] ∨
      ∃ n, n < 16 ∧ off = 0x8FF008 + 0x100000 * n := by
  fun_cases jointBlockOf off
  case case4 => exact fun h => .inr ⟨(off - 0x800000) / 0x100000, by omega, by omega⟩
  all_goals
    intro h
    left
    simp only [List.mem_cons, List.not_mem_nil, or_false]
    omega

/-- The joint status register of a block holds no static and no joint field. -/
theorem plainReg_jointStatus {off : Nat} (h : off = jointBlockOf off + 8) : plainReg off = true := by
  have hone : ([0x1FF008, 0x3FF008, 0x1FFF008, 0x2FFF008, 0x33FF008, 0x35FF008, 0x37FF008, 0x3800108, 0x3FFF008].all
      plainReg) = true := by decide +kernel
  have hag : ∀ n : Fin 16, plainReg (0x8FF008 + 0x100000 * n.val) = true := by decide +kernel
  obtain h | ⟨n, hn, rfl⟩ := jointStatus_off h
  · exact List.all_eq_true.mp hone off h
  · exact hag ⟨n, hn⟩

theorem plainReg_arrEvent : ∀ n : Fin 16, ∀ x : Fin 6, plainReg (AG_ARR_EVENT.off n x) = true := by decide +kernel

/-! ### The fold over the fields -/

/-- What a field of a register leaves in it when `att` is written over `old` (R9 to R16). -/
def FieldDef.write (att old : Reg64) (stopped : Bool) (v : Reg64) (f : FieldDef) : Reg64 :=
  match f.acc with
  | .rw => insField v f.lo f.w (fieldOf att f.lo f.w)
  | .w1c => insField v f.lo f.w (fieldOf old f.lo f.w &&& (2 ^ f.w - 1 - fieldOf att f.lo f.w))
  | .w1s => insField v f.lo f.w (fieldOf old f.lo f.w ||| fieldOf att f.lo f.w)
  | .sw => if stopped then insField v f.lo f.w (fieldOf att f.lo f.w) else v
  | _ => v

variable {att old v : Reg64} {stopped : Bool} {f g : FieldDef}

theorem fieldOf_insField_disjoint {v : Reg64} {lo w lo' w' : Nat} (n : Nat) (hw : lo + w ≤ 64)
    (h : lo + w ≤ lo' ∨ lo' + w' ≤ lo) : fieldOf (insField v lo w n) lo' w' = fieldOf v lo' w' := by
  rcases h with h | h
  · exact fieldOf_insField_above _ _ _ _ _ _ hw h
  · exact fieldOf_insField_below _ _ _ _ _ _ hw h

theorem FieldDef.fieldOf_write_other (hw : f.lo + f.w ≤ 64) (h : f.lo + f.w ≤ g.lo ∨ g.lo + g.w ≤ f.lo) :
    fieldOf (f.write att old stopped v) g.lo g.w = fieldOf v g.lo g.w := by
  unfold FieldDef.write
  split
  · exact fieldOf_insField_disjoint _ hw h
  · exact fieldOf_insField_disjoint _ hw h
  · exact fieldOf_insField_disjoint _ hw h
  · split
    · exact fieldOf_insField_disjoint _ hw h
    · rfl
  · rfl

theorem FieldDef.fieldOf_foldl_write_other {l : List FieldDef} (hl : ∀ f ∈ l, f.lo + f.w ≤ 64)
    (h : ∀ f ∈ l, f.lo + f.w ≤ g.lo ∨ g.lo + g.w ≤ f.lo) (v : Reg64) :
    fieldOf (l.foldl (FieldDef.write att old stopped) v) g.lo g.w = fieldOf v g.lo g.w := by
  induction l generalizing v with
  | nil => rfl
  | cons f l ih =>
    rw [List.foldl_cons, ih (fun f hf => hl f (.tail _ hf)) (fun f hf => h f (.tail _ hf)),
      fieldOf_write_other (hl f (.head _)) (h f (.head _))]

/-- After the fold a field reads as its own write leaves it. -/
theorem FieldDef.fieldOf_foldl_write {l : List FieldDef} (hl : ∀ f ∈ l, f.lo + f.w ≤ 64)
    (hdis : l.Pairwise fun f g => f.lo + f.w ≤ g.lo ∨ g.lo + g.w ≤ f.lo) (hg : g ∈ l) (v : Reg64) :
    ∃ v', fieldOf v' g.lo g.w = fieldOf v g.lo g.w ∧
      fieldOf (l.foldl (FieldDef.write att old stopped) v) g.lo g.w = fieldOf (g.write att old stopped v') g.lo g.w := by
  obtain ⟨l₁, l₂, rfl⟩ := List.append_of_mem hg
  obtain ⟨_, ⟨h₂, _⟩, h₁⟩ := by simpa only [List.pairwise_append, List.pairwise_cons] using hdis
  refine ⟨l₁.foldl (FieldDef.write att old stopped) v, fieldOf_foldl_write_other (fun f hf => hl f (by simp [hf]))
    (fun f hf => h₁ f hf g (.head _)) v, ?_⟩
  rw [List.foldl_append, List.foldl_cons]
  exact fieldOf_foldl_write_other (fun f hf => hl f (by simp [hf])) (fun f hf => (h₂ f hf).symm) _

/-! ### What follows the fold -/

variable {d : Dev} {off : Nat}

/-- The registers that an entry of the journal may change. -/
def notJournal (off : Nat) : Prop := off ≠ JNL_HEAD.off ∧ off ≠ JNL_EVENT.off ∧ off ≠ GLB_BOOTINFO.off

theorem Dev.rd_jnlAppend (h : notJournal off) (origin a old new : Nat) : (d.jnlAppend origin a old new).rd off = d.rd off := by
  obtain ⟨hhead, hevent, hboot⟩ := h
  unfold Dev.jnlAppend
  extract_lets e0 e _ d₁ d₂
  have h₁ : d₁.rd off = d.rd off := Dev.rd_set_other _ _ _ _ hhead
  have h₂ : d₂.rd off = d.rd off := (Dev.rd_set_other _ _ _ _ hevent).trans h₁
  split
  · exact h₁
  · split
    · exact (Dev.rd_set_other _ _ _ _ hboot).trans h₂
    · exact h₂

theorem Dev.rd_staticErr (hid : off ≠ FAB_ID.off) (hjoint : off ≠ jointBlockOf off + 8)
    (harr : ∀ n x, n < 16 → x < 6 → off ≠ AG_ARR_EVENT.off n x) : (d.staticErr off).rd off = d.rd off := by
  unfold Dev.staticErr
  extract_lets blk d₁ d₂ n r
  have h₁ : d₁.rd off = d.rd off := by
    unfold d₁
    split
    · rfl
    · exact Dev.rd_set_other _ _ _ _ hjoint
  have h₂ : d₂.rd off = d.rd off := by
    unfold d₂
    split
    · exact (Dev.rd_set_other _ _ _ _ hid).trans h₁
    · exact h₁
  split
  case isTrue hag =>
    have hn : n < 16 := by
      simp only [Bool.and_eq_true, decide_eq_true_eq] at hag
      omega
    clear_value n r
    split
    · exact (Dev.rd_set_other _ _ _ _ (harr n _ hn (Nat.div_lt_of_lt_mul ‹_›))).trans h₂
    · split
      case isTrue hr =>
        simp only [Bool.and_eq_true, decide_eq_true_eq] at hr
        have hx : (r - 0x8000) / 0x100 < 6 := by omega
        exact (Dev.rd_set_other _ _ _ _ (harr n _ hn hx)).trans h₂
      case isFalse => exact h₂
  case isFalse => exact h₂

theorem Dev.rd_foldl_setShadow (l : List FieldDef) (d : Dev) (att : Reg64) (origin : Nat) :
    (l.foldl (fun d f => d.setShadow off f.lo f.w (fieldOf att f.lo f.w) origin) d).rd off = d.rd off := by
  induction l generalizing d with
  | nil => rfl
  | cons f l ih => exact ih _

/-- After a 64-bit write a register holds the fold of its fields' writes. -/
theorem Dev.rd_writeFields {r : RegDef} {ix : List Nat} (hreg : findReg off = some (r, ix)) (hjnl : notJournal off)
    (hid : off ≠ FAB_ID.off) (d : Dev) (origin : Nat) (att : Reg64) :
    (d.writeFields origin off 0 8 att).rd off = r.fields.foldl (FieldDef.write att (d.rd off) (d.swStopped off)) (d.rd off) := by
  have hcov : r.fields.filter (covers 0 8) = r.fields := by
    refine List.filter_eq_self.2 fun f hf => ?_
    obtain ⟨hpos, hfit⟩ := (RegDef.laidOut_iff.1 (laidOut_of_findReg hreg)).1 f hf
    simp only [covers, Bool.and_eq_true, decide_eq_true_eq]
    omega
  have hplain (f : FieldDef) (hf : f ∈ r.fields) (hacc : f.acc = .sw ∨ f.acc = .jw) : plainReg off = false := by
    simp only [plainReg, hreg, List.all_eq_false]
    exact ⟨f, hf, by rcases hacc with h | h <;> rw [h] <;> decide⟩
  unfold Dev.writeFields
  simp -zeta only [hreg]
  extract_lets id blk cov old stopped new swRefused wo d₁ d₂ jw sh armed written
  have hnew : new = r.fields.foldl (FieldDef.write att (d.rd off) (d.swStopped off)) (d.rd off) := by
    show cov.foldl (FieldDef.write att (d.rd off) (d.swStopped off)) (d.rd off) = _
    rw [show cov = r.fields from hcov]
  have h₁ : d₁.rd off = new := by
    unfold d₁
    split
    case isTrue => rw [Dev.jnlChange, Dev.rd_jnlAppend hjnl, Dev.rd_wr_same]
    case isFalse hsame =>
      have hold : d.rd off = new := by simpa [old] using Eq.symm (show new = old by simpa using hsame)
      split
      · rw [Dev.jnlChange, Dev.rd_jnlAppend hjnl, hold]
      · exact hold
  have h₂ : d₂.rd off = new := by
    unfold d₂
    split
    case isTrue href =>
      obtain ⟨f, hf, hsw⟩ := List.any_eq_true.1 (Bool.and_eq_true_iff.1 href).2
      have hmix := hplain f (hcov ▸ hf) (.inl (by simpa using (Bool.and_eq_true_iff.1 hsw).1))
      rw [Dev.jnlRefused, Dev.rd_jnlAppend hjnl, Dev.rd_staticErr hid, h₁]
      · intro hoff
        rw [plainReg_jointStatus hoff] at hmix
        cases hmix
      · rintro n x hn hx rfl
        rw [plainReg_arrEvent ⟨n, hn⟩ ⟨x, hx⟩] at hmix
        cases hmix
    case isFalse => exact h₁
  rw [← hnew]
  split
  · exact h₂
  case isFalse hne =>
    obtain ⟨f, hf⟩ := List.exists_mem_of_ne_nil written (by simpa using hne)
    have hmix := hplain f (hcov ▸ (List.mem_filter.1 (List.mem_filter.1 hf).1).1)
      (.inr (by simpa using (List.mem_filter.1 (List.mem_filter.1 hf).1).2))
    split
    · rw [Dev.jnlRefused, Dev.rd_jnlAppend hjnl, Dev.rd_set_other, h₂]
      intro hoff
      rw [plainReg_jointStatus hoff] at hmix
      cases hmix
    · rw [Dev.rd_foldl_setShadow, h₂]

end Sys2Proof.Machine

namespace Sys2Proof.Proofs
open Sys2Proof.Machine Sys2Proof.Claims

/-- Settles O59: the register holds the fold of its fields' writes, and that leaves each field its own. -/
theorem registerFieldsFollowTheirAccessCodes : Obligations.RegisterFieldsFollowTheirAccessCodes := by
  intro origin off att d r ix f hreg hf hhead hevent hboot hid
  obtain ⟨hfit, hdis⟩ := RegDef.laidOut_iff.1 (laidOut_of_findReg hreg)
  have hw := (hfit f hf).2
  obtain ⟨v, hv, hwrite⟩ := FieldDef.fieldOf_foldl_write (att := att) (old := d.rd off) (stopped := d.swStopped off)
    (fun f hf => (hfit f hf).2) hdis hf (d.rd off)
  rw [Dev.rd_writeFields hreg ⟨hhead, hevent, hboot⟩ hid, hwrite, ← hv]
  have hlt (u : Reg64) : fieldOf u f.lo f.w % 2 ^ f.w = fieldOf u f.lo f.w := Nat.mod_mod ..
  refine ⟨fun hacc => ?_, fun hacc => ?_, fun hacc => ?_, fun hacc => ?_⟩
  · rcases hacc with hacc | hacc | hacc <;> simp only [FieldDef.write, hacc]
  · simp only [FieldDef.write, hacc, fieldOf_insField_same _ _ _ _ hw, hlt]
  · have hpos : 0 < 2 ^ f.w := by positivity
    simp only [FieldDef.write, hacc, fieldOf_insField_same _ _ _ _ hw, hv]
    exact Nat.mod_eq_of_lt (Nat.and_lt_two_pow _ (by omega))
  · simp only [FieldDef.write, hacc]
    split
    · rw [fieldOf_insField_same _ _ _ _ hw, hlt]
    · rfl

end Sys2Proof.Proofs
end

section
/-! # O1 to O6: writes through the register path

Through an open path each write runs its register's effect on the device as it is
(`Dev.throughPath_of_pathOpen`); what is left is the branch of the effect that the conditions choose. -/

namespace Sys2Proof.Machine
open Sys2Proof.Claims

theorem fieldOf_ofNat {n : Nat} (hn : n < 2 ^ 64) (lo w : Nat) : fieldOf (BitVec.ofNat 64 n) lo w = n / 2 ^ lo % 2 ^ w := by
  rw [fieldOf, BitVec.toNat_ofNat, Nat.mod_eq_of_lt hn, Nat.shiftRight_eq_div_pow]

theorem Dev.regEffect_of_plain (d : Dev) {via : Via} {off value : Nat} (halign : off % 8 = 0) (hreg : (findReg off).isSome = true)
    (hvia : (via == .fabric && within off 0x1000 0x2000) = false)
    (hplain : (d.specialWrite via off 0 8 (mergeBytes (d.shadowWord off) 0 8 value)).isNone = true) :
    d.regEffect via off 8 value = d.writeFields (viaOrigin via) off 0 8 (mergeBytes (d.shadowWord off) 0 8 value) := by
  obtain ⟨x, hx⟩ := Option.isSome_iff_exists.1 hreg
  simp [Dev.regEffect, Dev.regWriteCore, halign, hx, hvia, Option.isNone_iff_eq_none.1 hplain]

theorem Dev.armJoint_of_disarmed (d : Dev) {origin blk id token : Nat} {e : Dev} (hdef : jointDefined blk id = true)
    (he : e = d.jnlChange origin blk 0 0 (jointWord id 0 token)) (hfree : (e.armedRec blk id).isNone = true)
    (hrun : e.jointStopped blk id = false) :
    d.armJoint origin blk id token = Dev.refreshArmed
      { e with jt := { e.jt with armed := e.jt.armed ++
        [{ block := blk, id := id, token := token, origin := origin, edge := e.openEdge, waits := false }] } } blk := by
  have hnone := Option.isNone_iff_eq_none.1 hfree
  unfold Dev.armJoint
  rw [if_neg (by simp [hdef])]
  dsimp only
  rw [← he, hnone]
  exact if_neg (by simp [hrun])

theorem Dev.disarmJoint_of_defined (d : Dev) {blk id : Nat} (hdef : jointDefined blk id = true) (origin token : Nat) :
    d.disarmJoint origin blk id token =
      (((d.jnlChange origin blk 0 0 (jointWord id 1 token)).unarm blk id).jointResult blk id 3 0 token).refreshArmed blk := by
  simp [Dev.disarmJoint, hdef]

theorem Dev.revertJoint_of_disarmed (d : Dev) {blk id : Nat} (hdef : jointDefined blk id = true)
    (hfree : (d.armedRec blk id).isNone = true) (origin token : Nat) :
    d.revertJoint origin blk id token = (d.jnlChange origin blk 0 0 (jointWord id 2 token)).dropShadows blk id := by
  simp [Dev.revertJoint, hdef, Option.isNone_iff_eq_none.1 hfree]

/-- A request for another state than the one requested last goes to PWR (R373). -/
theorem Dev.writeDom_of_new (d : Dev) {via : Via} {dom req : Nat} {e : Dev} (hreq : req < 4)
    (he : e = d.writeFields (viaOrigin via) (PWR_DOM.off dom) 0 8 (insField (BitVec.ofNat 64 req) 0 2 (d.get (PWR_DOM.req dom))))
    (hnew : req ≠ e.get (PWR_DOM.req dom)) :
    d.writeDom via dom 0 8 (BitVec.ofNat 64 req) = e.domainRequest (viaOrigin via) dom req := by
  have hfield : fieldOf (BitVec.ofNat 64 req) 0 2 = req := by
    rw [fieldOf_ofNat (by omega), Nat.pow_zero, Nat.div_one]
    exact Nat.mod_eq_of_lt hreq
  subst he
  simp [Dev.writeDom, hfield, hnew, holdsBit]

theorem Dev.writeThaw_of_frozen (d : Dev) {p : HostPort} {b : Nat} (hserves : d.serves b p.val = true)
    (hfrozen : d.bayState b = bayFrozen) :
    d.writeThaw (.host p 0) b 0 8 1 =
      (d.jnlChange (1 + p.val) (HIF_BAY_CTL.off b) 0 0 1).putBay b { d.bayU b with thawEdge := some d.openEdge } := by
  have hact : (!holdsBit 0 8 0 || decide (fieldOf 1 0 1 = 0) || d.bayState b != bayFrozen) = false := by
    rw [hfrozen]
    rfl
  have hok : (!((0 : FuncId).val == 0 && d.serves b p.val)) = false := by simp [hserves]
  unfold Dev.writeThaw
  dsimp only
  rw [hact, if_neg Bool.false_ne_true, hok, if_neg Bool.false_ne_true]
  rfl

theorem Dev.fieldOf_wordWith (d : Dev) (f : RF) (n : Nat) (hw : f.lo + f.w ≤ 64) :
    fieldOf (d.wordWith f n) f.lo f.w = n % 2 ^ f.w := fieldOf_insField_same _ _ _ _ hw

theorem Dev.writeRing_enable (d : Dev) (via : Via) {r : Nat} (hen : d.get (RC.en r) = 0)
    (hgood : (d.wr (ringBase r) (insField (d.wordWith (RC.en r) 1) 0 1 0)).ringBad r = false) :
    d.writeRing via r 0 8 (d.wordWith (RC.en r) 1) =
      (d.writeFields (viaOrigin via) (ringBase r) 0 8 (d.wordWith (RC.en r) 1)).ringStart r := by
  have hwant : fieldOf (d.wordWith (RC.en r) 1) 0 1 = 1 := d.fieldOf_wordWith (RC.en r) 1 (Nat.le_of_ble_eq_true rfl)
  simp [Dev.writeRing, hen, hwant, hgood, holdsBit]

theorem Dev.writeRing_disable (d : Dev) (via : Via) {r : Nat} (hen : d.get (RC.en r) = 1) :
    d.writeRing via r 0 8 (d.wordWith (RC.en r) 0) =
      (d.writeFields (viaOrigin via) (ringBase r) 0 8 (d.wordWith (RC.en r) 0)).ringStop r := by
  have hwant : fieldOf (d.wordWith (RC.en r) 0) 0 1 = 0 := d.fieldOf_wordWith (RC.en r) 0 (Nat.le_of_ble_eq_true rfl)
  simp [Dev.writeRing, hen, hwant, holdsBit]

theorem Dev.writeDeadClr_word (d : Dev) (via : Via) {x : Nat} (hx : x < 2 ^ 15) :
    d.writeDeadClr via 0 8 (BitVec.ofNat 64 x) =
      (d.writeFields (viaOrigin via) FLT_DEAD_CLR.off 0 8 (BitVec.ofNat 64 x)).deadClear x := by
  have hfield : fieldOf (BitVec.ofNat 64 x) 0 15 = x := by
    rw [fieldOf_ofNat (by omega), Nat.pow_zero, Nat.div_one, Nat.mod_eq_of_lt hx]
  rw [Dev.writeDeadClr, hfield]
  rfl

/-- A command that does not end as refused leaves one change entry before its effect. -/
theorem Dev.command_of_served (d : Dev) {refused : Dev → Bool} {run : Dev → Dev} (h : refused (run d) = false) (via : Via) (off : Nat)
    (att : Reg64) : d.command via off att refused run = run (d.jnlChange (viaOrigin via) off 0 0 att) := by
  rw [Dev.command, h]
  rfl

theorem Dev.fwWrite_of_served (d : Dev) {via : Via} {op mask : Nat} (hvia : via ≠ .fabric)
    (hopen : pathOpen d via GLB_FW_CMD.off = true) (hop : op < 16) (hmask : mask < 2 ^ 19)
    (hok : (d.fwCmd via op mask).get GLB_FW_CMDSTAT.result ≠ 3) :
    d.fwWrite via op mask = (d.jnlChange (viaOrigin via) GLB_FW_CMD.off 0 0 (fwWord op mask)).fwCmd via op mask := by
  have hopField : fieldOf (fwWord op mask) 0 4 = op := by rw [fwWord, fieldOf_ofNat] <;> omega
  have hmaskField : fieldOf (fwWord op mask) 4 19 = mask := by rw [fwWord, fieldOf_ofNat] <;> omega
  rw [Dev.fwWrite, d.throughPath_of_pathOpen hopen, if_neg hvia]
  have hserved := d.command_of_served (refused := fun d => d.get GLB_FW_CMDSTAT.result == 3)
    (run := fun d => d.fwCmd via op mask) (by simpa using hok) via GLB_FW_CMD.off (fwWord op mask)
  rw [← hserved, Dev.writeFwCmd, hopField, hmaskField]
  rfl

theorem Dev.secWriteCmd_of_served (d : Dev) {via : Via} {op : Nat} (hopen : pathOpen d via SEC_CMD.off = true) (hop : op < 16)
    (hok : (d.secCmd via op).get SEC_CMDSTAT.result ≠ 3) :
    d.secWriteCmd via op = (d.jnlChange (viaOrigin via) SEC_CMD.off 0 0 (BitVec.ofNat 64 op)).secCmd via op := by
  have hopField : fieldOf (BitVec.ofNat 64 op) 0 4 = op := by rw [fieldOf_ofNat] <;> omega
  rw [Dev.secWriteCmd, d.throughPath_of_pathOpen hopen]
  have hserved := d.command_of_served (refused := fun d => d.get SEC_CMDSTAT.result == 3)
    (run := fun d => d.secCmd via op) (by simpa using hok) via SEC_CMD.off (BitVec.ofNat 64 op)
  rw [← hserved, Dev.writeSecCmd, hopField]
  rfl

theorem Dev.flag_of_get_zero {d : Dev} {f : RF} (h : d.get f = 0) : d.flag f = false := by rw [Dev.flag, h]; rfl

theorem Dev.flag_of_get_one {d : Dev} {f : RF} (h : d.get f = 1) : d.flag f = true := by rw [Dev.flag, h]; rfl

variable {d e : Dev} {via : Via}

theorem Dev.writeJnlCfg_enable {att : Reg64} (hoff : d.get JNL_CFG.export_en = 0)
    (he : e = d.writeFields (viaOrigin via) JNL_CFG.off 0 8 att) (hon : e.get JNL_CFG.export_en = 1) :
    d.writeJnlCfg via 0 8 att = e.exportStart := by
  have hwas := Dev.flag_of_get_zero hoff
  have hnow := Dev.flag_of_get_one hon
  subst he
  simp [Dev.writeJnlCfg, hwas, hnow]

theorem Dev.writeMgtCfg_enable {att : Reg64} (hoff : d.get MGT_CFG.mac_en = 0)
    (he : e = d.writeFields (viaOrigin via) MGT_CFG.off 0 8 att) (hon : e.get MGT_CFG.mac_en = 1) :
    d.writeMgtCfg via 0 8 att = e.macOn := by
  have hwas := Dev.flag_of_get_zero hoff
  have hnow := Dev.flag_of_get_one hon
  subst he
  simp [Dev.writeMgtCfg, hwas, hnow]

theorem Dev.writeMgtCfg_disable {att : Reg64} (hon : d.get MGT_CFG.mac_en = 1)
    (he : e = d.writeFields (viaOrigin via) MGT_CFG.off 0 8 att) (hoff : e.get MGT_CFG.mac_en = 0) :
    d.writeMgtCfg via 0 8 att = e.macOff := by
  have hwas := Dev.flag_of_get_one hon
  have hnow := Dev.flag_of_get_zero hoff
  subst he
  simp [Dev.writeMgtCfg, hwas, hnow]

theorem Dev.writeReset_key (d : Dev) (via : Via) :
    d.writeReset via 0 8 (BitVec.ofNat 64 (0x5752 + 2 ^ 16)) =
      (d.jnlChange (viaOrigin via) GLB_RESET.off 0 0 (BitVec.ofNat 64 (0x5752 + 2 ^ 16))).warmReset 2 (viaOrigin via) := by
  have hwarm : fieldOf (BitVec.ofNat 64 (0x5752 + 2 ^ 16)) 16 1 = 1 := by decide
  have hkey : fieldOf (BitVec.ofNat 64 (0x5752 + 2 ^ 16)) 0 16 = 0x5752 := by decide
  rw [Dev.writeReset, hwarm, hkey]
  rfl

end Sys2Proof.Machine

namespace Sys2Proof.Proofs
open Sys2Proof.Machine Sys2Proof.Claims

/-- Settles O1: the plain write ends in `writeFields`, and each joint operation in the branch of a defined, disarmed joint. -/
theorem registerAndJointWritesTakeEffect : Obligations.RegisterAndJointWritesTakeEffect := by
  refine ⟨?_, ?_, ?_, ?_⟩
  · intro via off v s hopen halign hreg hvia hplain
    rw [Answers, exec_registerWrite, Dev.regWrite, s.dev.throughPath_of_pathOpen hopen,
      s.dev.regEffect_of_plain halign hreg hvia hplain]
  · intro via b j t s d hopen hdef he hfree hrun
    show execArm via b j t s = _
    exact onDev_answers ((s.dev.throughPath_of_pathOpen hopen ..).trans (s.dev.armJoint_of_disarmed hdef he hfree hrun))
  · intro via b j t s hopen hdef
    show execDisarm via b j t s = _
    exact onDev_answers ((s.dev.throughPath_of_pathOpen hopen ..).trans (s.dev.disarmJoint_of_defined hdef ..))
  · intro via b j t s hopen hdef hfree
    show execJointRevert via b j t s = _
    exact onDev_answers ((s.dev.throughPath_of_pathOpen hopen ..).trans (s.dev.revertJoint_of_disarmed hdef hfree ..))

/-- Settles O2: each write takes the branch of its effect that the conditions choose. -/
theorem pegPowerAndThawWritesTakeEffect : Obligations.PegPowerAndThawWritesTakeEffect := by
  refine ⟨?_, ?_, ?_, ?_⟩
  · intro via ag peg n s hopen hpeg
    show execPegAdd via ag peg n s = _
    exact onDev_answers ((s.dev.throughPath_of_pathOpen hopen ..).trans (if_neg hpeg))
  · intro via dom req s e hopen he hnew hok
    show execDomainRequest via dom req s = _
    refine onDev_answers ((s.dev.throughPath_of_pathOpen hopen ..).trans ?_)
    exact (s.dev.writeDom_of_new req.isLt he hnew).trans (if_pos hok)
  · intro via w s hopen
    show execPrethawTarget via w s = _
    exact onDev_answers (s.dev.throughPath_of_pathOpen hopen ..)
  · intro p b s hopen hserves hfrozen
    show execBayThaw (.host p 0) b s = _
    exact onDev_answers ((s.dev.throughPath_of_pathOpen hopen ..).trans (s.dev.writeThaw_of_frozen hserves hfrozen))

/-- Settles O3: the write's en is not the ring's, so the write starts or stops the ring. -/
theorem ringEnableAndDisableTakeEffect : Obligations.RingEnableAndDisableTakeEffect := by
  refine ⟨?_, ?_⟩
  · intro via r s hopen hen hgood
    show execRingEnable via r s = _
    exact onDev_answers ((s.dev.throughPath_of_pathOpen hopen ..).trans (s.dev.writeRing_enable via hen hgood))
  · intro via r s hopen hen
    show execRingDisable via r s = _
    exact onDev_answers ((s.dev.throughPath_of_pathOpen hopen ..).trans (s.dev.writeRing_disable via hen))

/-- Settles O4: each write is written field by field and its unit acts on it. -/
theorem fabricAndFaultControlWritesTakeEffect : Obligations.FabricAndFaultControlWritesTakeEffect := by
  refine ⟨?_, ?_, ?_, ?_, ?_⟩
  · intro via p s hopen
    show execPortEnable via p s = _
    exact onDev_answers (s.dev.throughPath_of_pathOpen hopen ..)
  · intro via p s hopen
    show execPortDisable via p s = _
    exact onDev_answers (s.dev.throughPath_of_pathOpen hopen ..)
  · intro via x s hopen
    show execDeadClr via x s = _
    refine onDev_answers ((s.dev.throughPath_of_pathOpen hopen ..).trans ?_)
    exact s.dev.writeDeadClr_word via x.isLt
  · intro via s hopen
    show execUnfence via s = _
    exact onDev_answers (s.dev.throughPath_of_pathOpen hopen ..)
  · intro via b s hopen
    show execClearDropped via b s = _
    exact onDev_answers (s.dev.throughPath_of_pathOpen hopen ..)

/-- Settles O5: `Dev.fwWrite` journals the word and serves the operation that its fields name. -/
theorem firmwareCommandsAreServed : Obligations.FirmwareCommandsAreServed := by
  refine ⟨?_, ?_, ?_, ?_, ?_⟩
  · intro via s hvia hopen hok
    show execStage via s = _
    exact onDev_answers (s.dev.fwWrite_of_served (op := 1) hvia hopen (by decide) (by decide) hok)
  · intro via m s hvia hopen hok
    show execActivate via m s = _
    exact onDev_answers (s.dev.fwWrite_of_served (op := 2) hvia hopen (by decide) m.isLt hok)
  · intro via s hvia hopen hok
    show execCancel via s = _
    exact onDev_answers (s.dev.fwWrite_of_served (op := 3) hvia hopen (by decide) (by decide) hok)
  · intro via m s hvia hopen hok
    show execRestart via m s = _
    exact onDev_answers (s.dev.fwWrite_of_served (op := 4) hvia hopen (by decide) m.isLt hok)
  · intro via m s hvia hopen hok
    show execRevert via m s = _
    exact onDev_answers (s.dev.fwWrite_of_served (op := 5) hvia hopen (by decide) m.isLt hok)

/-- Settles O6: the commands journal and serve; the poll and the MAC start and stop with the field's change; the key matches. -/
theorem securityExportAndMacWritesTakeEffect : Obligations.SecurityExportAndMacWritesTakeEffect := by
  refine ⟨?_, ?_, ?_, ?_, ?_, ?_, ?_⟩
  · intro via s hopen hok
    show execInstallKeyPackage via s = _
    exact onDev_answers (s.dev.secWriteCmd_of_served hopen (by decide) hok)
  · intro via s hopen hok
    show execPresentOwnerRecord via s = _
    exact onDev_answers (s.dev.secWriteCmd_of_served hopen (by decide) hok)
  · intro via s hopen hok
    show execSealNow via s = _
    exact onDev_answers (s.dev.secWriteCmd_of_served hopen (by decide) hok)
  · intro via s e hopen hoff he hon
    show execExportEnable via s = _
    exact onDev_answers ((s.dev.throughPath_of_pathOpen hopen ..).trans (s.dev.writeJnlCfg_enable hoff he hon))
  · intro via s e hopen hoff he hon
    show execMacEnable via s = _
    exact onDev_answers ((s.dev.throughPath_of_pathOpen hopen ..).trans (s.dev.writeMgtCfg_enable hoff he hon))
  · intro via s e hopen hon he hoff
    show execMacDisable via s = _
    exact onDev_answers ((s.dev.throughPath_of_pathOpen hopen ..).trans (s.dev.writeMgtCfg_disable hon he hoff))
  · intro via s hopen
    show execWarmReset via 0x5752 s = _
    exact onDev_answers ((s.dev.throughPath_of_pathOpen hopen ..).trans (s.dev.writeReset_key via))

end Sys2Proof.Proofs
end

section
/-! # O7, O10 and O60: doorbells, ring events, the commands of a bay, and requests without effect -/

namespace Sys2Proof.Machine

variable {d e : Dev}

/-! ### Doorbells and ring events (chapter 19) -/

theorem Dev.sqDoorbell_of_accepted {p f r index : Nat} (hok : d.doorbellBad p f r index (d.sqSize r) = false)
    (hheld : d.doorbellHeld r = false) : d.sqDoorbell p f r index = d.putRing r { d.ringU r with tail := index } := by
  rw [Dev.sqDoorbell, hok, hheld]
  rfl

theorem Dev.sqDoorbell_of_bad {p f r index : Nat} (hbad : d.doorbellBad p f r index (d.sqSize r) = true) :
    d.sqDoorbell p f r index = d.incSat (HIF_PORT_STATUS.db_drop p) 1 := by
  rw [Dev.sqDoorbell, hbad]
  rfl

theorem Dev.cqDoorbell_of_accepted {p f r index : Nat} (hok : d.doorbellBad p f r index (d.cqSize r) = false)
    (hheld : d.doorbellHeld r = false) : d.cqDoorbell p f r index = d.takeHead r index := by
  rw [Dev.cqDoorbell, hok, hheld]
  rfl

theorem Dev.cqDoorbell_of_held {p f r index : Nat} (hok : d.doorbellBad p f r index (d.cqSize r) = false)
    (hheld : d.doorbellHeld r = true) : d.cqDoorbell p f r index = d.putRing r { d.ringU r with heldHead := some index } := by
  rw [Dev.cqDoorbell, hok, hheld]
  rfl

theorem Dev.cqDoorbell_of_bad {p f r index : Nat} (hbad : d.doorbellBad p f r index (d.cqSize r) = true) :
    d.cqDoorbell p f r index = d.incSat (HIF_PORT_STATUS.db_drop p) 1 := by
  rw [Dev.cqDoorbell, hbad]
  rfl

/-- A doorbell of the index that the queue shows stands for the whole queue only where it is full. -/
theorem Dev.takeHead_of_reported {r index n : Nat} (hn : n = (index + d.cqSize r - (d.ringU r).cqHead) % d.cqSize r)
    (hfull : n ≠ 0 ∨ (d.ringU r).cqUsed < d.cqSize r) :
    d.takeHead r index = ((d.putRing r { d.ringU r with cqHead := index, cqUsed := (d.ringU r).cqUsed - n }).releaseHeld r
      (d.ringU r).held.length).showRing r := by
  have hcount : (n = 0 && decide (d.cqSize r ≤ (d.ringU r).cqUsed)) = false := by
    rw [Bool.and_eq_false_iff, decide_eq_false_iff_not, decide_eq_false_iff_not]
    omega
  subst hn
  rw [Dev.takeHead, hcount]
  rfl

theorem Dev.commandFetch_of_running {r : Nat} (hrun : d.ringState r = 1) (hmore : d.get (RS.sqHead r) ≠ (d.ringU r).tail)
    (hmap : d.untranslated (d.ringPort r) (d.ringFunc r) (d.get (RQ.sqBase r) * 64 + d.get (RS.sqHead r) * 64) 64 = false) :
    d.commandFetch r false =
      ((d.fetchEntries r (64 - ((d.ringU r).fetched.length + (d.ringU r).started.length))).flushBad r 64).showRing r := by
  simp [Dev.commandFetch, hrun, hmore, hmap]

theorem Dev.coalesceTimeout_of_due {r : Nat} (hunsent : (d.ringU r).unsent ≠ 0)
    (hdue : (d.ringU r).firstNs + 1000 * d.get (RC.coalUs r) ≤ d.clk.timeNs) : d.coalesceTimeout r = d.signal r := by
  simp [Dev.coalesceTimeout, hunsent, hdue]

/-! ### The commands of a bay -/

theorem Dev.raiseCmd_of_admitted {c : Cmd} (he : e = d.startCmd c) (hadmit : e.admitStatus c = none) {n : Nat}
    (hn : n = (List.range 8).foldl (fun m k => match (e.bayU k).raise with | some r => max m (r.order + 1) | none => m) 0) :
    d.raiseCmd c =
      (e.putBay (c.num 8 1) { BayU.reset with
        raise := some { cmd := c, order := n, image := [], reserved := false, commitEdge := none, waitNs := none } }).sets
        [(SCH_BAY_STATE.state (c.num 8 1), bayRaising), (SCH_BAY_STATE.fab_tag (c.num 8 1), c.num 12 2),
          (SCH_BAY_RAISE.phase (c.num 8 1), 2)] := by
  subst hn
  unfold Dev.raiseCmd
  dsimp only
  rw [← he, hadmit] <;> rfl

theorem Dev.admitStatus_of_busy {c : Cmd} (hbusy : d.bayState (c.num 8 1) ≠ bayEmpty) : d.admitStatus c = some stNoResource := by
  simp [Dev.admitStatus, hbusy]

theorem Dev.bayState_startCmd (c : Cmd) (b : Nat) : (d.startCmd c).bayState b = d.bayState b := rfl

theorem Dev.raiseCmd_of_busy {c : Cmd} (hbusy : d.bayState (c.num 8 1) ≠ bayEmpty) :
    d.raiseCmd c = ((d.startCmd c).jnlEventAfter 0x12 0x0040 (regAddr (SCH_BAY_RAISE.off (c.num 8 1))) (stNoResource + 256)).complete c
      stNoResource 0 := by
  have hstill : ((d.startCmd c).bayState (c.num 8 1) == bayEmpty) = false := by simpa [Dev.bayState_startCmd] using hbusy
  unfold Dev.raiseCmd
  dsimp only
  rw [(d.startCmd c).admitStatus_of_busy hbusy]
  dsimp only
  rw [hstill]
  rfl

theorem Dev.strikeCmd_of_raised {c : Cmd} (he : e = d.startCmd c) (hraised : e.bayState c.bay = bayRaised) :
    d.strikeCmd c = e.putBay c.bay { e.bayU c.bay with
      strike := (e.bayU c.bay).strike ++ [c], strikeEdge := some ((e.bayU c.bay).strikeEdge.getD e.openEdge) } := by
  unfold Dev.strikeCmd
  dsimp only
  rw [← he, hraised]
  rfl

theorem Dev.strikeCmd_of_empty {c : Cmd} (hempty : d.bayState c.bay = bayEmpty) :
    d.strikeCmd c = (d.startCmd c).complete c stOk 0 := by
  unfold Dev.strikeCmd
  dsimp only
  rw [Dev.bayState_startCmd, hempty]
  rfl

theorem Dev.stepCmd_of_admitted {c : Cmd} (hok : d.stepRefusal c = none) : d.stepCmd c = d.makeReady c.ring := by
  rw [Dev.stepCmd, hok]

theorem Dev.stepCmd_of_timing {c : Cmd} (hen : d.flag (SCH_CTX_CFG.en c.bay c.ctx) = true) (htiming : d.timingSuits c.bay = false) :
    d.stepCmd c = d.complete c stNoResource 0 := by
  have hrefused : d.stepRefusal c = some stNoResource := by simp [Dev.stepRefusal, hen, htiming]
  rw [Dev.stepCmd, hrefused]

theorem Dev.snapshotCmd_of_raised {c : Cmd} (hraised : d.bayState c.bay = bayRaised)
    (hsnap : d.flag (FLT_BAY_CFG.snap_en c.bay) = true) (hhost : d.flag (FLT_BAY_CFG.host_en c.bay) = true) :
    d.snapshotCmd c = (d.startCmd c).putFltBay c.bay { d.fltBay c.bay with cmds := (d.fltBay c.bay).cmds ++ [c] } := by
  simp [Dev.snapshotCmd, hraised, hsnap, hhost]

theorem Dev.restoreCmd_of_raised {c : Cmd} (he : e = d.startCmd c) (hraised : e.bayState c.bay = bayRaised)
    (hnone : (e.fltBay c.bay).refill = none) (hfirst : c.num 10 2 < 32768) (hsecond : c.num 12 2 < 32768) :
    d.restoreCmd c = (e.putFltBay c.bay { e.fltBay c.bay with
      refill := some { cmd := c, begun := false, src := none, sources := [], srcVersion := 0, slotVersion := 0, slotBase := 0,
                       left := [], live := [], slotRec := [] } }).restoreBegin c.bay := by
  have hfirst' : ¬32768 ≤ c.num (10 + 2 * 0) 2 := Nat.not_le_of_lt hfirst
  have hsecond' : ¬32768 ≤ c.num (10 + 2 * 1) 2 := Nat.not_le_of_lt hsecond
  unfold Dev.restoreCmd
  dsimp only
  rw [← he, hraised, hnone, if_neg (by decide), if_neg hfirst', if_neg hsecond']
  rfl

theorem Dev.preemptCmd_of_idle {c : Cmd} (hen : d.flag (SCH_CTX_CFG.en c.bay (c.num 8 1)) = true)
    (hstate : d.get (SCH_CTX_STATE.state c.bay (c.num 8 1)) = 1)
    (he : e = (d.startCmd c).putCtx (8 * c.bay + c.num 8 1) { d.ctxU (8 * c.bay + c.num 8 1) with
      susReq := (d.ctxU (8 * c.bay + c.num 8 1)).susReq ++ [(c, d.openEdge)] }) :
    d.preemptCmd c = e.suspend (8 * c.bay + c.num 8 1) [(c, d.openEdge)] := by
  have hedge : e.openEdge = d.openEdge := by rw [he]; rfl
  unfold Dev.preemptCmd
  dsimp only
  rw [← he, hen, hstate, hedge]
  rfl

theorem Dev.resumeCmd_of_suspended {c : Cmd} (hen : d.flag (SCH_CTX_CFG.en c.bay (c.num 8 1)) = true)
    (hstate : d.get (SCH_CTX_STATE.state c.bay (c.num 8 1)) = 6) :
    d.resumeCmd c = (d.settleCtx (8 * c.bay + c.num 8 1)).complete c stOk 0 := by
  simp [Dev.resumeCmd, hen, hstate]

end Sys2Proof.Machine

namespace Sys2Proof.Proofs
open Sys2Proof.Machine Sys2Proof.Claims

/-- Settles O7: each event takes the branch of an accepted doorbell, of a running ring or of a due vector. -/
theorem queueCommandsTakeEffect : Obligations.QueueCommandsTakeEffect := by
  refine ⟨?_, ?_, ?_, ?_, ?_⟩
  · intro p f r i s hok hheld
    show execSqTailDoorbell p f r i s = _
    exact onDev_answers (Dev.sqDoorbell_of_accepted hok hheld)
  · intro p f r i s n hok hheld hn hfull
    show execCqHeadDoorbell p f r i s = _
    exact onDev_answers ((Dev.cqDoorbell_of_accepted hok hheld).trans (Dev.takeHead_of_reported hn hfull))
  · intro p f r i s hok hheld
    show execCqHeadDoorbell p f r i s = _
    exact onDev_answers (Dev.cqDoorbell_of_held hok hheld)
  · intro r s hrun hmore hmap
    show execCommandFetch r false s = _
    exact onDev_answers (Dev.commandFetch_of_running hrun hmore hmap)
  · intro r s hunsent hdue
    show execMsixCoalesceTimeout r s = _
    exact onDev_answers (Dev.coalesceTimeout_of_due hunsent hdue)

theorem hostCmd_answers {s : State} {r op : Nat} {c : Cmd} (h : atFront s.dev r op c = true) {run : Dev → Cmd → Dev} {e : Dev}
    (he : run s.dev c = e) : onDev s (fun d => d.hostCmd r op run) = .next { s with dev := e.flushBad r 64 } :=
  onDev_answers (he ▸ Dev.hostCmd_of_front h run)

/-- Settles O10: at the front of its ring each command takes the branch that its conditions choose. -/
theorem bayHostCommandsTakeEffect : Obligations.BayHostCommandsTakeEffect := by
  refine ⟨?_, ?_, ?_, ?_, ?_, ?_, ?_⟩
  · intro r c s d n h hd hadmit hn
    show execRaise r s = _
    exact hostCmd_answers h (Dev.raiseCmd_of_admitted hd hadmit hn)
  · intro r c s d h hd hraised
    show execStrike r s = _
    exact hostCmd_answers h (Dev.strikeCmd_of_raised hd hraised)
  · intro r c s h hok
    show execStep r s = _
    exact hostCmd_answers h (Dev.stepCmd_of_admitted hok)
  · intro r c s h hraised hsnap hhost
    show execSnapshot r s = _
    exact hostCmd_answers h (Dev.snapshotCmd_of_raised hraised hsnap hhost)
  · intro r c s h hraised hnone hfirst hsecond
    show execRestore r s = _
    exact hostCmd_answers h (Dev.restoreCmd_of_raised rfl hraised hnone hfirst hsecond)
  · intro r c s d h hen hstate hd
    show execPreempt r s = _
    exact hostCmd_answers h (Dev.preemptCmd_of_idle hen hstate hd)
  · intro r c s h hen hstate
    show execResume r s = _
    exact hostCmd_answers h (Dev.resumeCmd_of_suspended hen hstate)

/-- Settles O60: each request takes the branch of its refusal. -/
theorem refusedRequestsChangeNothingElse : Obligations.RefusedRequestsChangeNothingElse := by
  refine ⟨?_, ?_, ?_, ?_, ?_, ?_, ?_⟩
  · intro via ag n s hopen
    show execPegAdd via ag 0xFFF n s = _
    exact onDev_answers (s.dev.throughPath_of_pathOpen hopen ..)
  · intro via dom req s e hopen he hnew hbad
    show execDomainRequest via dom req s = _
    refine onDev_answers ((s.dev.throughPath_of_pathOpen hopen ..).trans ?_)
    exact (s.dev.writeDom_of_new req.isLt he hnew).trans (if_neg (by simp [hbad]))
  · intro p f r i s hbad
    show execSqTailDoorbell p f r i s = _
    exact onDev_answers (Dev.sqDoorbell_of_bad hbad)
  · intro p f r i s hbad
    show execCqHeadDoorbell p f r i s = _
    exact onDev_answers (Dev.cqDoorbell_of_bad hbad)
  · intro r c s h hbusy
    show execRaise r s = _
    exact hostCmd_answers h (Dev.raiseCmd_of_busy hbusy)
  · intro r c s h hempty
    show execStrike r s = _
    exact hostCmd_answers h (Dev.strikeCmd_of_empty hempty)
  · intro r c s h hen htiming
    show execStep r s = _
    exact hostCmd_answers h (Dev.stepCmd_of_timing hen htiming)

end Sys2Proof.Proofs
end

section
/-! # O11 to O15: the phases of a raise, the end of a strike, and the events of the tick -/

namespace Sys2Proof.Machine

variable {d e : Dev} {b : Nat} {r : RaiseRec}

/-! ### The phases of a raise (chapter 8) -/

theorem Dev.stagingDone_of_header (hphase : d.raising b 2 = some r) (hfirst : r.image = [])
    (hroom : d.stagedBytes + r.cmd.num 32 8 ≤ 2 ^ 30) (hsource : d.sourceOk r.cmd = true) (hhost : r.cmd.num 9 1 = 0)
    {img : List Byte} (himg : img = d.hostBytes r.cmd.port (r.cmd.num 24 8) (r.cmd.num 32 8))
    (hheader : imgHeaderOk img (d.get GLB_IDENT.stepping) (r.cmd.num 32 8) (r.cmd.num 12 2) = true)
    (hsec : d.bitOf GLB_FW_CMDSTAT.pending 0 = false) (hsch : d.bitOf GLB_FW_CMDSTAT.pending 2 = false) :
    d.stagingDone b true =
      (d.putBay b { d.bayU b with raise := some { r with image := img } }).set (SCH_BAY_RAISE.phase b) 3 := by
  have hready : (!r.image.isEmpty || decide (2 ^ 30 < d.stagedBytes + r.cmd.num 32 8)) = false := by
    rw [hfirst, decide_eq_false (Nat.not_lt.2 hroom)]
    rfl
  have himg' : (if r.cmd.num 9 1 == 0 then d.hostBytes r.cmd.port (r.cmd.num 24 8) (r.cmd.num 32 8)
      else d.localBytes (r.cmd.num 24 8) (r.cmd.num 32 8)) = img := by rw [hhost, himg]; rfl
  unfold Dev.stagingDone
  rw [hphase]
  dsimp only
  rw [hready, hsource, himg', hheader, hsec, hsch]
  rfl

theorem Dev.stagingDone_of_unreadable (hphase : d.raising b 2 = some r) (hfirst : r.image = [])
    (hroom : d.stagedBytes + r.cmd.num 32 8 ≤ 2 ^ 30) : d.stagingDone b false = d.raiseFail b stAccessDenied := by
  have hready : (!r.image.isEmpty || decide (2 ^ 30 < d.stagedBytes + r.cmd.num 32 8)) = false := by
    rw [hfirst, decide_eq_false (Nat.not_lt.2 hroom)]
    rfl
  unfold Dev.stagingDone
  rw [hphase]
  dsimp only
  rw [hready]
  rfl

theorem Dev.verificationDone_plain (hphase : d.raising b 3 = some r) (horder : d.behind r 3 = false)
    (hsec : d.get (GLB_FW_CORE.state 0) = 0) (howned : d.flag SEC_STATUS.owned = true) (hplain : r.cmd.num 10 1 = 0) :
    d.verificationDone b =
      if objectVerifies 1 d.board.ownerKeys r.image = true then d.set (SCH_BAY_RAISE.phase b) 4
      else (d.set SEC_EVENT.verify_fail 1).raiseFail b stSignatureFail := by
  unfold Dev.verificationDone
  rw [hphase]
  dsimp only
  rw [horder, hsec, howned, hplain]
  cases objectVerifies 1 d.board.ownerKeys r.image <;> rfl

theorem Dev.verificationDone_of_forged (hphase : d.raising b 3 = some r) (horder : d.behind r 3 = false)
    (hsec : d.get (GLB_FW_CORE.state 0) = 0) (hforged : objectVerifies 1 d.board.ownerKeys r.image = false) :
    d.verificationDone b = (d.set SEC_EVENT.verify_fail 1).raiseFail b stSignatureFail := by
  unfold Dev.verificationDone
  rw [hphase]
  dsimp only
  rw [horder, hsec, hforged, Bool.not_false, Bool.or_true]
  rfl

theorem Dev.contentDone_of_running (hphase : d.raising b 4 = some r) (hsch : d.schRunning = true) :
    d.contentDone b =
      if d.contentOk b r.image = true then d.set (SCH_BAY_RAISE.phase b) 5 else d.raiseFail b stBadCommand := by
  unfold Dev.contentDone
  rw [hphase]
  dsimp only
  rw [hsch]
  rfl

theorem Dev.reservationDone_of_grant (hphase : d.raising b 5 = some r) (hsch : d.schRunning = true) (hnew : r.reserved = false)
    (horder : d.behind r 5 = false) {ex : Tab Nat} {cs : List Nat} {base len : Nat}
    (hgrant : d.reserve b r.cmd r.image = .grant ex cs base len) (he : e = d.grantBay b r ex cs base len)
    (hactive : ((e.bayAgs b).all fun n => e.get (PWR_DOM.state (1 + n)) == 0) = true) :
    d.reservationDone b = e.set (SCH_BAY_RAISE.phase b) 6 := by
  unfold Dev.reservationDone
  rw [hphase]
  dsimp only
  rw [hsch, hnew, horder, hgrant]
  dsimp only
  rw [← he]
  exact if_pos hactive

theorem Dev.reservationDone_of_missing (hphase : d.raising b 5 = some r) (hsch : d.schRunning = true) (hnew : r.reserved = false)
    (horder : d.behind r 5 = false) (hmissing : d.reserve b r.cmd r.image = .missing) :
    d.reservationDone b = d.raiseFail b stNoResource := by
  unfold Dev.reservationDone
  rw [hphase]
  dsimp only
  rw [hsch, hnew, horder, hmissing]
  rfl

theorem Dev.thawTimeout_of_due (hphase : d.raising b 5 = some r) {t : Nat} (hwait : r.waitNs = some t)
    (hdue : t + 2000000000 ≤ d.clk.timeNs) : d.thawTimeout b = d.raiseFail b stNoResource := by
  unfold Dev.thawTimeout
  rw [hphase]
  dsimp only
  rw [hwait]
  exact if_pos hdue

theorem Dev.loadDone_of_clean (hphase : d.raising b 6 = some r) (hsch : d.schRunning = true) (hroom : d.jnlFull = false)
    (he : e = ((d.bayU b).extMap.foldl (fun d x => d.zeroLocal (extentBase ((x.2 - 1) / 96) ((x.2 - 1) % 96)) 0x200000) d).loadBent b
      r.image) :
    d.loadDone b none =
      (e.putBay b { e.bayU b with
        kind1 := ((imgRegs r.image).filter fun x => x.2.1 == 1).map fun x => (x.1, x.2.2.2.2),
        lightOk := imgNat r.image 11 1 % 2 == 1,
        raise := some { r with commitEdge := some e.openEdge } }).set (SCH_BAY_RAISE.phase b) 7 := by
  unfold Dev.loadDone
  rw [hphase]
  dsimp only
  rw [hsch, hroom, ← he]
  rfl

theorem Dev.loadDone_of_error (hphase : d.raising b 6 = some r) (hsch : d.schRunning = true) (hroom : d.jnlFull = false) (a : Nat) :
    d.loadDone b (some a) = (d.hbmError a .uncorrectable false).raiseFail b stInternal := by
  unfold Dev.loadDone
  rw [hphase]
  dsimp only
  rw [hsch, hroom]
  rfl

/-! ### The end of a strike -/

theorem Dev.strikeRelease_of_idle (hstate : d.bayState b = bayStriking) (hnew : (d.bayU b).released = false)
    (hidle : d.unitsIdle b = true) (hswitch : (d.bayU b).switch = none) (hsch : d.schRunning = true) :
    d.strikeRelease b = d.releaseBay b := by
  rw [Dev.strikeRelease, hstate, hnew, hidle, hswitch, hsch]
  rfl

theorem Dev.strikeScrubDone_of_released (hstate : d.bayState b = bayStriking) (hreleased : (d.bayU b).released = true) :
    d.strikeScrubDone b = (d.bayU b).strike.foldl (fun d c => d.complete c stOk 0) (d.scrubBay b) := by
  rw [Dev.strikeScrubDone, hstate, hreleased]
  rfl

theorem Dev.pageZeroed_of_dirty {u : Nat} {p : Nat × Nat} (hp : p ∈ d.dirty) (hlow : p.1 ≤ u) (hhigh : u < p.1 + p.2) :
    d.pageZeroed u = Dev.showFree
      { d with
        mem := { d.mem with loc := d.mem.loc.filter fun p => !(p.1 / 2 ^ 21 == u && !d.heldByte p.1) },
        dirty := d.dirty.flatMap fun r => splitRange r u } := by
  refine if_pos (List.any_eq_true.2 ⟨p, hp, ?_⟩)
  simp [hlow, hhigh]

/-! ### The events of the tick -/

theorem Dev.closeSet_of_released (hreleased : d.boot.released = true)
    (he : e = d.setTime (max d.clk.timeNs (d.clk.nextEdgeNs - 250))) :
    d.closeSet = { e with clk := { e.clk with setClosed := true } } := by
  subst he
  rw [Dev.closeSet, hreleased]
  rfl

theorem Dev.tickEdge_of_released (hreleased : d.boot.released = true) :
    d.tickEdge = ((List.range 19).foldl (fun d c => d.showRecent c)
      d.nextTick.edgeActions.setNextEdge.beginTick.jumpAtEdge.fwAdvance).warmCheck := by
  rw [Dev.tickEdge, hreleased]
  rfl

theorem Dev.tickPegIncrement_of_due {n : Nat} (hdue : (d.agU n).pegDue = true) (hrun : d.ccRunning n = true) :
    d.tickPegIncrement n = (d.putAg n { d.agU n with pegDue := false }).incPeg n 0xFFF 1 0 := by
  rw [Dev.tickPegIncrement, hdue, hrun]
  rfl

/-- A forwarded increment lands or is counted as stale, as its bay and its step number say (R120). -/
theorem Dev.pegForwardLand_of_oldest {src dst : Nat} {f : PegFwd} {rest : List PegFwd}
    (hf : takeFirst (fun f => f.srcAg == src && f.dstAg == dst) d.fwd = some (f, rest)) :
    d.pegForwardLand src dst =
      if d.bayOfAg dst = some f.bay ∧ d.get (SCH_BAY_STEPNO.step f.bay) % 256 = f.step8 then
        ({ d with fwd := rest } : Dev).addPeg dst f.peg f.amount 3
      else ({ d with fwd := rest } : Dev).incSat (AG_PEG_STATUS.stale_inc dst) 1 := by
  unfold Dev.pegForwardLand
  rw [hf]
  simp only [Bool.and_eq_true, beq_iff_eq]
  rfl

end Sys2Proof.Machine

namespace Sys2Proof.Proofs
open Sys2Proof.Machine Sys2Proof.Claims

/-- Settles O11: each phase takes the branch that its conditions choose. -/
theorem raisePhasesAdvance : Obligations.RaisePhasesAdvance := by
  refine ⟨?_, ?_, ?_, ?_, ?_⟩
  · intro b s r img hphase hfirst hroom hsource hhost himg hheader hsec hsch
    show execRaiseStagingDone b true s = _
    exact onDev_answers (Dev.stagingDone_of_header hphase hfirst hroom hsource hhost himg hheader hsec hsch)
  · intro b s r hphase horder hsec howned hplain
    show execRaiseVerificationDone b s = _
    exact onDev_answers (Dev.verificationDone_plain hphase horder hsec howned hplain)
  · intro b s r hphase hsch
    show execRaiseContentCheckDone b s = _
    exact onDev_answers (Dev.contentDone_of_running hphase hsch)
  · intro b s r ex cs base len e hphase hsch hnew horder hgrant he hactive
    show execRaiseReservationDone b s = _
    exact onDev_answers (Dev.reservationDone_of_grant hphase hsch hnew horder hgrant he hactive)
  · intro b s r e hphase hsch hroom he
    show execRaiseLoadDone b none s = _
    exact onDev_answers (Dev.loadDone_of_clean hphase hsch hroom he)

/-- Settles O12: each phase takes the branch of its failure. -/
theorem raiseFailuresComplete : Obligations.RaiseFailuresComplete := by
  refine ⟨?_, ?_, ?_, ?_, ?_⟩
  · intro b s r hphase hfirst hroom
    show execRaiseStagingDone b false s = _
    exact onDev_answers (Dev.stagingDone_of_unreadable hphase hfirst hroom)
  · intro b s r hphase horder hsec hforged
    show execRaiseVerificationDone b s = _
    exact onDev_answers (Dev.verificationDone_of_forged hphase horder hsec hforged)
  · intro b s r hphase hsch hnew horder hmissing
    show execRaiseReservationDone b s = _
    exact onDev_answers (Dev.reservationDone_of_missing hphase hsch hnew horder hmissing)
  · intro b s r t hphase hwait hdue
    show execRaiseThawTimeout b s = _
    exact onDev_answers (Dev.thawTimeout_of_due hphase hwait hdue)
  · intro b a s r hphase hsch hroom
    show execRaiseLoadDone b (some a) s = _
    exact onDev_answers (Dev.loadDone_of_error hphase hsch hroom _)

/-- Settles O13: the guards of the three events hold. -/
theorem strikeEndsAndPagesReturn : Obligations.StrikeEndsAndPagesReturn := by
  refine ⟨?_, ?_, ?_⟩
  · intro b s hstate hnew hidle hswitch hsch
    show execStrikeRelease b s = _
    exact onDev_answers (Dev.strikeRelease_of_idle hstate hnew hidle hswitch hsch)
  · intro b s hstate hreleased
    show execStrikeScrubDone b s = _
    exact onDev_answers (Dev.strikeScrubDone_of_released hstate hreleased)
  · intro u s p hp hlow hhigh
    show execHbmPageZeroed u s = _
    exact onDev_answers (Dev.pageZeroed_of_dirty hp hlow hhigh)

/-- Settles O14: after AO release the edge set closes and the edge runs; due and matching increments land. -/
theorem tickEventsTakeEffect : Obligations.TickEventsTakeEffect := by
  refine ⟨?_, ?_, ?_, ?_⟩
  · intro s e hreleased he
    show execEdgeSetClose s = _
    exact onDev_answers (Dev.closeSet_of_released hreleased he)
  · intro s d e ran hreleased hd hran he
    show execTickEdge s = _
    refine onDev_answers ?_
    rw [Dev.tickEdge_of_released hreleased, Dev.edgeActions, ← hd, ← hran, ← he]
  · intro n s hdue hrun
    show execTickPegIncrement n s = _
    exact onDev_answers (Dev.tickPegIncrement_of_due hdue hrun)
  · intro src dst s f rest hf hbay hstep
    show execPegForwardLand src dst s = _
    exact onDev_answers ((Dev.pegForwardLand_of_oldest hf).trans (if_pos ⟨hbay, hstep⟩))

/-- Settles O15: with another bay or another step number the increment is counted as stale. -/
theorem staleForwardsAreDropped : Obligations.StaleForwardsAreDropped := by
  intro src dst s f rest hf hstale
  show execPegForwardLand src dst s = _
  exact onDev_answers ((Dev.pegForwardLand_of_oldest hf).trans (if_neg (not_and_or.2 hstale)))

end Sys2Proof.Proofs
end

section
/-! # O16 and O17: chosen passes and the events of the arrays -/

namespace Sys2Proof.Machine

variable {d₀ d e : Dev} {a b cycle stall : Nat} {c : Choice} {q : Desc}

/-! ### Passes (chapters 4 and 5): `d` is the device after the check of the heads -/

section
variable (hd : d = d₀.fetchHeads a) (hchosen : d.chosen a 0 = some (b, c, q)) (hstart : d.mayStart a cycle = true)
include hd hchosen hstart

theorem Dev.wsGemm_of_ready {p : Pair} {rb : List (List Val)} (hpair : q.pair = some p) (hfmt : (Fmt.ofCode q.fmtOut).isSome = true)
    (hskip : d.skips b q = false) (hk : q.k ≠ 0) (hopen : d.ungated a = true)
    (hA : ((d.arrU a).stagedRows c false 0).isSome = true)
    (hB : ((d.arrU a).needsB q p (d.get (AG_ARR_STATUS.repair_skew (a / 6) (a % 6))) = false ∧ rb = []) ∨
      ((d.arrU a).needsB q p (d.get (AG_ARR_STATUS.repair_skew (a / 6) (a % 6))) = true ∧
        (d.arrU a).stagedRows c true 0 = some rb ∧
        (((d.arrU a).tileFor (q.key p ((bPieces q.split).headD 0))).isSome = true ∨ (d.arrU a).loadFrom + 1 ≤ cycle))) :
    d₀.wsGemm a cycle stall = d.wsRun b a c q p rb cycle stall := by
  obtain ⟨fo, hfo⟩ := Option.isSome_iff_exists.1 hfmt
  obtain ⟨ra, hra⟩ := Option.isSome_iff_exists.1 hA
  rcases hB with ⟨hneeds, rfl⟩ | ⟨hneeds, hrb, hload⟩
  · simp [Dev.wsGemm, ← hd, hchosen, hpair, hfo, hstart, hskip, hk, hopen, hra, hneeds]
  · have hload' : (((d.arrU a).tileFor (q.key p ((bPieces q.split).headD 0))).isSome || decide ((d.arrU a).loadFrom + 1 ≤ cycle)) =
        true := by rwa [Bool.or_eq_true, decide_eq_true_iff]
    simp only [Dev.wsGemm, ← hd, hchosen, hpair, hfo, hstart, hskip, hk, hopen, hra, hneeds, hrb, hload', Option.isNone_some,
      Bool.not_true, Bool.false_eq_true, if_false, if_true]

theorem Dev.wsGemm_of_empty {fo : Fmt} (hpair : q.pair.isSome = true) (hfmt : Fmt.ofCode q.fmtOut = some fo)
    (hskip : d.skips b q = false) (hk : q.k = 0) : d₀.wsGemm a cycle stall = d.wsEmpty b a c q fo cycle := by
  obtain ⟨p, hp⟩ := Option.isSome_iff_exists.1 hpair
  simp [Dev.wsGemm, ← hd, hchosen, hp, hfmt, hstart, hskip, hk]

theorem Dev.wsGemm_of_skip (hpair : q.pair.isSome = true) (hfmt : (Fmt.ofCode q.fmtOut).isSome = true)
    (hskip : d.skips b q = true) : d₀.wsGemm a cycle stall = d.skipPass b a c cycle := by
  obtain ⟨p, hp⟩ := Option.isSome_iff_exists.1 hpair
  obtain ⟨fo, hfo⟩ := Option.isSome_iff_exists.1 hfmt
  simp [Dev.wsGemm, ← hd, hchosen, hp, hfo, hstart, hskip]

end

section
variable (hd : d = d₀.fetchHeads a) (hchosen : d.chosen a 1 = some (b, c, q)) (hstart : d.mayStart a cycle = true)
include hd hchosen hstart

theorem Dev.osGemm_of_ready {p : Pair} {ra rb : List (List Val)} (hpair : q.pair = some p) (hskip : d.skips b q = false)
    (hk : q.k ≠ 0) (hopen : d.ungated a = true) (hA : (d.arrU a).stagedRows c false 0 = some ra)
    (hB : (d.arrU a).stagedRows c true 0 = some rb) : d₀.osGemm a cycle stall = d.osRun b a c q p rb cycle stall := by
  simp [Dev.osGemm, ← hd, hchosen, hpair, hstart, hskip, hk, hopen, hA, hB]

theorem Dev.osGemm_of_empty (hpair : q.pair.isSome = true) (hskip : d.skips b q = false) (hk : q.k = 0) :
    d₀.osGemm a cycle stall = d.osEmpty b a c q cycle := by
  obtain ⟨p, hp⟩ := Option.isSome_iff_exists.1 hpair
  simp [Dev.osGemm, ← hd, hchosen, hp, hstart, hskip, hk]

theorem Dev.osGemm_of_skip (hpair : q.pair.isSome = true) (hskip : d.skips b q = true) :
    d₀.osGemm a cycle stall = d.skipPass b a c cycle := by
  obtain ⟨p, hp⟩ := Option.isSome_iff_exists.1 hpair
  simp [Dev.osGemm, ← hd, hchosen, hp, hstart, hskip]

end

theorem Dev.wload_mayLoad (hsplit : (d.arrU a).splitTo ≤ cycle)
    (hfeed : ((d.arrU a).feeding.any fun r => r.desc.split != 0) = false) :
    (decide (cycle < (d.arrU a).splitTo) || (d.arrU a).feeding.any fun r => r.desc.split != 0) = false := by
  rw [hfeed, decide_eq_false (Nat.not_lt.2 hsplit)]
  rfl

section
variable (hd : d = d₀.fetchHeads a) (hchosen : d.chosen a 2 = some (b, c, q)) (hsplit : (d.arrU a).splitTo ≤ cycle)
  (hfeed : ((d.arrU a).feeding.any fun r => r.desc.split != 0) = false)
include hd hchosen hsplit hfeed

theorem Dev.wloadPass_of_ready {p : Pair} {rb : List (List Val)} (hpair : q.pair = some p) (hskip : d.skips b q = false)
    (hfree : (d.arrU a).tileFor (q.key p q.wloadPiece) = none) (hk : q.k ≠ 0) (hopen : d.ungated a = true)
    (hB : (d.arrU a).stagedRows c true 0 = some rb) (hload : (d.arrU a).loadFrom ≤ cycle)
    (he : e = ((d.countStall b a stall c).set (AG_ARR_STATUS.groups_ungated (a / 6) (a % 6)) 16).putArr a
      { d.arrU a with shadowT := some { key := q.key p q.wloadPiece, rows := pieceRows q.split q.wloadPiece rb },
                      lastL := cycle, lastK := q.k }) :
    d₀.wloadPass a cycle stall = e.enterFlight b a c cycle (cycle + q.k + q.n - 1) [] false := by
  have hmay := Dev.wload_mayLoad hsplit hfeed
  unfold Dev.wloadPass
  rw [← hd]
  dsimp only
  rw [hchosen]
  dsimp only
  rw [hpair]
  dsimp only
  rw [hmay, hskip, hfree, hopen, hB, he]
  simp [hk, Nat.not_lt.2 hload]

theorem Dev.wloadPass_of_loaded {p : Pair} (hpair : q.pair = some p) (hskip : d.skips b q = false)
    (hloaded : ((d.arrU a).tileFor (q.key p q.wloadPiece)).isSome = true ∨ q.k = 0) :
    d₀.wloadPass a cycle stall = d.enterFlight b a c cycle (cycle + 1) [] false := by
  have hmay := Dev.wload_mayLoad hsplit hfeed
  simp only [Dev.wloadPass, ← hd, hchosen, hpair, hmay, hskip, Bool.false_eq_true, if_false, Bool.or_eq_true, decide_eq_true_eq,
    hloaded, if_true]

theorem Dev.wloadPass_of_skip (hpair : q.pair.isSome = true) (hskip : d.skips b q = true) :
    d₀.wloadPass a cycle stall = d.skipPass b a c cycle := by
  obtain ⟨p, hp⟩ := Option.isSome_iff_exists.1 hpair
  have hmay := Dev.wload_mayLoad hsplit hfeed
  simp only [Dev.wloadPass, ← hd, hchosen, hp, hmay, hskip, Bool.false_eq_true, if_false, if_true]

end

section
variable (hd : d = d₀.fetchHeads a) (hchosen : d.chosen a 3 = some (b, c, q)) (hstart : d.mayStart a cycle = true)
include hd hchosen hstart

theorem Dev.drainPass_of_ready {ch : Chain} {fo : Fmt} (hchain : (d.arrU a).chain = some ch) (hfmt : Fmt.ofCode q.fmtOut = some fo)
    (hskip : d.skips b q = false) (hflight : ((d.arrU a).inflight.any fun r => r.desc.op == 1) = false)
    (hdone : (d.arrU a).osDone ≤ cycle) (hopen : d.ungated a = true) :
    d₀.drainPass a cycle stall = d.drainRun b a c q ch.mode fo cycle stall := by
  have hidle : ((d.arrU a).inflight.any (fun r => r.desc.op == 1) || decide (cycle < (d.arrU a).osDone)) = false := by
    rw [hflight, decide_eq_false (Nat.not_lt.2 hdone)]
    rfl
  simp only [Dev.drainPass, ← hd, hchosen, hchain, hfmt, hstart, hskip, hidle, hopen, Bool.not_true, Bool.false_eq_true, if_false]

theorem Dev.drainPass_of_skip (hchain : (d.arrU a).chain.isSome = true) (hfmt : (Fmt.ofCode q.fmtOut).isSome = true)
    (hskip : d.skips b q = true) : d₀.drainPass a cycle stall = d.skipPass b a c cycle := by
  obtain ⟨ch, hch⟩ := Option.isSome_iff_exists.1 hchain
  obtain ⟨fo, hfo⟩ := Option.isSome_iff_exists.1 hfmt
  simp only [Dev.drainPass, ← hd, hchosen, hch, hfo, hstart, hskip, Bool.not_true, Bool.false_eq_true, if_false, if_true]

end

/-! ### The events of an array -/

theorem Dev.passComplete_of_next {r : PassRec} (hbay : d.bayOfAg (a / 6) = some b) (hnext : nextDone (d.arrU a).inflight = some r)
    (hcurrent : r.current = true)
    (he : e = (d.putArr a { d.arrU a with
        inflight := (d.arrU a).inflight.erase r,
        disp := { (d.arrU a).disp with outstanding := (d.arrU a).disp.outstanding - 1 } }).incWrap
      (AG_ARR_STATUS.passes (a / 6) (a % 6)) 1) :
    d.passComplete a = ((if r.mismatch = true then e.countMismatch b a else e).incPeg (a / 6) r.desc.oPeg 1 0).settleArray a := by
  unfold Dev.passComplete
  rw [hbay, hnext]
  dsimp only
  rw [hcurrent, he]
  rfl

theorem Dev.arrayStartGrant_of_spaced {n y x : Nat} {rest : List (Nat × Nat)} (hreq : (d.agU n).startReq = (y, x) :: rest)
    (hspaced : ∀ l, (d.agU n).lastStart = some l → l + 16 ≤ cycle) :
    d.arrayStartGrant n cycle =
      (d.putAg n { d.agU n with startReq := rest, lastStart := some cycle }).set (AG_ARR_STATUS.groups_ungated n x) 16 := by
  unfold Dev.arrayStartGrant
  dsimp only
  rw [hreq]
  dsimp only
  refine if_neg ?_
  cases hlast : (d.agU n).lastStart with
  | none => exact Bool.false_ne_true
  | some l =>
    have := hspaced l hlast
    simpa using this

theorem Dev.stagingComplete_early {isB : Bool} {m : MeshWait} {g : Staged}
    (hd : d = (d₀.meshWaits (a / 6) m).putArr a
      { (d₀.meshWaits (a / 6) m).arrU a with
        meshStall := ((d₀.meshWaits (a / 6) m).arrU a).meshStall + max m.static m.bestEffort })
    (hbay : d.bayOfAg (a / 6) = some b) (hnext : d.nextStage b a isB = some g) (hearly : isB = true ∨ d.blockDue b a = none) :
    d₀.stagingComplete a isB stall m none = d.putArr a { d.arrU a with staged := (d.arrU a).staged ++ [g] } := by
  have hlate : (!isB && (d.blockDue b a).isSome) = false := by
    rcases hearly with h | h <;> simp [h]
  unfold Dev.stagingComplete
  dsimp only
  rw [← hd, hbay]
  dsimp only
  rw [hnext]
  dsimp only
  rw [hlate]
  rfl

theorem Dev.stagingComplete_late {m : MeshWait} {g : Staged}
    (hd : d = (d₀.meshWaits (a / 6) m).putArr a
      { (d₀.meshWaits (a / 6) m).arrU a with
        meshStall := ((d₀.meshWaits (a / 6) m).arrU a).meshStall + max m.static m.bestEffort })
    (hbay : d.bayOfAg (a / 6) = some b) (hnext : d.nextStage b a false = some g) (hlate : (d.blockDue b a).isSome = true)
    (he : e = d.putArr a { d.arrU a with staged := (d.arrU a).staged ++ [g] }) :
    d₀.stagingComplete a false stall m none = (e.fedLate b a stall).takeBlocks b a (e.arrU a).staged.length := by
  unfold Dev.stagingComplete
  dsimp only
  rw [← hd, hbay]
  dsimp only
  rw [hnext]
  dsimp only
  rw [← he, hlate]
  rfl

theorem Dev.drainRowEnqueue_of_landed {w : Nat} {r : PassRec} {left : List (Nat × List Byte)} {u : ArrayU}
    (hbay : d.bayOfAg (a / 6) = some b) (hrow : (d.arrU a).inflight.find? (fun r => !r.rowsLeft.isEmpty) = some r)
    (hland : d.landRows b a r.rowsLeft = (e, left)) (hsome : left.length ≠ r.rowsLeft.length)
    (hu : u = (e.incWrap (AG_VEC_PERF.drain_wait (a / 6) (a % 6)) w).arrU a) :
    d.drainRowEnqueue a w = (e.incWrap (AG_VEC_PERF.drain_wait (a / 6) (a % 6)) w).putArr a
      { u with freeAt := u.freeAt + w,
               inflight := u.inflight.map fun q => if q == r then { q with rowsLeft := left, pegCycle := q.pegCycle + w } else q } := by
  unfold Dev.drainRowEnqueue
  rw [hbay, hrow]
  dsimp only
  rw [hland, hu]
  exact if_neg hsome

theorem Dev.locateTest_of_idle (hset : (d.arrU a).locate = 1) (hflight : (d.arrU a).inflight = [])
    (hidle : ∀ b, d.bayOfAg (a / 6) = some b → d.bayBusy b = false) (htime : d.clk.timeNs + 1138 ≤ d.clk.nextEdgeNs - 250) :
    d.locateTest a = d.putArr a { d.arrU a with locate := 2, active := none, shadowT := none, acc := [], accChk := [] } := by
  unfold Dev.locateTest
  refine if_pos ?_
  rw [hset, hflight, decide_eq_true htime]
  cases hbay : d.bayOfAg (a / 6) with
  | none => rfl
  | some b => simp [hidle b hbay]

theorem Dev.locateTestDone_of_clean (hset : (d.arrU a).locate = 2) :
    d.locateTestDone a [] =
      ((d.putArr a { d.arrU a with locate := 0 }).set (AG_ARR_EVENT.locate_done (a / 6) (a % 6)) 1).set
        (AG_ARR_EVENT.locate_clean (a / 6) (a % 6)) 1 := by
  unfold Dev.locateTestDone
  exact if_pos hset

end Sys2Proof.Machine

namespace Sys2Proof.Proofs
open Sys2Proof.Machine Sys2Proof.Claims

/-- Settles O16: each kind of pass takes the branch that its operands choose. -/
theorem chosenPassesRun : Obligations.ChosenPassesRun := by
  refine ⟨?_, ?_, ?_, ?_, ?_, ?_, ?_, ?_, ?_, ?_, ?_⟩
  · intro a cycle stall s d b c q p rb hd hchosen hpair hfmt hstart hskip hk hopen hA hB
    show execWsGemm a cycle stall s = _
    exact onDev_answers (Dev.wsGemm_of_ready hd hchosen hstart hpair hfmt hskip hk hopen hA hB)
  · intro a cycle stall s d b c q fo hd hchosen hpair hfmt hstart hskip hk
    show execWsGemm a cycle stall s = _
    exact onDev_answers (Dev.wsGemm_of_empty hd hchosen hstart hpair hfmt hskip hk)
  · intro a cycle stall s d b c q p ra rb hd hchosen hpair hstart hskip hk hopen hA hB
    show execOsGemm a cycle stall s = _
    exact onDev_answers (Dev.osGemm_of_ready hd hchosen hstart hpair hskip hk hopen hA hB)
  · intro a cycle stall s d b c q hd hchosen hpair hstart hskip hk
    show execOsGemm a cycle stall s = _
    exact onDev_answers (Dev.osGemm_of_empty hd hchosen hstart hpair hskip hk)
  · intro a cycle stall s d b c q p rb e hd hchosen hpair hsplit hfeed hskip hfree hk hopen hB hload he
    show execWload a cycle stall s = _
    exact onDev_answers (Dev.wloadPass_of_ready hd hchosen hsplit hfeed hpair hskip hfree hk hopen hB hload he)
  · intro a cycle stall s d b c q p hd hchosen hpair hsplit hfeed hskip hloaded
    show execWload a cycle stall s = _
    exact onDev_answers (Dev.wloadPass_of_loaded hd hchosen hsplit hfeed hpair hskip hloaded)
  · intro a cycle stall s d b c q ch fo hd hchosen hchain hfmt hstart hskip hflight hdone hopen
    show execDrain a cycle stall s = _
    exact onDev_answers (Dev.drainPass_of_ready hd hchosen hstart hchain hfmt hskip hflight hdone hopen)
  · intro a cycle stall s d b c q hd hchosen hpair hfmt hstart hskip
    show execWsGemm a cycle stall s = _
    exact onDev_answers (Dev.wsGemm_of_skip hd hchosen hstart hpair hfmt hskip)
  · intro a cycle stall s d b c q hd hchosen hpair hstart hskip
    show execOsGemm a cycle stall s = _
    exact onDev_answers (Dev.osGemm_of_skip hd hchosen hstart hpair hskip)
  · intro a cycle stall s d b c q hd hchosen hpair hsplit hfeed hskip
    show execWload a cycle stall s = _
    exact onDev_answers (Dev.wloadPass_of_skip hd hchosen hsplit hfeed hpair hskip)
  · intro a cycle stall s d b c q hd hchosen hchain hfmt hstart hskip
    show execDrain a cycle stall s = _
    exact onDev_answers (Dev.drainPass_of_skip hd hchosen hstart hchain hfmt hskip)

/-- Settles O17: each event takes the branch that its conditions choose. -/
theorem arrayEventsTakeEffect : Obligations.ArrayEventsTakeEffect := by
  refine ⟨?_, ?_, ?_, ?_, ?_, ?_, ?_⟩
  · intro a s b r e hbay hnext hcurrent he
    show execPassComplete a s = _
    exact onDev_answers (Dev.passComplete_of_next hbay hnext hcurrent he)
  · intro n cycle y x rest s hreq hspaced
    show execArrayStartGrant n cycle s = _
    exact onDev_answers (Dev.arrayStartGrant_of_spaced hreq hspaced)
  · intro a isB stall m s b g d hd hbay hnext hearly
    show execStagingComplete a isB { stall := stall, mesh := m, buf := none } s = _
    exact onDev_answers (Dev.stagingComplete_early hd hbay hnext hearly)
  · intro a stall m s b g d e hd hbay hnext hlate he
    show execStagingComplete a false { stall := stall, mesh := m, buf := none } s = _
    exact onDev_answers (Dev.stagingComplete_late hd hbay hnext hlate he)
  · intro a w s b r e left u hbay hrow hland hsome hu
    show execDrainRowEnqueue a w s = _
    exact onDev_answers (Dev.drainRowEnqueue_of_landed hbay hrow hland hsome hu)
  · intro a s hset hflight hidle htime
    show execLocateTest a s = _
    exact onDev_answers (Dev.locateTest_of_idle hset hflight hidle htime)
  · intro a s hset
    show execLocateTestDone a [] s = _
    exact onDev_answers (Dev.locateTestDone_of_clean hset)

end Sys2Proof.Proofs
end

section
/-! # O23 to O25: patrols and repairs, DMA descriptors, and scheduling -/

namespace Sys2Proof.Machine

variable {d e : Dev}

/-! ### Patrols and repairs (chapters 6 and 11) -/

theorem Dev.tmPatrol_of_up {n line : Nat} (hup : d.sliceUp n = true) (hline : line < 3145728) (f : EccFinding) :
    d.tmPatrol n line f = d.tmError n line f := by
  rw [Dev.tmPatrol, hup, decide_eq_true hline]
  rfl

section
variable {n line cause : Nat} {u : AgU} (hroom : d.jnlFull = false)
  (hdue : (d.agU n).retireDue.find? (fun p => p.1 == line) = some (line, cause))
  (hu : u = { d.agU n with retireDue := (d.agU n).retireDue.filter fun p => p.1 != line })
include hroom hdue hu

theorem Dev.tmLineRetire_of_spare {used : Nat} (hused : used = Tab.get (fun _ => 0) u.sparesUsed (lineBank line)) (hspare : used < 256)
    (he : e = ((d.putAg n { u with
        remapped := Tab.put (fun _ => 0) u.remapped line (used + 1),
        sparesUsed := Tab.put (fun _ => 0) u.sparesUsed (lineBank line) (used + 1) }).incSat (AG_TM_ERR.retired n) 1).set
      (AG_TM_EVENT.retired n) 1) :
    d.tmLineRetire n line =
      ((e.set (AG_TM_STATUS.spares_min n) (min (e.get (AG_TM_STATUS.spares_min n)) (255 - used))).jnlEvent 0x50 0x0002
        (lineAddr n line) (used % 256 + 256 * cause)).fieldUpdate fun r => { r with lines := r.lines ++ [(n, line, used)] } := by
  subst he hused hu
  unfold Dev.tmLineRetire
  dsimp only
  rw [hdue]
  dsimp only
  rw [hroom, if_neg Bool.false_ne_true]
  exact if_pos hspare

theorem Dev.tmLineRetire_of_exhausted (hused : 256 ≤ Tab.get (fun _ => 0) u.sparesUsed (lineBank line))
    (hnew : u.failed.contains (line / 32768) = false) :
    d.tmLineRetire n line =
      ((((d.putAg n { u with failed := u.failed ++ [line / 32768] }).set (AG_TM_EVENT.extent_failed n) 1).set
        (AG_TM_STATUS.failed_extents n) (u.failed.length + 1)).jnlEvent 0x50 0x0003 (extentBase n (line / 32768)) 0).fieldUpdate
        fun r => { r with extents := r.extents ++ [(n, line / 32768)] } := by
  subst hu
  unfold Dev.tmLineRetire
  dsimp only
  rw [hdue]
  dsimp only
  rw [hroom, if_neg Bool.false_ne_true]
  refine (if_neg (Nat.not_lt.2 hused)).trans (if_neg ?_)
  simpa using hnew

end

section
variable {a : Nat} (husable : d.bitOf GLB_STATUS.stack_usable (a / 2 ^ 36) = true) (f : EccFinding)
include husable

theorem Dev.hbmPatrol_by_patrol (hactive : d.memActive = true) : d.hbmPatrol a f .patrol = d.hbmError a f true := by
  rw [Dev.hbmPatrol, husable]
  exact if_pos hactive

theorem Dev.hbmPatrol_by_unit (b : BayId) :
    d.hbmPatrol a f (.unit b) =
      if f = .uncorrectable then (d.hbmError a f false).endStepEarly b.val stInternal else d.hbmError a f false := by
  rw [Dev.hbmPatrol, husable]
  simp only [Bool.not_true, Bool.false_eq_true, if_false, beq_iff_eq]

theorem Dev.hbmPatrol_by_device : d.hbmPatrol a f .device = d.hbmError a f false := by
  rw [Dev.hbmPatrol, husable]
  rfl

end

theorem Dev.hbmTemps_of_up (hup : d.get (PWR_DOM.state 19) < 2) (temps : List Nat)
    (he : e = temps.zipIdx.foldl (fun (d : Dev) p =>
      (if decide (105 ≤ p.1) && !d.flag (MEM_STACK_STATUS.hot p.2) then d.set MEM_EVENT.hot 1 else d).sets
        [(MEM_STACK_STATUS.temp_c p.2, p.1), (MEM_STACK_STATUS.refresh p.2, if p.1 < 85 then 0 else if p.1 < 95 then 1 else 2),
          (MEM_STACK_STATUS.hot p.2, (decide (105 ≤ p.1)).toNat)]) d) :
    d.hbmTemps temps = ({ e with pwr := { e.pwr with hotCap := hotCaps e.pwr.hotCap temps } } : Dev).set PWR_THERM.hbm_max
      (temps.foldl max 0) := by
  subst he
  exact if_neg fun h => Nat.not_le.2 hup (of_decide_eq_true h)

section
variable {a row cause : Nat} (hrow : row = hbmRow a) (hroom : d.jnlFull = false)
  (hdue : d.rowDue.find? (fun p => p.1 == row) = some (row, cause))
include hrow hroom hdue

theorem Dev.hbmRowRepair_soft (hfree : d.sppr.contains (hbmChannel a, Config.hbmBank row) = false)
    (he : e = { d with rowDue := d.rowDue.filter (fun p => p.1 != row),
                       sppr := d.sppr ++ [(hbmChannel a, Config.hbmBank row)] }) :
    d.hbmRowRepair a =
      (((e.incSat (MEM_STACK_ERR.sppr_used (a / 2 ^ 36)) 1).set MEM_EVENT.repaired 1).jnlEvent 0x50 0x0004 (row * 32768)
        (2 * cause)).fieldUpdate fun r => { r with rows := r.rows ++ [(row, 0)] } := by
  subst hrow he
  unfold Dev.hbmRowRepair
  dsimp only
  rw [hdue]
  dsimp only
  rw [hroom, hfree]
  rfl

theorem Dev.hbmRowRepair_remap {k : Nat} (htaken : d.sppr.contains (hbmChannel a, Config.hbmBank row) = true)
    (hk : k = Tab.get (fun _ => 0) d.remaps (hbmChannel a)) (hlane : k < 64)
    (he : e = { d with rowDue := d.rowDue.filter (fun p => p.1 != row),
                       remaps := Tab.put (fun _ => 0) d.remaps (hbmChannel a) (k + 1) }) :
    d.hbmRowRepair a =
      (((e.incSat (MEM_STACK_ERR.remap_used (a / 2 ^ 36)) 1).set MEM_EVENT.repaired 1).jnlEvent 0x50 0x0004 (row * 32768)
        (1 + 2 * cause + 256 * k)).fieldUpdate fun r => { r with rows := r.rows ++ [(row, 1 + k)] } := by
  subst hrow he
  unfold Dev.hbmRowRepair
  dsimp only
  rw [hdue]
  dsimp only
  rw [hroom, htaken, ← hk]
  exact if_pos hlane

end

/-! ### DMA descriptors (chapter 6) -/

/-- A ready engine whose descriptor is valid starts it. -/
theorem Dev.dmaStart_of_valid {n b op : Nat} {q : DmaDesc} (hready : d.dmaReady n = some b)
    (hq : q = DmaDesc.of (d.dmaWord b n 0) (d.dmaWord b n 1) (d.dmaWord b n 2) (d.dmaWord b n 3)) (hop : q.op = op)
    (hvalid : d.dmaCheck b (d.dmaWord b n 0) (d.dmaWord b n 1) (d.dmaWord b n 2) (d.dmaWord b n 3) = none)
    (he : e = d.dmaAdvance n { id := (d.dmaU n).started, w0 := d.dmaWord b n 0, w1 := d.dmaWord b n 1,
                               w2 := d.dmaWord b n 2, w3 := d.dmaWord b n 3 }) :
    d.dmaStart n op none =
      if q.remSrc || q.remDst then e.dmaRemote b n (d.dmaU n).started q
      else if q.op = 0 then e.copyLocal b q else e.fillLocal b q := by
  have hmine : (q.op != op && decide (q.op < 2)) = false := by simp [hop]
  unfold Dev.dmaStart
  rw [hready]
  dsimp only
  rw [← hq, hmine, hvalid, if_neg Bool.false_ne_true]
  dsimp only
  rw [← he]

theorem Dev.dmaComplete_of_acknowledged {n slot : Nat} {r : DmaRec} (hslot : (d.dmaU n).inflight[slot]? = some r)
    (hacked : d.owing (Owner.ofDma n r.id) = false)
    (he : e = (d.putDma n { d.dmaU n with inflight := (d.dmaU n).inflight.eraseIdx slot }).incWrap
      (AG_DMA_STATUS.completed (n / 4) (n % 4)) 1) :
    d.dmaComplete n slot =
      if (DmaDesc.of r.w0 r.w1 r.w2 r.w3).donePeg = 0xFFF then e
      else e.incPeg (n / 4) (DmaDesc.of r.w0 r.w1 r.w2 r.w3).donePeg 1 (DmaDesc.of r.w0 r.w1 r.w2 r.w3).cause := by
  unfold Dev.dmaComplete
  dsimp only
  rw [hslot]
  dsimp only
  rw [hacked, if_neg Bool.false_ne_true, ← he]

/-! ### Scheduling (chapters 9 and 10) -/

section
variable {b : Nat} {r : StepRec} (hlive : d.liveStep b = some r) (hopen : d.get (SCH_BAY_TRAIN.gate b) < 2)
  (hreached : d.gateReached b = true) (hread : ∀ u, (d.fltBay b).snap = some u → u.reading = false)
include hlive hopen hreached hread

/-- A gate that is reached, with its collectives done and no snapshot reading, decides (R220). -/
theorem Dev.gateDecision_of_done (hdone : d.get (SCH_BAY_GATECFG.gate_colls b) ≤ d.get (SCH_BAY_TRAIN.gate_done b)) :
    d.gateDecision b = d.set (SCH_BAY_TRAIN.gate b)
      (if (if d.get (SCH_BAY_GATECFG.gate_colls b) = 0 then d.flag (SCH_BAY_VFLAG.nonfinite b) else r.returned) then 3 else 2) := by
  have hgo : (decide (2 ≤ d.get (SCH_BAY_TRAIN.gate b)) || !d.gateReached b) = false := by
    rw [hreached, decide_eq_false (Nat.not_le.2 hopen)]
    rfl
  unfold Dev.gateDecision
  rw [hlive]
  dsimp only
  rw [hgo, if_neg Bool.false_ne_true, decide_eq_true hdone]
  refine if_pos ?_
  cases hsnap : (d.fltBay b).snap with
  | none => rfl
  | some u => simp [hread u hsnap]

end

theorem Dev.preemptDrainEnd_of_ready {b : Nat} {r : StepRec} (hstep : (d.bayU b).step = some r) (he : e = d.drainEnd b)
    (hended : (e.bayU b).step = none) (hready : e.get (SCH_CTX_STATE.state b r.ctx) = 2) :
    d.preemptDrainEnd b = e.chooseAfterDrain b := by
  subst he
  unfold Dev.preemptDrainEnd
  rw [hstep]
  dsimp only
  rw [hended, hready]
  rfl

theorem Dev.bayState_set (d : Dev) {f : RF} {b : Nat} (h : SCH_BAY_STATE.off b < f.off) (n : Nat) :
    (d.set f n).bayState b = d.bayState b := Dev.get_set_reg _ _ _ _ (Nat.ne_of_lt h)

theorem SCH_BAY_STATE.off_lt_ctxWait {b : Nat} (hb : b < 8) (x : Nat) : SCH_BAY_STATE.off b < SCH_CTX_WAIT.off b x := by
  unfold SCH_BAY_STATE.off SCH_CTX_WAIT.off
  omega

theorem Dev.saveDone_of_clean {b us o : Nat} {sw : SwitchRec} {mid full : Bool} {f d' : Dev} (hb : b < 8)
    (hswitch : (d.bayU b).switch = some sw) (hout : sw.out = some o) (hstate : d.bayState b ≠ bayStriking)
    (hd : d' = d.set (SCH_CTX_WAIT.last_save_us b o) (min us 0xFFFF)) (hmid : mid = (d'.ctxU (8 * b + o)).pre.isSome)
    (hfull : full = !d'.flag (SCH_CTX_CFG.mode b o))
    (he : e = d'.fresh.2.putBayBytes b (d'.get (SCH_CTX_SAVE.save_base b o)) (saveBytes d'.fresh.1 (d'.saveSize b mid full)))
    (hf : f = (e.putCtx (8 * b + o) { e.ctxU (8 * b + o) with
        saved := some (d'.saveState b mid full d'.fresh.1),
        pre := (e.ctxU (8 * b + o)).pre.map fun r => { r with saveUs := r.saveUs + us } }).set (SCH_CTX_STATE.saved b o)
      (if mid then 2 else 1)) :
    d.saveDone b us none = f.putBay b { f.bayU b with switch := some { sw with out := none } } := by
  have hstate' : ¬(d'.bayState b == bayStriking) = true := by
    rw [hd, d.bayState_set (SCH_BAY_STATE.off_lt_ctxWait hb o)]
    simpa using hstate
  unfold Dev.saveDone
  rw [hswitch]
  dsimp only
  rw [hout]
  dsimp only
  subst hf he hfull hmid hd
  exact if_neg hstate'

theorem Dev.restoreDone_of_saved {b us : Nat} {sw : SwitchRec} {c d' f : Dev} {u : CtxU} {sv : SavedState}
    (hswitch : (d.bayU b).switch = some sw) (hout : sw.out = none) (hedge : sw.doneEdge = none) (hstate : d.bayState b ≠ bayStriking)
    (hc : c = d.set (SCH_BAY_RUN.switching b) 0) (hu : u = c.ctxU (8 * b + sw.inn)) (hsaved : u.saved = some sv)
    (hd : d' = (((c.savedOf b sw.inn sv).2.loadState b (c.savedOf b sw.inn sv).1 (!c.flag (SCH_CTX_CFG.mode b sw.inn))).set
        (SCH_CTX_WAIT.last_restore_us b sw.inn) (min us 0xFFFF)).putCtx (8 * b + sw.inn)
      { u with saved := none, pre := u.pre.map fun r => { r with restoreUs := r.restoreUs + us, restored := true } })
    (he : e = d'.sets [(SCH_BAY_RUN.resident b, sw.inn), (SCH_BAY_RUN.resident_valid b, 1),
      (SCH_CTX_STATE.saved b sw.inn, if u.pre.isSome then 3 else 0)])
    (hf : f = if e.get (SCH_CTX_STATE.state b sw.inn) = 3 then e.set (SCH_CTX_STATE.state b sw.inn) 2 else e) :
    d.restoreDone b us = f.putBay b { f.bayU b with switch := some { sw with doneEdge := some f.openEdge } } := by
  have hstate' : ¬(c.bayState b == bayStriking) = true := by
    rw [hc, Dev.bayState, Dev.get_set_reg]
    · exact fun h => hstate (beq_iff_eq.1 h)
    · simp only [SCH_BAY_STATE.state, SCH_BAY_RUN.switching, SCH_BAY_STATE.off, SCH_BAY_RUN.off]
      omega
  have hf' : f = if (e.get (SCH_CTX_STATE.state b sw.inn) == 3) = true then e.set (SCH_CTX_STATE.state b sw.inn) 2 else e := by
    simpa only [beq_iff_eq] using hf
  unfold Dev.restoreDone
  rw [hswitch]
  dsimp only
  rw [hout, hedge, ← hc, ← hu, hsaved]
  dsimp only
  clear hf
  subst hf' he hd
  exact if_neg hstate'

end Sys2Proof.Machine

namespace Sys2Proof.Proofs
open Sys2Proof.Machine Sys2Proof.Claims

/-- Settles O23: each finding, retirement, repair or reading takes the branch that its conditions choose. -/
theorem patrolsAndRepairsTakeEffect : Obligations.PatrolsAndRepairsTakeEffect := by
  refine ⟨?_, ?_, ?_, ?_, ?_, ?_, ?_, ?_, ?_⟩
  · intro n line f s hup hline
    show execTmPatrol n line f s = _
    exact onDev_answers (Dev.tmPatrol_of_up hup hline f)
  · intro n line s cause used u e hroom hdue hu hused hspare he
    show execTmLineRetire n line s = _
    exact onDev_answers (Dev.tmLineRetire_of_spare hroom hdue hu hused hspare he)
  · intro n line s cause u hroom hdue hu hused hnew
    show execTmLineRetire n line s = _
    exact onDev_answers (Dev.tmLineRetire_of_exhausted hroom hdue hu hused hnew)
  · intro a f s hactive husable
    show execHbmPatrol a { ecc := f, reader := .patrol } s = _
    exact onDev_answers (Dev.hbmPatrol_by_patrol husable f hactive)
  · intro a f b s husable
    show execHbmPatrol a { ecc := f, reader := .unit b } s = _
    exact onDev_answers (Dev.hbmPatrol_by_unit husable f b)
  · intro a f s husable
    show execHbmPatrol a { ecc := f, reader := .device } s = _
    exact onDev_answers (Dev.hbmPatrol_by_device husable f)
  · intro t s d hup hd
    show execHbmTemperatureRead t s = _
    exact onDev_answers (Dev.hbmTemps_of_up hup _ hd)
  · intro a s row cause d hrow hroom hdue hfree hd
    show execHbmRowRepair a s = _
    exact onDev_answers (Dev.hbmRowRepair_soft hrow hroom hdue hfree hd)
  · intro a s row cause k d hrow hroom hdue htaken hk hlane hd
    show execHbmRowRepair a s = _
    exact onDev_answers (Dev.hbmRowRepair_remap hrow hroom hdue htaken hk hlane hd)

/-- Settles O24: a valid descriptor runs as its op and its sides say; an acknowledged one completes. -/
theorem dmaDescriptorsRun : Obligations.DmaDescriptorsRun := by
  refine ⟨?_, ?_, ?_, ?_⟩
  · intro n s b q d hready hq hop hsrc hdst hvalid hd
    show execDmaCopy n none s = _
    refine onDev_answers ((Dev.dmaStart_of_valid hready hq hop hvalid hd).trans ?_)
    rw [hsrc, hdst, if_neg (by decide), if_pos hop]
  · intro n s b q d hready hq hop hremote hvalid hd
    show execDmaCopy n none s = _
    exact onDev_answers ((Dev.dmaStart_of_valid hready hq hop hvalid hd).trans (if_pos hremote))
  · intro n s b q d hready hq hop hsrc hdst hvalid hd
    show execDmaFill n s = _
    refine onDev_answers ((Dev.dmaStart_of_valid hready hq hop hvalid hd).trans ?_)
    rw [hsrc, hdst, if_neg (by decide), if_neg (by omega)]
    rfl
  · rintro n k m s r c d rfl hslot hacked hd
    show execDmaComplete n { slot := k, mesh := m } s = _
    exact onDev_answers (Dev.dmaComplete_of_acknowledged hslot hacked hd)

/-- Settles O25: the gate, the drain, the save and the restore take the branch that their conditions choose. -/
theorem schedulingEventsTakeEffect : Obligations.SchedulingEventsTakeEffect := by
  refine ⟨?_, ?_, ?_, ?_, ?_⟩
  · intro b s r hlive hopen hreached hcolls hread
    show execGateDecision b s = _
    refine onDev_answers ((Dev.gateDecision_of_done hlive hopen hreached hread (by omega)).trans ?_)
    rw [if_pos hcolls]
  · intro b s r hlive hopen hreached hcolls hdone hread
    show execGateDecision b s = _
    refine onDev_answers ((Dev.gateDecision_of_done hlive hopen hreached hread hdone).trans ?_)
    rw [if_neg (Nat.pos_iff_ne_zero.1 hcolls)]
  · intro b s r e hstep he hended hready
    show execPreemptDrainEnd b s = _
    exact onDev_answers (Dev.preemptDrainEnd_of_ready hstep he hended hready)
  · intro b us s sw o d e f mid full hswitch hout hstate hd hmid hfull he hf
    show execContextSaveDone b us none s = _
    exact onDev_answers (Dev.saveDone_of_clean b.isLt hswitch hout hstate hd hmid hfull he hf)
  · intro b us s sw c d e f u sv hswitch hout hedge hstate hc hu hsaved hd he hf
    show execContextRestoreDone b us s = _
    exact onDev_answers (Dev.restoreDone_of_saved hswitch hout hedge hstate hc hu hsaved hd he hf)

end Sys2Proof.Proofs
end

section
/-! # O26 to O29: link bring-up, credits and retry, heartbeats, and lane retirement (chapters 12, 13 and 15) -/

namespace Sys2Proof.Machine

variable {d e : Dev} {p : Nat}

/-- A time that has come is not before now. -/
theorem decide_lt_of_due {t now : Nat} (h : t ≤ now) : decide (now < t) = false := decide_eq_false (Nat.not_lt.2 h)

/-! ### Bring-up -/

theorem Dev.signalDetect_of_all (hstate : d.portState p = psDetect) (hretired : d.retiredLanes p = [])
    (hrecord : (d.port p).toRecord = none) :
    d.signalDetect p 0xFF = (d.updPort p fun u => { u with lanes := 0xFF }).setPort p psTrain := by
  have huse : (List.range 8).foldl (fun m l => if (0xFF : Nat).testBit l && !([] : List Nat).contains l then m + 2 ^ l else m) 0 = 0xFF := by
    decide
  have hleft : laneCount ((List.range 8).foldl (fun m l => if ([] : List Nat).contains l then m else m + 2 ^ l) 0) = 8 := by decide
  have hcount : laneCount 0xFF = 8 := by decide
  unfold Dev.signalDetect
  rw [hstate, hretired, hrecord]
  simp only [Option.toList_none, List.append_nil, huse, hleft, hcount]
  cases d.isEthernet p <;> rfl

theorem Dev.linkInit_of_direct (hstate : d.portState p = psLinkInit) (hether : d.isEthernet p = false) (rsv : List Nat) :
    d.linkInit p rsv =
      ((d.updPort p fun u =>
        { u with txSeq := 0, rxSeq := 0, unrep := 0, nakSent := false, retry := [], progressNs := d.clk.timeNs,
                 peerRsv := rsv ++ [2048 - rsv.foldl (· + ·) 0], used := List.replicate 9 0, lastCum := List.replicate 9 0,
                 freed := List.replicate 9 0, owed := false, buffer := [], accepted := false, matched := false }).setPort p
        psHandshake).sendRecord p := by
  rw [Dev.linkInit, hstate, hether]
  rfl

theorem Dev.linkInit_of_ethernet (hstate : d.portState p = psLinkInit) (hether : d.isEthernet p = true) (rsv : List Nat) :
    d.linkInit p rsv = (d.setPort p psActive).sendRecord p := by
  rw [Dev.linkInit, hstate, hether]
  rfl

/-- A record that the device has stored before and that passes its checks takes a matched port to ACTIVE (R278). -/
theorem Dev.handshake_of_match {r : Nat} {d' : Dev} (hdirect : d.isDirect p = true) (hstate : d.portState p = psHandshake)
    (hd : d' = ((List.range 6).foldl (fun d i => d.set (FABP_PEER.record p i) (r / 2 ^ (64 * i))) d).checkConflict r)
    (hsame : ((List.range 6).all fun i => d.get (FABP_PEER.record p i) == r / 2 ^ (64 * i) % 2 ^ 64) = true)
    (hgood : d'.recordFails p r = 0)
    (he : e = ((d'.set (FABP_STATUS.hs_fail p) 0).updPort p fun u =>
      { u with accepted := true, matched := (r / 2 ^ 11) % 2 == 1 }).sendRecord p)
    (hmatched : (e.port p).matched = true) :
    d.handshake p r =
      (((e.updPort p fun u => { u with returning := false }).setPort p psActive).recordLane p).drainQueue p
        (((e.updPort p fun u => { u with returning := false }).setPort p psActive).port p).queue.length := by
  unfold Dev.handshake
  dsimp only
  rw [hdirect, hstate, if_neg (by decide), hsame, ← hd, if_pos rfl, if_neg (by decide), hgood, if_neg (by decide)]
  have he' : ((d'.set (FABP_STATUS.hs_fail p) 0).updPort p fun u =>
      { u with accepted := (0 : Nat) == 0, matched := (r / 2 ^ 11) % 2 == 1 }).sendRecord p = e := he.symm
  rw [he', hmatched]
  rfl

theorem Dev.handshakeResend_of_due (hdirect : d.isDirect p = true) (hstate : d.portState p = psHandshake)
    (hdue : (d.port p).recordNs + 10000 ≤ d.clk.timeNs) : d.handshakeResend p = d.sendRecord p := by
  unfold Dev.handshakeResend
  dsimp only
  rw [hdirect, hstate, if_neg (by decide), if_pos (by decide)]
  exact if_neg (Nat.not_lt.2 hdue)

/-! ### Credits and retry -/

theorem Dev.ackCredit_of_cover {seq rtt : Nat} {cum : List Nat} (hdirect : d.isDirect p = true) (hstate : d.portState p = psActive)
    (hcover : (coverFlits seq (d.port p).retry).length < (d.port p).retry.length) :
    d.ackCredit p seq cum rtt =
      ((d.putPort p { d.port p with
          used := ((d.port p).used.zip ((cum.zip (d.port p).lastCum).map fun e => aheadOf 65536 e.1 e.2)).map (fun e => e.1 - e.2),
          lastCum := cum, retry := (coverFlits seq (d.port p).retry).map (fun f => { f with resent := 0 }),
          progressNs := d.clk.timeNs }).set (FABP_STATUS.rtt_ns p) rtt).drainQueue p (d.port p).queue.length := by
  unfold Dev.ackCredit
  dsimp only
  rw [hdirect, hstate, if_neg (by decide), if_pos hcover]

/-- What a NAK finds behind the flits before the one that it names. -/
theorem dropWhile_before {before l : List Flit} {f : Flit} {seq : Nat} (hf : f.seq = seq) (hbefore : ∀ g ∈ before, g.seq ≠ seq) :
    (before ++ f :: l).dropWhile (fun f => f.seq != seq) = f :: l := by
  rw [List.dropWhile_append_of_pos fun g hg => by simpa using hbefore g hg, List.dropWhile_cons_of_neg (by simp [hf])]

theorem Dev.nak_of_held {seq : Nat} {before l : List Flit} {f : Flit} (hdirect : d.isDirect p = true)
    (hstate : d.portState p = psActive) (hretry : (d.port p).retry = before ++ f :: l) (hf : f.seq = seq)
    (hbefore : ∀ g ∈ before, g.seq ≠ seq) :
    d.nak p seq =
      ((d.incSat (FABP_ERR.retries p) 1).putPort p { d.port p with
        retry := before ++ (f :: l).map fun f => { f with resent := f.resent + 1 } }).emit (.resend p seq (f :: l).length) := by
  have htake : (before ++ f :: l).take ((before ++ f :: l).length - (f :: l).length) = before := by
    rw [List.length_append, Nat.add_sub_cancel, List.take_left']
    rfl
  unfold Dev.nak
  dsimp only
  rw [hdirect, hstate, if_neg (by decide), hretry, dropWhile_before hf hbefore, htake]
  rfl

theorem Dev.retrain_of_cause {fec : Bool} (hdirect : d.isDirect p = true) (hstate : d.portState p = psActive)
    (hcause : fec = true ∨ ((d.port p).retry.any fun f => decide (4 ≤ f.resent)) = true ∨
      ((d.port p).retry ≠ [] ∧ (d.port p).progressNs + 5000 ≤ d.clk.timeNs))
    (he : e = (d.updPort p fun u => { u with retry := [], unrep := 0 }).setPort p psRetrain) :
    d.retrain p fec = if (d.port p).retry = [] then e else e.sendNotice 1 ((e.peerId p).getD 0) p := by
  have hgo : (fec || (((d.port p).retry.any fun f => decide (4 ≤ f.resent)) ||
      (!(d.port p).retry.isEmpty && decide ((d.port p).progressNs + 5000 ≤ d.clk.timeNs)))) = true := by
    simpa using hcause
  unfold Dev.retrain
  dsimp only
  rw [hdirect, hstate, hgo, if_neg (by decide), ← he]
  simp only [List.isEmpty_iff]

/-! ### Heartbeats -/

theorem Dev.heartbeat_of_active (hdirect : d.isDirect p = true) (hstate : d.portState p = psActive)
    (he : e = (d.incWrap (FABP_HB.hb_rx p) 1).updPort p (fun u => { u with hbNs := some d.clk.timeNs })) :
    d.heartbeat p = if e.flag (FABP_STATUS.dead p) then (e.set (FABP_STATUS.dead p) 0).chooseMaster else e := by
  subst he
  unfold Dev.heartbeat
  dsimp only
  rw [hdirect, hstate, if_neg (by decide)]
  exact if_pos (by decide)

theorem Dev.heartbeat_of_counting (hdirect : d.isDirect p = true)
    (hstate : d.portState p = psHandshake ∨ d.portState p = psWithdrawn) : d.heartbeat p = d.incWrap (FABP_HB.hb_rx p) 1 := by
  unfold Dev.heartbeat
  dsimp only
  rcases hstate with h | h
  · rw [hdirect, h, if_neg (by decide), if_neg (by decide)]
  · rw [hdirect, h, if_neg (by decide), if_neg (by decide)]

theorem Dev.heartbeatSend_of_due (hstate : d.portState p = psActive) (hdue : (d.port p).hbSentNs + 1000 ≤ d.clk.timeNs)
    (he : e = d.putPort p { d.port p with hbSentNs := d.clk.timeNs, hbCount := ((d.port p).hbCount + 1) % 2 ^ 32 }) :
    d.heartbeatSend p =
      if e.isDirect p then e.emit (.flit p 0xA (toBytes 2 e.myId ++ toBytes 4 (d.port p).hbCount ++ toBytes 1 p))
      else (e.hbPeersOf p).foldl (fun d q => d.toPort p (d.macOf p q) (d.mkControl q 0x07 [])) e := by
  unfold Dev.heartbeatSend
  dsimp only
  rw [hstate, decide_lt_of_due hdue, if_neg (by decide), ← he]

theorem Dev.peerDead_of_direct {t : Nat} (hdirect : d.isDirect p = true) (hlast : (d.port p).hbNs = some t)
    (hdue : t + 8050 ≤ d.clk.timeNs) (hwithdrawn : d.portState p ≠ psWithdrawn) (hdisabled : d.portState p ≠ psDisabled)
    (hback : (d.port p).returning = false) (x : Option Nat) : d.peerDead p x = d.declarePeer p (d.peerId p) := by
  have hgo : (decide (d.clk.timeNs < t + 8050) || d.portState p == psWithdrawn || d.portState p == psDisabled ||
      (d.port p).returning) = false := by
    simp [decide_lt_of_due hdue, hwithdrawn, hdisabled, hback]
  unfold Dev.peerDead
  dsimp only
  rw [hdirect, if_pos rfl, hlast]
  dsimp only
  rw [hgo]
  exact if_neg Bool.false_ne_true

theorem Dev.peerDead_of_named {t x : Nat} (hdirect : d.isDirect p = false) (hether : d.isEthernet p = true)
    (hlast : (d.port p).hbNs = some t) (hdue : t + 8050 ≤ d.clk.timeNs)
    (hown : Tab.get (fun _ => 0) (d.port p).hbPeers x - 1 + 8050 ≤ d.clk.timeNs) (hwithdrawn : d.portState p ≠ psWithdrawn)
    (hdisabled : d.portState p ≠ psDisabled) (hnamed : (d.hbPeersOf p).contains x = true)
    (halive : (d.port p).deadPeers.contains x = false) : d.peerDead p (some x) = d.declarePeer p (some x) := by
  have hseen : max t (Tab.get (fun _ => 0) (d.port p).hbPeers x - 1) + 8050 ≤ d.clk.timeNs := by omega
  have hgo : (!d.isEthernet p || d.portState p == psWithdrawn || d.portState p == psDisabled || !(d.hbPeersOf p).contains x ||
      (d.port p).deadPeers.contains x ||
      decide (d.clk.timeNs < max t (Tab.get (fun _ => 0) (d.port p).hbPeers x - 1) + 8050)) = false := by
    rw [hether, hnamed, halive, decide_lt_of_due hseen, beq_false_of_ne hwithdrawn, beq_false_of_ne hdisabled]
    rfl
  unfold Dev.peerDead
  dsimp only
  rw [hdirect, if_neg Bool.false_ne_true, hlast]
  dsimp only
  rw [hgo]
  exact if_neg Bool.false_ne_true

/-- An operation on a packet that has come acts on it. -/
theorem Dev.onPacket_of_taken {op : Nat} {type : Option Nat} {p : Nat} {pkt : Packet} {e : Dev}
    (h : d.takePacket op type = some (p, pkt, e)) (f : Dev → Nat → Packet → Dev) : d.onPacket op type f = f e p pkt := by
  rw [Dev.onPacket, h]

/-! ### Lane retirement -/

theorem Dev.retire_of_request {lane : Nat} (hdirect : d.isDirect p = true) (hstate : d.portState p = psActive)
    (hreq : (d.port p).reqNs = none) :
    d.retire p 0 lane = ((d.updPort p fun u => { u with reqNs := none }).sendRetire p 1 lane).withdraw p lane := by
  unfold Dev.retire
  dsimp only
  rw [hdirect, hstate, hreq]
  rfl

theorem Dev.retireAgain_of_due {l t : Nat} (hwant : (d.port p).want = some l) (hstate : d.portState p = psActive)
    (hreq : (d.port p).reqNs = some t) (hdue : t + 10000 ≤ d.clk.timeNs) :
    d.retireAgain p = (d.putPort p { d.port p with reqNs := some d.clk.timeNs }).sendRetire p 0 l := by
  unfold Dev.retireAgain
  dsimp only
  rw [hwant]
  dsimp only
  rw [hstate, hreq]
  refine if_neg ?_
  simp [decide_lt_of_due hdue]

theorem Dev.drained_of_disabling (hstate : d.portState p = psWithdrawn) (hretry : (d.port p).retry = [])
    (hdisabling : (d.port p).disabling = true) :
    d.drained p = ((d.updPort p fun u => { u with disabling := false, retiring := none, want := none, hbNs := none }).setPort p
      psDisabled).fabRest (fabDom p) := by
  unfold Dev.drained
  dsimp only
  rw [hstate, hretry, if_neg (by decide), hdisabling]
  rfl

theorem Dev.laneRetire_of_due {l : Nat} (hdue : (d.port p).laneDue.contains l = true) (hstate : d.portState p = psActive)
    (hroom : d.jnlFull = false)
    (he : e = (d.jnlEvent 0x50 0x0007 (regAddr (FABP_CFG.off p)) l).updPort p
      (fun u => { u with laneDue := u.laneDue.filter (· != l) })) :
    d.laneRetire p l =
      if e.isDirect p then (e.updPort p fun u => { u with want := some l, reqNs := some e.clk.timeNs }).sendRetire p 0 l
      else (e.fieldUpdate fun b => { b with lanes := b.lanes ++ [(p, l)] }).withdraw p l := by
  unfold Dev.laneRetire
  dsimp only
  rw [hdue, hstate, hroom, if_neg (by decide), ← he]

end Sys2Proof.Machine

namespace Sys2Proof.Proofs
open Sys2Proof.Machine Sys2Proof.Claims

/-- Settles O26: each event takes the branch of the port's state. -/
theorem linkBringUp : Obligations.LinkBringUp := by
  refine ⟨?_, ?_, ?_, ?_, ?_, ?_, ?_, ?_, ?_⟩
  · intro p s hstate hretired hrecord
    show execPortSignalDetect p 0xFF s = _
    exact onDev_answers (Dev.signalDetect_of_all hstate hretired hrecord)
  · intro p s hstate
    show execLinkTrainingDone p s = _
    exact onDev_answers (if_pos (beq_iff_eq.2 hstate))
  · intro p s d hstate hdue hd
    show execTrainTimeout p s = _
    refine onDev_answers ?_
    dsimp only
    rw [hstate, decide_lt_of_due hdue, if_neg (by decide), ← hd]
  · intro p s d hstate _ hd hdirect
    show execAlignDone p s = _
    refine onDev_answers ?_
    dsimp only
    rw [hstate, if_neg (by decide), ← hd]
    exact if_pos hdirect
  · intro p s hstate hdue
    show execAlignTimeout p s = _
    refine onDev_answers ?_
    dsimp only
    rw [hstate, decide_lt_of_due hdue, if_neg (by decide)]
  · intro p n s hstate hether
    show execInitFlits p n s = _
    exact onDev_answers (Dev.linkInit_of_direct hstate hether _)
  · intro p n s hstate hether
    show execInitFlits p n s = _
    exact onDev_answers (Dev.linkInit_of_ethernet hstate hether _)
  · intro p r s d e hdirect hstate hd hsame hgood he hmatched
    show execHandshake p r s = _
    exact onDev_answers (Dev.handshake_of_match hdirect hstate hd hsame hgood he hmatched)
  · intro p s hdirect hstate hdue
    show execHandshakeResend p s = _
    exact onDev_answers (Dev.handshakeResend_of_due hdirect hstate hdue)

/-- Settles O27: each event takes the branch of an ACTIVE port. -/
theorem linkCreditsAndRetry : Obligations.LinkCreditsAndRetry := by
  refine ⟨?_, ?_, ?_, ?_, ?_⟩
  · rintro p q n sh rtt s _ hdirect hstate rfl hcover
    show execAckCredit p q n sh rtt s = _
    exact onDev_answers (Dev.ackCredit_of_cover hdirect hstate hcover)
  · intro p s howed hdue
    show execAckCreditTimer p s = _
    refine onDev_answers (if_neg ?_)
    rw [decide_lt_of_due hdue]
    simpa [imp_iff_not_or] using howed
  · intro p q s before f l hdirect hstate hretry hf hbefore
    show execNak p q s = _
    exact onDev_answers (Dev.nak_of_held hdirect hstate hretry hf hbefore)
  · intro p fec s d hdirect hstate hcause hd
    show execRetrain p fec s = _
    exact onDev_answers (Dev.retrain_of_cause hdirect hstate hcause hd)
  · intro p m on s hether hstate
    show execPfcPause p m on s = _
    refine onDev_answers ?_
    dsimp only
    rw [hether, hstate, if_neg (by decide)]

/-- Settles O28: each event takes the branch of its port's state and of its times. -/
theorem heartbeatsTakeEffect : Obligations.HeartbeatsTakeEffect := by
  refine ⟨?_, ?_, ?_, ?_, ?_, ?_⟩
  · intro p x n s d hdirect hstate hd
    show execHeartbeat p x n s = _
    exact onDev_answers (Dev.heartbeat_of_active hdirect hstate hd)
  · intro p x n s hdirect hstate
    show execHeartbeat p x n s = _
    exact onDev_answers (Dev.heartbeat_of_counting hdirect hstate)
  · intro p s d hstate hdue hd
    show execHeartbeatSend p s = _
    exact onDev_answers (Dev.heartbeatSend_of_due hstate hdue hd)
  · intro p x s t hdirect hlast hdue hwithdrawn hdisabled hback
    show execPeerDead p x s = _
    exact onDev_answers (Dev.peerDead_of_direct hdirect hlast hdue hwithdrawn hdisabled hback _)
  · intro p x s t hdirect hether hlast hdue hown hwithdrawn hdisabled hnamed halive
    show execPeerDead p (some x) s = _
    exact onDev_answers (Dev.peerDead_of_named hdirect hether hlast hdue hown hwithdrawn hdisabled hnamed halive)
  · intro s p pkt d e hpkt hether hstate hnamed he
    show execHeartbeatControl s = _
    refine onDev_answers ((Dev.onPacket_of_taken hpkt _).trans ?_)
    dsimp only
    rw [hether, hstate, hnamed, if_neg (by decide), ← he]
    simp only [List.isEmpty_iff]

/-- Settles O29: each event takes the branch of its port's state. -/
theorem laneRetirementTakesEffect : Obligations.LaneRetirementTakesEffect := by
  refine ⟨?_, ?_, ?_, ?_, ?_⟩
  · intro p lane s hdirect hstate hreq
    show execRetire p 0 lane s = _
    exact onDev_answers (Dev.retire_of_request hdirect hstate hreq)
  · intro p s l t hwant hstate hreq hdue
    show execRetireRequestTimeout p s = _
    exact onDev_answers (Dev.retireAgain_of_due hwant hstate hreq hdue)
  · intro p s hstate hretry hdisabling
    show execWithdrawDrained p s = _
    exact onDev_answers (Dev.drained_of_disabling hstate hretry hdisabling)
  · intro p l s d hdue hstate hroom hd
    show execLaneRetire p l s = _
    exact onDev_answers (Dev.laneRetire_of_due hdue hstate hroom hd)
  · intro p n u s
    rfl

end Sys2Proof.Proofs
end

section
/-! # O30 and O31: packets at a port, and packets end to end (chapters 12 and 13) -/

namespace Sys2Proof.Machine

variable {d : Dev} {p : Nat} {pkt : Packet}

/-! ### Packets at a port -/

theorem Dev.flitErrors_zero : d.flitErrors p 0 = d := by
  unfold Dev.flitErrors
  exact if_pos rfl

/-- A DIRECT port hears flits in ACTIVE and WITHDRAWN, and discovery packets in QUARANTINE too. -/
theorem Dev.packetReceive_of_flits (hdirect : d.isDirect p = true)
    (hstate : d.portState p = psActive ∨ d.portState p = psWithdrawn ∨
      (d.portState p = psQuarantine ∧ pkt.op.toNat = opControl ∧ within (ctlType pkt) 4 7 = true))
    (q : BitVec 12) (first shared : Nat) :
    d.packetReceive p (.flits q first shared) pkt (some .reservedKind) = d.incSat (FABP_ERR.crc_err p) 1 ∧
    (∀ i, d.packetReceive p (.flits q first shared) pkt (some (.crc i)) = d.takeTrain p q.toNat first shared (some i) pkt) ∧
    d.packetReceive p (.flits q first shared) pkt none = d.takeTrain p q.toNat first shared none pkt := by
  have hhears : (!d.isDirect p || !(d.portState p == psActive || d.portState p == psWithdrawn ||
      (d.portState p == psQuarantine && (pkt.op.toNat == opControl && within (ctlType pkt) 4 7)))) = false := by
    rcases hstate with h | h | ⟨h, hop, hctl⟩
    · simp [hdirect, h]
    · simp [hdirect, h]
    · simp [hdirect, h, hop, hctl]
  have hnot : ¬ (!d.isDirect p || !(d.portState p == psActive || d.portState p == psWithdrawn ||
      (d.portState p == psQuarantine && (pkt.op.toNat == opControl && within (ctlType pkt) 4 7)))) = true := by
    rw [hhears]
    exact Bool.false_ne_true
  exact ⟨if_neg hnot, fun i => if_neg hnot, if_neg hnot⟩

/-- A train with no expected flit is discarded whole. -/
theorem Dev.takeTrain_of_unexpected {q first shared k : Nat} {bad : Option Nat} (hk : k = aheadOf 4096 (d.port p).rxSeq q)
    (h : k < first ∨ flitsOf pkt ≤ k) : d.takeTrain p q first shared bad pkt = d.flitErrors p (flitsOf pkt - first) := by
  unfold Dev.takeTrain
  dsimp only
  rw [← hk]
  exact if_pos (by simpa using h.symm)

/-- A train that runs on past the expected flit is taken from there. -/
theorem Dev.takeTrain_of_good {q first shared k : Nat} (hk : k = aheadOf 4096 (d.port p).rxSeq q) (hfirst : first ≤ k)
    (hlong : k < flitsOf pkt) :
    d.takeTrain p q first shared none pkt =
      ((d.flitErrors p (k - first)).takeFlits p (flitsOf pkt - k)).takePkt p 0
        ((List.range 9).map fun i => if i = 8 then min shared (flitsOf pkt)
          else if i = pkt.tc.toNat then flitsOf pkt - min shared (flitsOf pkt) else 0) pkt := by
  unfold Dev.takeTrain
  dsimp only
  rw [← hk, if_neg (by simpa using And.intro hlong hfirst), if_pos hlong, Nat.sub_self, Dev.flitErrors_zero]
  exact if_neg (Nat.lt_irrefl _)

/-- A train with a bad flit is taken up to that flit, and its packet is not. -/
theorem Dev.takeTrain_of_bad {q first shared k i : Nat} (hk : k = aheadOf 4096 (d.port p).rxSeq q) (hfirst : first ≤ k)
    (hki : k < i) (hi : i < flitsOf pkt) :
    d.takeTrain p q first shared (some i) pkt =
      ((d.flitErrors p (k - first)).takeFlits p (i - k)).flitErrors p (flitsOf pkt - i) := by
  unfold Dev.takeTrain
  dsimp only
  rw [← hk, if_neg (by simpa using And.intro (hki.trans hi) hfirst), if_pos hki.le, min_eq_left hi.le, if_pos hki]
  exact if_pos hi

theorem Dev.packetReceive_of_frame (hether : d.isEthernet p = true) (hstate : d.portState p = psActive) (h : FrameHdr) :
    d.packetReceive p (.frame h) pkt none = d.takeFrame p h pkt := by
  unfold Dev.packetReceive
  dsimp only
  rw [hether, hstate]
  exact if_neg (by decide)

theorem Dev.takeFrame_of_plain {h : FrameHdr} (hoff : d.flag (FABP_SEC.sec_en p) = false) (hsec : h.sec = none) :
    d.takeFrame p h pkt = if h.etype.toNat = d.get (FABP_ETH0.ethertype p) then d.takePkt p h.pcp.toNat [flitsOf pkt] pkt
      else d.incSat (FABP_HB.foreign_frames p) 1 := by
  unfold Dev.takeFrame
  dsimp only
  rw [hoff, hsec, if_neg Bool.false_ne_true]
  by_cases hmine : h.etype.toNat = d.get (FABP_ETH0.ethertype p)
  · rw [if_pos hmine]
    exact if_neg (by simp [hmine])
  · rw [if_neg hmine]
    exact if_pos (by simp [hmine])

theorem Dev.takeFrame_of_secured {h : FrameHdr} {t : SecTag} (hon : d.flag (FABP_SEC.sec_en p) = true) (hsec : h.sec = some t)
    (hvalid : d.secValid p t = true) (hmine : h.etype.toNat = d.get (FABP_ETH0.ethertype p)) :
    d.takeFrame p h pkt =
      (d.updPort p fun u => { u with rxPn := u.rxPn.modify t.an.toNat fun n => max n (t.pn.toNat + 1) }).takePkt p h.pcp.toNat
        [flitsOf pkt] pkt := by
  unfold Dev.takeFrame
  dsimp only
  rw [hon, if_pos rfl, hsec]
  dsimp only
  rw [hvalid, if_neg (by decide)]
  exact if_pos (beq_iff_eq.2 hmine)

theorem Dev.takeFrame_of_unsecured {h : FrameHdr} (hon : d.flag (FABP_SEC.sec_en p) = true)
    (hbad : ∀ t, h.sec = some t → d.secValid p t = false) (hmine : h.etype.toNat = d.get (FABP_ETH0.ethertype p)) :
    d.takeFrame p h pkt = d.secFail p := by
  unfold Dev.takeFrame
  dsimp only
  rw [hon, if_pos rfl]
  cases hsec : h.sec with
  | none => exact if_pos (beq_iff_eq.2 hmine)
  | some t =>
    dsimp only
    rw [hbad t hsec]
    exact if_pos (by decide)

/-! ### Packets end to end -/

theorem Dev.receive_of_fresh (h : d.rxClass pkt = .fresh) (f : Dev → Dev) : d.receive pkt f = f d := by rw [Dev.receive, h]

theorem Dev.writeTagged_of_range {b : Nat} (hbay : d.bayOfTag pkt.tag.toNat = some b)
    (hrange : d.rangeOk b pkt.addr.toNat pkt.payload.length = true) :
    d.writeTagged pkt = ((d.putBayBytes b pkt.addr.toNat pkt.payload).rxMark pkt).ackDue pkt := by
  rw [Dev.writeTagged, hbay]
  exact if_pos hrange

theorem Dev.writeUntagged_of_manager {k : LKind} (hmanager : d.isManager pkt.src.toNat = true)
    (hrange : d.managerRange pkt.addr.toNat pkt.payload.length = some k) :
    d.writeUntagged pkt = ((if k = .regs then d.regBytesWrite (pkt.addr.toNat - regAddr 0) pkt.payload
      else d.putLocalBytes pkt.addr.toNat pkt.payload).rxMark pkt).ackDue pkt := by
  unfold Dev.writeUntagged
  dsimp only
  rw [if_pos hmanager, hrange]
  cases k <;> rfl

theorem Dev.readReq_of_tagged {b : Nat} (hsome : 0 < pktNum pkt 24 4) (htag : pkt.tag.toNat ≠ 0)
    (hbay : d.bayOfTag pkt.tag.toNat = some b) (hrange : d.rangeOk b pkt.addr.toNat (pktNum pkt 24 4) = true) :
    d.readReq pkt false = d.readResp pkt 0 (d.bayBytes b pkt.addr.toNat (pktNum pkt 24 4)) := by
  unfold Dev.readReq
  dsimp only
  rw [if_neg hsome.ne', if_neg htag, Dev.readTagged, hbay]
  exact if_pos hrange

/-- An acknowledgement without a bitmap, or with no fault notice pending, sends nothing again. -/
theorem Dev.e2eAck_of_plain {f : Dev}
    (hf : f = d.acknowledge fun e => (e.pkt.dst == pkt.src && e.pkt.tc == pkt.tc && !e.pkt.multicast) &&
      e.pkt.op.toNat != opReadReq && ackCovers (pktNum pkt 24 4) (pktNum pkt 28 8) e.pkt.seq.toNat)
    (h : pktNum pkt 28 8 = 0 ∨ f.flt.timers = []) : d.e2eAck pkt = f := by
  unfold Dev.e2eAck
  dsimp only
  rw [← hf]
  exact if_pos (by simpa using h)

/-- What the model looks for when a packet's end-to-end timer runs out. -/
theorem Dev.e2eTimeout_of_due {dst tc seq : Nat} {e : SentPkt}
    (hsent : (d.fab.sent.find? fun e => e.pkt.dst.toNat == dst && e.pkt.tc.toNat == tc && e.pkt.seq.toNat == seq) = some e)
    (hdue : e.sentNs + 1000 * d.get FAB_E2E.e2e_timeout_us ≤ d.clk.timeNs) :
    d.e2eTimeout dst tc seq = if e.tries < d.get FAB_E2E.e2e_retries then
      ({ d with fab := { d.fab with sent := d.fab.sent.map fun x => if x == e then { e with tries := e.tries + 1 } else x } } : Dev).resend
        { e with tries := e.tries + 1 }
      else ((d.releaseSent fun x => x == e).incSat FAB_E2E_STATUS.unreachable 1).ownerFails e.owner 4 := by
  rw [Dev.e2eTimeout, hsent]
  exact if_neg (Nat.not_lt.2 hdue)

end Sys2Proof.Machine

namespace Sys2Proof.Proofs
open Sys2Proof.Machine Sys2Proof.Claims

/-- Settles O30: the port hears the unit, and the train or the frame is cut at the first flit or tag that is not as expected. -/
theorem packetsAreTakenOrRefused : Obligations.PacketsAreTakenOrRefused := by
  unfold Obligations.PacketsAreTakenOrRefused
  refine ⟨?_, ?_, ?_, ?_⟩
  · intro p q first shared k pkt s hdirect hstate hk
    obtain ⟨hreserved, hcrc, hgood⟩ := Dev.packetReceive_of_flits hdirect hstate q first shared
    refine ⟨?_, ?_, ?_, ?_⟩
    · intro hfirst hlong
      show execPacketReceive p (.flits q first shared) pkt none s = _
      exact onDev_answers (hgood.trans (Dev.takeTrain_of_good hk hfirst hlong))
    · intro h
      show execPacketReceive p (.flits q first shared) pkt none s = _
      exact onDev_answers (hgood.trans (Dev.takeTrain_of_unexpected hk h))
    · intro i hfirst hki hi
      show execPacketReceive p (.flits q first shared) pkt (some (.crc i)) s = _
      exact onDev_answers ((hcrc i).trans (Dev.takeTrain_of_bad hk hfirst hki hi))
    · show execPacketReceive p (.flits q first shared) pkt (some .reservedKind) s = _
      exact onDev_answers hreserved
  · intro p h pkt s hether hstate hoff hsec
    show execPacketReceive p (.frame h) pkt none s = _
    exact onDev_answers ((Dev.packetReceive_of_frame hether hstate h).trans (Dev.takeFrame_of_plain hoff hsec))
  · intro p h t pkt s e hether hstate hon hsec hvalid hmine he
    subst he
    show execPacketReceive p (.frame h) pkt none s = _
    exact onDev_answers ((Dev.packetReceive_of_frame hether hstate h).trans (Dev.takeFrame_of_secured hon hsec hvalid hmine))
  · intro p h pkt s hether hstate hon hbad hmine
    show execPacketReceive p (.frame h) pkt none s = _
    exact onDev_answers ((Dev.packetReceive_of_frame hether hstate h).trans (Dev.takeFrame_of_unsecured hon hbad hmine))

/-- Settles O31: each packet is taken as a new one or finds the packet that it answers, and a timer acts once it is due. -/
theorem endToEndPacketsTakeEffect : Obligations.EndToEndPacketsTakeEffect := by
  unfold Obligations.EndToEndPacketsTakeEffect
  refine ⟨?_, ?_, ?_, ?_, ?_, ?_, ?_, ?_, ?_, ?_⟩
  · intro s p b pkt d htake hfresh htag hbay hrange hroom
    show execWrite s = _
    refine onDev_answers ?_
    rw [if_neg (Nat.not_le.2 hroom), Dev.onPacket_of_taken htake, Dev.receive_of_fresh hfresh, if_neg htag,
      Dev.writeTagged_of_range hbay hrange]
  · intro s p k pkt d htake hfresh htag hmanager hrange hroom
    show execWrite s = _
    refine onDev_answers ?_
    rw [if_neg (Nat.not_le.2 hroom), Dev.onPacket_of_taken htake, Dev.receive_of_fresh hfresh, if_pos htag,
      Dev.writeUntagged_of_manager hmanager hrange]
  · intro s p b pkt d htake hfresh hsome htag hbay hrange
    show execReadReq false s = _
    refine onDev_answers ?_
    rw [Dev.onPacket_of_taken htake, hfresh]
    exact Dev.readReq_of_tagged hsome htag hbay hrange
  · intro s p pkt d e htake hanswered hop hstatus
    show execReadResp s = _
    refine onDev_answers ?_
    rw [Dev.onPacket_of_taken htake, hanswered]
    dsimp only
    rw [if_neg (by simp [hop]), hstatus]
    rfl
  · intro s p pkt d e htake hanswered hop hbad hnotLost
    show execReadResp s = _
    refine onDev_answers ?_
    rw [Dev.onPacket_of_taken htake, hanswered]
    dsimp only
    rw [if_neg (by simp [hop])]
    split
    · next h => exact absurd h hbad
    · next h => exact absurd h hnotLost
    · rfl
  · intro s p pkt d f htake hf hplain
    show execE2eAck s = _
    exact onDev_answers ((Dev.onPacket_of_taken htake _).trans (Dev.e2eAck_of_plain hf hplain))
  · intro s p pkt d e htake hanswered
    show execE2eNack s = _
    refine onDev_answers ?_
    rw [Dev.onPacket_of_taken htake, hanswered]
    rfl
  · intro src tc s r hr hdue htime
    show execE2eAckCoalesce src tc s = _
    refine onDev_answers ?_
    rw [← hr]
    exact if_neg (by simpa using ⟨hdue, htime⟩)
  · intro dst tc q s e hsent hdue htries
    show execE2eTimeout dst tc q s = _
    exact onDev_answers ((Dev.e2eTimeout_of_due hsent hdue).trans (if_pos htries))
  · intro dst tc q s e hsent hdue htries
    show execE2eTimeout dst tc q s = _
    exact onDev_answers ((Dev.e2eTimeout_of_due hsent hdue).trans (if_neg (Nat.not_lt.2 htries)))

end Sys2Proof.Proofs
end

section
/-! # O32 to O35: tick synchronisation, sisters, refill and notices, and collectives (chapters 13, 14 and 15) -/

namespace Sys2Proof.Machine

variable {d e : Dev} {p : Nat} {pkt : Packet}

/-- A test of a register against itself and a flag that is 0 lets the operation go on. -/
theorem ne_or_not_eq_false {a b : Nat} {m k : Bool} (hm : m = false) (hab : a = b) (hk : k = true) :
    ¬ (m || a != b || !k) = true := by
  simp [hm, hab, hk]

/-! ### Tick synchronisation -/

theorem Dev.announceSend_of_due {t : Nat} (hbegun : d.fab.sync.begun = some t) (hdomain : d.get FAB_ID.domain_id ≠ 0)
    (hdue : d.fab.sync.annNs + d.announceNs ≤ d.clk.timeNs) (hkey : d.chooseMaster.knowsKey = true) :
    d.announceSend = d.chooseMaster.sendAnnounce := by
  unfold Dev.announceSend
  dsimp only
  rw [hbegun, if_neg (by simp [hdomain, hdue])]
  exact if_pos hkey

/-- The parent's answer to the device's own request (R321). -/
theorem Dev.syncResp_of_direct {t1 t4 : Nat} (hslave : d.flag TCK_STATUS.master = false)
    (hparent : d.get TCK_SYNC_STATUS.parent_port = p) (hdirect : d.isDirect p = true) (hreq : d.fab.sync.req = some (p, t1))
    (ht1 : pktNum pkt 28 8 = t1) :
    d.syncResp p pkt t4 =
      (({ d with fab := { d.fab with sync := { d.fab.sync with req := none } } } : Dev).syncTo
        ((((pktNum pkt 36 8 : Int) - t1) - ((t4 : Int) - pktNum pkt 44 8)) / 2)) pkt.payload := by
  unfold Dev.syncResp
  dsimp only
  rw [hslave, if_neg (by simp [hparent]), if_pos hdirect, hreq]
  exact if_neg (by simp [ht1])

/-- The parent's edges on an ETHERNET port. -/
theorem Dev.syncResp_of_ethernet {t4 : Nat} (hslave : d.flag TCK_STATUS.master = false)
    (hparent : d.get TCK_SYNC_STATUS.parent_port = p) (hdirect : d.isDirect p = false) (hsrc : pkt.src.toNat = d.fab.sync.parentId) :
    d.syncResp p pkt t4 = if d.fab.sync.everSynced then d.takeEdges pkt.payload
      else { d with fab := { d.fab with sync := { d.fab.sync with edges := pkt.payload } } } := by
  unfold Dev.syncResp
  dsimp only
  rw [hslave, if_neg (by simp [hparent]), if_neg (by simp [hdirect])]
  exact if_pos (beq_iff_eq.2 hsrc)

theorem Dev.delayResp_of_parent {t1 t2 t3 t4 corr : Nat} (hslave : d.flag TCK_STATUS.master = false)
    (hparent : d.get TCK_SYNC_STATUS.parent_port = p) (hether : d.isEthernet p = true) (hptp : d.fab.sync.ptp = some (t1, t2))
    (ht3 : d.fab.sync.delayT3 = some t3)
    (he : e = { d with fab := { d.fab with sync := { d.fab.sync with ptp := none, delayT3 := none } } }) :
    d.delayResp p t4 corr =
      if d.fab.sync.everSynced then e.measured ((((t4 : Int) - (t3 + corr)) - ((t2 : Int) - t1)) / 2)
      else e.syncTo ((((t4 : Int) - (t3 + corr)) - ((t2 : Int) - t1)) / 2) d.fab.sync.edges := by
  subst he
  unfold Dev.delayResp
  rw [if_neg (ne_or_not_eq_false hslave hparent hether), hptp, ht3]

theorem Dev.ppsAbsent_of_due {t : Nat} (hpps : d.fab.sync.ppsNs = some t) (hdue : t + 2000000000 ≤ d.clk.timeNs) :
    d.ppsAbsent =
      (({ d with fab := { d.fab with sync := { d.fab.sync with ppsNs := none, ppsGood := 0 } } } : Dev).sets
        [(GLB_STATUS.pps_present, 0), (TCK_STATUS.pps_aligned, 0)]).chooseMaster := by
  rw [Dev.ppsAbsent, hpps]
  exact if_neg (Nat.not_lt.2 hdue)

section
variable (he : e = (({ d with fab := { d.fab with sync := { d.fab.sync with ppsNs := some d.clk.timeNs } } } : Dev).set
  GLB_STATUS.pps_present 1).chooseMaster)
include he

theorem Dev.ppsPulse_of_slave (h : e.flag TCK_STATUS.master = false) : d.ppsPulse = e := by
  unfold Dev.ppsPulse
  dsimp only
  rw [← he]
  exact if_pos (by rw [h]; decide)

theorem Dev.ppsPulse_of_master {g : Nat} (h : e.flag TCK_STATUS.master = true)
    (hg : g = if min (e.gtime % 1000000000) (1000000000 - e.gtime % 1000000000) ≤ 40 then e.fab.sync.ppsGood + 1 else 0) :
    d.ppsPulse = ({ e with fab := { e.fab with sync := { e.fab.sync with ppsGood := g } } } : Dev).fresh.2.sets
      [(TCK_STATUS.pps_aligned, (decide (3 ≤ g)).toNat),
       (TCK_OFFSET.freq_adj, ((max (-20000) (min 20000 (Config.freqAdj e.clk.freeCtr).toInt)) % 65536).toNat)] := by
  unfold Dev.ppsPulse
  dsimp only
  rw [← he, ← hg]
  exact if_neg (by rw [h]; decide)

end

/-- The measurement of an interval: the DIRECT parent is asked, and each ETHERNET peer hears the device's time (R320). -/
theorem Dev.syncMeasure_of_due {t : Nat} (hbegun : d.fab.sync.begun = some t) (hdomain : d.get FAB_ID.domain_id ≠ 0)
    (hdue : d.fab.sync.measNs + 1000 * d.get TCK_SYNC_CFG.sync_interval_us ≤ d.clk.timeNs)
    (he : e = { d with fab := { d.fab with sync := { d.fab.sync with measNs := d.clk.timeNs } } })
    (hp : p = e.get TCK_SYNC_STATUS.parent_port) :
    d.syncMeasure =
      (List.range 50).foldl (fun d p =>
        if d.isEthernet p && d.portLive p then
          (d.hbPeersOf p).foldl (fun d q =>
            (d.emit (.ptp p (d.macOf p q) (d.get TCK_SYNC_CFG.ptp_domain) 0 d.gtime)).toPort p (d.macOf p q)
              (d.mkControl q 0x03 [] d.edgePayload)) d
        else d)
        (if e.flag TCK_STATUS.master = true ∨ p = 0x3F ∨ e.isDirect p = false then e else e.toPort p 0 (e.mkControl 0 0x02 [])) := by
  unfold Dev.syncMeasure
  dsimp only
  rw [if_neg (by simp [hbegun, hdomain, hdue]), ← he, ← hp]
  simp only [Bool.or_eq_true, beq_iff_eq, Bool.not_eq_true', or_assoc]

/-! ### Sisters, snapshots and notices -/

/-- A new control packet that is acknowledged end to end. -/
theorem Dev.control_of_fresh {type : Nat} (htake : d.takePacket opControl (some type) = some (p, pkt, e)) (hfresh : e.rxClass pkt = .fresh)
    (f : Dev → Packet → Dev) : d.control type f = ((f e pkt).rxMark pkt).ackDue pkt := by
  rw [Dev.control, Dev.onPacket_of_taken htake, Dev.receive_of_fresh hfresh]

theorem Dev.bindRetry_of_due {b i : Nat} (hstate : d.bindState b i = biBinding) (hdue : (d.bindOf b i).sentNs + 1000000 ≤ d.clk.timeNs) :
    d.bindRetry b i = if (d.bindOf b i).tries < 3 then d.sendBind b i else d.setBind b i biGone := by
  unfold Dev.bindRetry
  dsimp only
  rw [hstate]
  exact if_neg (by simpa using hdue)

/-- The tags of a snapshot's encrypted units, none without a key (R359). -/
def snapTags (key : Option Nat) (version : Nat) (units : List (List Byte)) : List Byte :=
  match key with
  | some k => units.zipIdx.flatMap fun e => toBytes 16 (Config.gcmTag k (2 ^ 32 * version + e.2) e.1).toNat
  | none => []

/-- What a snapshot does once it is read: its blocks go to each of its sisters, then to the host (R359, R361). -/
theorem Dev.snapRead_of_reading {b : Nat} {n : Snap} {units : List (List Byte)} {header : List Byte} {f : Dev}
    (hsnap : (d.fltBay b).snap = some n) (hreading : n.reading = true)
    (hunits : units = (d.listUnits b).zipIdx.map (fun e => cryptUnit n.key n.version e.2 (d.bayBytes b e.1 4096)))
    (hheader : header = (n.header.take (64 + 16 * (d.snapList b).length) ++ snapTags n.key n.version units ++
      List.replicate 4096 0).take 4096)
    (he : e = d.putFltBay b { d.fltBay b with snap := some { n with header := header, reading := false } })
    (hf : f = (n.dests.filter (· < 2)).foldl (fun d i =>
      (header :: units).zipIdx.foldl (fun f x =>
        f.sendHeld (f.mkPacket ((d.bindOf b i).dev.getD 0) 2 opWrite 0
          ((d.bindOf b i).slotBase + (d.bindOf b i).gen * f.genBytes b + 4096 * x.2) 0 x.1) (.snap b i)) d) e) :
    d.snapRead b = if n.dests.contains 2 then
      (f.putBayBytes b (f.get (FLT_BAY_HOST.host_base b) + (f.fltBay b).hostGen * f.genBytes b) (header :: units).flatten).snapDest b 2
      else f := by
  subst hf he hheader hunits
  unfold Dev.snapRead
  rw [hsnap]
  exact if_neg (by rw [hreading]; decide)

theorem Dev.faultTimer_of_due {t : Nat} {rest : List Nat} (htimers : d.flt.timers = t :: rest) (hdue : t + 6000 ≤ d.clk.timeNs)
    (he : e = { d with flt := { d.flt with timers := rest } }) :
    d.faultTimer = (e.fab.sent.filter fun x => decide (x.sentNs < t) && !e.isDead x.pkt.dst.toNat).foldl (fun d x => d.resend x) e := by
  subst he
  rw [Dev.faultTimer, htimers]
  exact if_neg (Nat.not_lt.2 hdue)

/-! ### Collectives -/

section
variable {b t op : Nat} {r : StepRec} {q : ColDesc} {u : Inst}

/-- With one step in flight, a descriptor's command is that of the step (R332). -/
theorem Dev.colRun_of_step (hsteps : d.colSteps b = [r]) (ht : t < d.get (COL_BAY_TABLE.tbl_len b)) (hq : q = ColDesc.of (d.colWords b t))
    (hop : q.op = op) : d.colRun b t op = d.colRunStep b t (r.no % 65536) q := by
  unfold Dev.colRun
  dsimp only
  rw [← hq, hsteps]
  exact if_neg (by simp [ht, hop])

/-- What is issued and has its input ready sends its own part. -/
theorem Dev.colRunStep_of_ready {step : Nat}
    (he : e = if !q.scheduled && !d.colStarted b t step && d.colInput q then d.colIssue b t step else d)
    (hinst : e.inst b t step = some u) (hissued : u.issued = true) (hsending : u.sending = false) (hinput : e.colInput u.q = true) :
    d.colRunStep b t step q = e.colSendAll u := by
  unfold Dev.colRunStep
  dsimp only
  rw [← he, hinst]
  exact if_pos (by simp [hissued, hsending, hinput])

theorem Dev.colFinish_of_done (hdone : d.instDone b t = some (u, r)) {f : Dev}
    (he : e = ({ d with col := { d.col with
      insts := d.col.insts.filter (fun v => !v.isFor b t u.step),
      closed := d.col.closed ++ [u],
      done := d.col.done ++ [(b, t, u.step)] } } : Dev).showCol)
    (hf : f = if u.q.donePeg = 0xFFF then e else e.incPeg u.q.pegAg u.q.donePeg 1 2) :
    d.colFinish b t = (if u.q.gating then f.gateReturn b r (u.flags || u.lost) else f).openWaiting := by
  subst hf he
  rw [Dev.colFinish, hdone]

end

end Sys2Proof.Machine

namespace Sys2Proof.Proofs
open Sys2Proof.Machine Sys2Proof.Claims

/-- Settles O32: each event passes its guards, and then its operation gives the state named. -/
theorem synchronisationTakesEffect : Obligations.SynchronisationTakesEffect := by
  unfold Obligations.SynchronisationTakesEffect
  refine ⟨?_, ?_, ?_, ?_, ?_, ?_, ?_, ?_, ?_, ?_, ?_, ?_⟩
  · intro s p pkt d htake hdomain
    show execAnnounce s = _
    refine onDev_answers ((Dev.onPacket_of_taken htake _).trans ?_)
    exact if_neg (by simpa using hdomain)
  · intro s t d e hbegun hdomain hdue hd hkey he
    subst he hd
    show execAnnounceSend s = _
    exact onDev_answers (Dev.announceSend_of_due hbegun hdomain hdue hkey)
  · intro s
    rfl
  · intro t2 t3 s p pkt d htake hdirect
    show execSyncReq t2 t3 s = _
    exact onDev_answers ((Dev.onPacket_of_taken htake _).trans (if_pos hdirect))
  · intro t4 s p pkt d htake hslave hparent hdirect hsrc
    show execSyncResp t4 s = _
    exact onDev_answers ((Dev.onPacket_of_taken htake _).trans (Dev.syncResp_of_ethernet hslave hparent hdirect hsrc))
  · intro t4 s p t1 pkt d htake hslave hparent hdirect hreq ht1
    show execSyncResp t4 s = _
    exact onDev_answers ((Dev.onPacket_of_taken htake _).trans (Dev.syncResp_of_direct hslave hparent hdirect hreq ht1))
  · intro q t1 corr t2 s hslave hparent hether
    show execSyncMsg q t1 corr t2 s = _
    exact onDev_answers (if_neg (ne_or_not_eq_false hslave hparent hether))
  · intro q src t4 s hether hlive
    show execDelayReq q { src := src, t4 := t4 } s = _
    exact onDev_answers (if_pos (by rw [hether, hlive]; decide))
  · intro q t4 corr s t1 t2 t3 o d hslave hparent hether hptp ht3 ho hd
    subst ho
    show execDelayResp q t4 corr s = _
    exact onDev_answers (Dev.delayResp_of_parent hslave hparent hether hptp ht3 hd)
  · intro s t hpps hdue
    show execPpsAbsent s = _
    exact onDev_answers (Dev.ppsAbsent_of_due hpps hdue)
  · intro s e he
    refine ⟨?_, ?_⟩
    · intro hslave
      show execPpsPulse s = _
      exact onDev_answers (Dev.ppsPulse_of_slave he hslave)
    · intro g hmaster hg
      show execPpsPulse s = _
      exact onDev_answers (Dev.ppsPulse_of_master he hmaster hg)
  · intro s t p d hbegun hdomain hdue hd hp
    show execSyncMeasure s = _
    exact onDev_answers (Dev.syncMeasure_of_due hbegun hdomain hdue hd hp)

/-- An operation on an acknowledged control packet has the effect it names. -/
theorem controlTakes_of_eq {c : Instr} {type : Nat} {f : Dev → Packet → Dev} (hc : ∀ s, exec c s = onDev s fun d => d.control type f) :
    ControlTakes c type f := by
  intro s p pkt d htake hfresh
  show exec c s = _
  rw [hc]
  exact onDev_answers (Dev.control_of_fresh htake hfresh f)

/-- Settles O33: control packets act as `Dev.control_of_fresh` says, and a snapshot writes to its destinations by
`Dev.snapRead_of_reading`. -/
theorem sisterAndSnapshotEventsTakeEffect : Obligations.SisterAndSnapshotEventsTakeEffect := by
  unfold Obligations.SisterAndSnapshotEventsTakeEffect
  refine ⟨controlTakes_of_eq fun _ => rfl, controlTakes_of_eq fun _ => rfl, ?_, ?_, controlTakes_of_eq fun _ => rfl⟩
  · intro b i s hstate hdue
    show execSisterBindRetry b i s = _
    exact onDev_answers (Dev.bindRetry_of_due hstate hdue)
  · intro b s n units tags header d hsnap hreading hunits htags hheader hd
    have htags' : tags = snapTags n.key n.version units := htags
    rw [htags'] at hheader
    have hread := Dev.snapRead_of_reading hsnap hreading hunits hheader hd rfl
    refine ⟨?_, ?_, ?_⟩
    · intro hdests
      rw [hdests] at hread
      show execSnapshotReadDone b s = _
      exact onDev_answers hread
    · intro hdests
      rw [hdests] at hread
      show execSnapshotReadDone b s = _
      exact onDev_answers hread
    · intro i hi hdests
      rw [hdests, List.filter_cons_of_pos (by simpa using hi), List.filter_nil,
        if_neg (by simp only [List.contains_cons, List.contains_nil, Bool.or_false, beq_iff_eq]; omega)] at hread
      show execSnapshotReadDone b s = _
      exact onDev_answers hread

/-- Settles O34: control packets act as `Dev.control_of_fresh` says, and the kind of a notice selects its branch. -/
theorem refillAndFaultEventsTakeEffect : Obligations.RefillAndFaultEventsTakeEffect := by
  unfold Obligations.RefillAndFaultEventsTakeEffect
  refine ⟨controlTakes_of_eq fun _ => rfl, controlTakes_of_eq fun _ => rfl, ?_, ?_, ?_⟩
  · intro s p pkt d htake hkind
    show execFaultNotice s = _
    refine onDev_answers ((Dev.onPacket_of_taken htake _).trans ?_)
    rw [Dev.faultNotice, if_pos hkind]
  · intro s p pkt d htake hkind
    show execFaultNotice s = _
    refine onDev_answers ((Dev.onPacket_of_taken htake _).trans ?_)
    rw [Dev.faultNotice, if_neg hkind]
  · intro s t rest d htimers hdue hd
    show execFaultResendTimer s = _
    exact onDev_answers (Dev.faultTimer_of_due htimers hdue hd)

/-- The four collectives run alike: what is ready to send sends as its op says. -/
theorem colRuns_of_sendAll {c : BayId → BitVec 8 → Instr} {op : Nat} {send : Dev → Inst → Dev}
    (hc : ∀ b t s, exec (c b t) s = onDev s fun d => d.colRun b.val t.toNat op)
    (hsend : ∀ (d : Dev) (u : Inst), u.q.op = op → d.colSendAll u = send (d.putInst { u with sending := true }) { u with sending := true }) :
    ColRuns c op send := by
  intro b t s r q d u hsteps ht hq hop hd hinst hissued hsending hinput huop
  show exec (c b t) s = _
  rw [hc]
  refine onDev_answers ((Dev.colRun_of_step hsteps ht hq hop).trans ?_)
  rw [Dev.colRunStep_of_ready hd hinst hissued hsending hinput, hsend d u huop]

/-- A reducing op contributes, or leaves where its bay withholds. -/
theorem colSendAll_of_reduces {d : Dev} {u : Inst} (h : u.q.reduces = true) :
    d.colSendAll u = (fun (d : Dev) (u : Inst) => if d.flag (COL_BAY_STATUS.withholding u.bay) then d.withhold u else d.sendContribs u)
      (d.putInst { u with sending := true }) { u with sending := true } := if_pos h

/-- Gathers and exchanges do not reduce. -/
theorem not_reduces {q : ColDesc} {op : Nat} (h : q.op = op) (hop : ¬ (op == coRs || op == coAr) = true) : ¬ q.reduces = true := by
  rw [ColDesc.reduces, h]
  exact hop

/-- Settles O35: the four ops run alike (`colRuns_of_sendAll`), and a packet finds its bay by its tag. -/
theorem collectiveEventsTakeEffect : Obligations.CollectiveEventsTakeEffect := by
  unfold Obligations.CollectiveEventsTakeEffect
  refine ⟨?_, ?_, ?_, ?_, ?_, ?_, ?_, ?_, ?_⟩
  · refine colRuns_of_sendAll (fun _ _ _ => rfl) fun d u hop => colSendAll_of_reduces ?_
    rw [ColDesc.reduces, hop]
    decide
  · refine colRuns_of_sendAll (fun _ _ _ => rfl) fun d u hop => ?_
    have hop' : (u.q.op == coAg) = true := by
      rw [hop]
      decide
    exact (if_neg (not_reduces hop (by decide))).trans (if_pos hop')
  · refine colRuns_of_sendAll (fun _ _ _ => rfl) fun d u hop => colSendAll_of_reduces ?_
    rw [ColDesc.reduces, hop]
    decide
  · refine colRuns_of_sendAll (fun _ _ _ => rfl) fun d u hop => ?_
    have hop' : (u.q.op == coAg) = false := by
      rw [hop]
      decide
    exact (if_neg (not_reduces hop (by decide))).trans (if_neg (ne_true_of_eq_false hop'))
  · intro s p b pkt d htake hfresh hbay
    show execCollective s = _
    refine onDev_answers ?_
    rw [Dev.onPacket_of_taken htake, Dev.receive_of_fresh hfresh, hbay]
  · intro s p pkt d htake hfresh hbay
    show execCollective s = _
    refine onDev_answers ?_
    rw [Dev.onPacket_of_taken htake, Dev.receive_of_fresh hfresh, hbay]
  · intro s p b pkt d htake hfresh hbay
    show execLeave s = _
    refine onDev_answers ?_
    rw [Dev.onPacket_of_taken htake, Dev.receive_of_fresh hfresh, hbay]
  · intro s p pkt d htake hfresh hbay
    show execLeave s = _
    refine onDev_answers ?_
    rw [Dev.onPacket_of_taken htake, Dev.receive_of_fresh hfresh, hbay]
  · intro b t s u r d e hdone hd he
    show execCollectiveComplete b t s = _
    exact onDev_answers (Dev.colFinish_of_done hdone hd he)

end Sys2Proof.Proofs
end

section
/-! # O37 and O38: power events and the token exchange (chapters 16 and 22) -/

namespace Sys2Proof.Machine

variable {d e : Dev}

/-! ### Power -/

/-- A reading of the sensors while PWR runs (R391). -/
theorem Dev.calRead_of_running {measured : Option Nat} {status : Nat} (hrun : d.pwrRunning = true)
    (he : e = match measured with
      | some m => (d.calibrate m).checkOverdraw m
      | none => d.setPwr fun u => { u with goodNs := none }) :
    d.calRead measured status = if status = 0 then e.setPwr fun u => { u with raws := ((0, 0) :: u.raws).take 10 }
      else (e.setPwr fun u => { u with raws := ((0, 0) :: u.raws).take 10 }).powerMode := by
  subst he
  unfold Dev.calRead
  exact if_neg (by rw [hrun]; decide)

theorem Dev.thermalTrip_of_first {doms : List Nat} (htrip : d.pwr.trip = false)
    (hdoms : doms = (List.range 20).filter fun k => k != 0 && d.get (PWR_DOM.state k) != 3)
    (he : e = doms.foldl (fun d k => d.domainReach k 3) ((d.setPwr fun u => { u with trip := true, hold := 0 }).emit .thermtrip)) :
    d.thermalTrip =
      (e.jnlEventAfter 0x50 0x0051 (regAddr PWR_STATUS.off) (doms.foldl (fun m k => m + 2 ^ k) 0)).bootFail 0x0B := by
  unfold Dev.thermalTrip
  dsimp only
  rw [htrip, ← hdoms, ← he]
  exact if_neg Bool.false_ne_true

/-- MEM in OFF loses what HBM held (R405). -/
theorem Dev.domainReach_mem_off :
    d.domainReach 19 3 = ({ d.sets [(PWR_DOM.state 19, 3), (PWR_DOM.moving 19, 0)] with
      mem := { d.mem with loc := d.mem.loc.filter fun e => decide (0x8000000000 ≤ e.1) },
      flt := { d.flt with slots := [] },
      jnl := { d.jnl with lostBelow := if d.boot.early then max d.jnl.lostBelow d.jnl.earlyFrom else d.jnlSeq } } : Dev) := by
  unfold Dev.domainReach
  dsimp only
  rw [if_neg (by decide), if_neg (by decide), if_neg (by decide), if_pos rfl]
  rfl

/-! ### Tokens -/

theorem Dev.renewRequest_of_none {w : Nat} (hsite : d.flag PWR_THAW_CFG.site_en = false) (hasked : d.pwr.asked = none) :
    d.renewRequest w = d := by
  unfold Dev.renewRequest
  dsimp only
  rw [hasked, hsite, Bool.false_and]

/-- A window that begins with nothing forced, nothing asked and no coordinator on the device (R385). -/
theorem Dev.tokenWindow_of_plain (hnew : d.pwr.window < d.windowNow) (hsite : d.flag PWR_THAW_CFG.site_en = false)
    (hforced : d.pwr.forcedW = 0) (hasked : d.pwr.asked = none) (hcoord : d.flag PWR_COORD.is_coord = false)
    (he : e = d.setPwr fun u => { u with
      window := d.windowNow, rise := 0, forcedW := 0,
      token := ((d.pwr.grants.find? fun g => g.1 == d.windowNow).map (·.2)).getD 0,
      grants := u.grants.filter fun g => decide (d.windowNow < g.1) }) :
    d.tokenWindow = e := by
  have hsite' : e.flag PWR_THAW_CFG.site_en = false := by rw [he]; exact hsite
  have hasked' : e.pwr.asked = none := by rw [he]; exact hasked
  have hcoord' : e.flag PWR_COORD.is_coord = false := by rw [he]; exact hcoord
  unfold Dev.tokenWindow
  dsimp only
  rw [if_neg (Nat.not_le.2 hnew), hforced, if_pos rfl, hasked]
  cases hgrant : (d.pwr.grants.find? fun g => g.1 == d.windowNow).map (·.2) with
  | none =>
    rw [hgrant] at he
    dsimp only
    rw [← he, Dev.renewRequest_of_none hsite' hasked', hcoord', if_neg Bool.false_ne_true]
  | some w =>
    rw [hgrant] at he
    dsimp only
    rw [← he, Dev.renewRequest_of_none hsite' hasked', hcoord', if_neg Bool.false_ne_true]

/-- What is taken first is one of the list, and is what was looked for. -/
theorem mem_of_takeFirst {α : Type} {f : α → Bool} {x : α} {rest : List α} : ∀ {l : List α}, takeFirst f l = some (x, rest) → x ∈ l ∧ f x = true
  | [], h => by cases h
  | y :: l, h => by
    unfold takeFirst at h
    split at h
    · next hy =>
      cases h
      exact ⟨List.mem_cons_self, hy⟩
    · split at h
      · next z zs hz =>
        cases h
        obtain ⟨hmem, hx⟩ := mem_of_takeFirst hz
        exact ⟨List.mem_cons_of_mem y hmem, hx⟩
      · cases h

/-- What the fabric brings is in the device's inbox. -/
theorem Dev.any_inbox_of_taken {type p : Nat} {pkt : Packet} (h : d.takePacket opControl (some type) = some (p, pkt, e)) :
    (d.fab.inbox.any fun x => x.pkt.op.toNat == opControl && ctlType x.pkt == type) = true := by
  unfold Dev.takePacket at h
  split at h
  · next x rest htake =>
    obtain ⟨hmem, hx⟩ := mem_of_takeFirst htake
    exact List.any_eq_true.2 ⟨x, hmem, hx⟩
  · cases h

/-- An operation that both the fabric and the segment bring takes the fabric's packet first (R463). -/
theorem Dev.onEither_of_fabric {type p : Nat} {pkt : Packet} (htake : d.takePacket opControl (some type) = some (p, pkt, e))
    (f : Dev → Nat → Option Frame → Packet → Dev) : d.onEither type false f = f e 1 none pkt := by
  unfold Dev.onEither
  rw [if_pos (Dev.any_inbox_of_taken htake), if_neg Bool.false_ne_true, Dev.onPacket_of_taken htake]

theorem Dev.onEither_of_fresh {type p : Nat} {pkt : Packet} (htake : d.takePacket opControl (some type) = some (p, pkt, e))
    (hfresh : e.rxClass pkt = .fresh) (f : Dev → Nat → Option Frame → Packet → Dev) :
    d.onEither type true f = ((f e 1 none pkt).rxMark pkt).ackDue pkt := by
  unfold Dev.onEither
  rw [if_pos (Dev.any_inbox_of_taken htake), if_pos rfl, Dev.control_of_fresh htake hfresh]

/-- A packet of the segment stands at the head of the receive queues. -/
theorem Dev.onEither_of_segment {s : State} {type : Nat} {fr : Frame} {pkt : Packet} (h : Claims.segTakes s type fr pkt e) (acked : Bool)
    (f : Dev → Nat → Option Frame → Packet → Dev) : s.dev.onEither type acked f = f e 2 (some fr) pkt := by
  obtain ⟨hnone, q, hhead, htype, he⟩ := h
  unfold Dev.onEither
  rw [hnone, if_neg Bool.false_ne_true, hhead, he]
  exact if_pos htype

theorem Dev.coordAnnounce_of_site {path : Nat} {pkt : Packet} (hsite : pktNum pkt 26 2 = d.get PWR_THAW_CFG.site_id) :
    d.coordAnnounce path pkt =
      (d.setPwr fun u => { u with heard := (d.coordsHeard.filter fun x => !(x.dev == pktNum pkt 28 2 % 32768 && x.path == path)) ++
        [{ prio := pktNum pkt 25 1, dev := pktNum pkt 28 2 % 32768, tokW := pktNum pkt 32 2, ns := d.clk.timeNs,
           path := path }] }).electCoord := by
  unfold Dev.coordAnnounce
  exact if_neg (by simp [hsite])

theorem Dev.coordSend_of_due {p : Packet} (he : e = d.electCoord) (hrun : e.pwrRunning = true) (hcoord : e.flag PWR_COORD.is_coord = true)
    (hdue : e.pwr.coordNs + 10000000 ≤ e.clk.timeNs)
    (hp : p = (e.setPwr fun u => { u with coordNs := e.clk.timeNs, coordSeq := (e.pwr.coordSeq + 1) % 2 ^ 32 }).mkControl 0 0x20
      [(25, 1, e.get PWR_THAW_CFG.coord_prio), (26, 2, e.get PWR_THAW_CFG.site_id), (28, 2, e.myId),
       (30, 2, e.get PWR_THAW_CFG.tok_window_ticks), (32, 2, e.get PWR_SITE.tok_w), (34, 2, e.get PWR_THAW_CFG.step_w),
       (36, 4, e.pwr.coordSeq)]) :
    d.coordSend =
      ((e.setPwr fun u => { u with coordNs := e.clk.timeNs, coordSeq := (e.pwr.coordSeq + 1) % 2 ^ 32 }).broadcast 0 p).sendSegment
        3 groupMac { p with broadcast := true } := by
  subst hp
  unfold Dev.coordSend
  dsimp only
  rw [← he]
  exact if_neg (by simp [hrun, hcoord, hdue])

theorem Dev.tokenGrant_of_site {pkt : Packet} (hsite : pktNum pkt 25 2 = d.get PWR_THAW_CFG.site_id) :
    d.tokenGrant pkt =
      if pktNum pkt 32 6 ≤ max d.windowNow d.pwr.window then (d.incSat PWR_THAW_STAT.late_grants 1).set PWR_EVENT.late_grant 1
      else (d.setPwr fun u => { u with grants := u.grants ++ [(pktNum pkt 32 6, pktNum pkt 38 4 * 1000)] }).incWrap
        PWR_THAW_COUNT.tokens 1 := by
  unfold Dev.tokenGrant
  exact if_neg (by simp [hsite])

end Sys2Proof.Machine

namespace Sys2Proof.Proofs
open Sys2Proof.Machine Sys2Proof.Claims

/-- Settles O37: each event passes its guards, and then its operation gives the state named. -/
theorem powerEventsTakeEffect : Obligations.PowerEventsTakeEffect := by
  unfold Obligations.PowerEventsTakeEffect
  refine ⟨?_, ?_, ?_, ?_, ?_, ?_, ?_, ?_, ?_, ?_, ?_, ?_, ?_, fun _ => Dev.domainReach_mem_off⟩
  · intro s hmode hdue
    show execPowerModeExit s = _
    exact onDev_answers (if_neg (by simp [hmode, hdue]))
  · intro s t hmode hcool hdue
    show execThermalModeExit s = _
    refine onDev_answers ?_
    rw [hcool]
    exact if_neg (by simp [hmode, hdue])
  · intro m s d hrun hd
    show execCalibrationRead (some m) 0 s = _
    exact onDev_answers (Dev.calRead_of_running hrun hd)
  · intro s hrun hdue
    show execCalibrationTimeout s = _
    exact onDev_answers (if_neg (by simp [hrun, hdue]))
  · intro m w s d hrun hd hw
    have hw' : w.toNat ≠ 0 := fun h => hw (BitVec.eq_of_toNat_eq h)
    show execCalibrationRead m w s = _
    cases m with
    | none => exact onDev_answers ((Dev.calRead_of_running hrun hd).trans (if_neg hw'))
    | some m => exact onDev_answers ((Dev.calRead_of_running hrun hd).trans (if_neg hw'))
  · intro w s hrun hw
    show execPmbAlert w s = _
    exact onDev_answers (if_neg (by simpa [hrun] using hw))
  · intro rail s
    rfl
  · intro rail s d b hd hrail hbay
    show execRailUndervoltage rail true s = _
    refine onDev_answers ?_
    dsimp only
    rw [← hd, hbay]
    exact if_pos (by simpa using hrail)
  · intro s t hup hrun
    show execClockStateConfirm true s = _
    refine onDev_answers ?_
    rw [hup]
    exact if_neg (by rw [hrun]; decide)
  · intro s t hup hrun hdue
    show execClockStateConfirm false s = _
    refine onDev_answers ?_
    rw [hup]
    exact (if_neg (by rw [hrun]; decide)).trans ((if_neg Bool.false_ne_true).trans (if_neg (Nat.not_lt.2 hdue)))
  · intro v s tj d htj hd
    subst hd htj
    rfl
  · intro k s hmoving hrun hok hhold
    show execDomainTransitionDone k s = _
    exact onDev_answers (if_pos (by simp [hmoving, hrun, hok, hhold]))
  · intro s doms d htrip hdoms hd
    show execThermalTrip s = _
    exact onDev_answers (Dev.thermalTrip_of_first htrip hdoms hd)

/-- Settles O38: a packet comes by the fabric or by the segment (`Dev.onEither`), and acts alike on either path. -/
theorem tokenExchangeTakesEffect : Obligations.TokenExchangeTakesEffect := by
  unfold Obligations.TokenExchangeTakesEffect
  refine ⟨?_, ?_, ?_, fun s => rfl, ?_, ?_, ?_, ?_⟩
  · intro s hnew hsite hforced hasked hcoord
    show execTokenWindow s = _
    exact onDev_answers (Dev.tokenWindow_of_plain hnew hsite hforced hasked hcoord rfl)
  · intro s path pkt d htakes hsite
    show execCoordAnnounce s = _
    rcases htakes with ⟨p, htake, rfl⟩ | ⟨fr, htake, rfl⟩
    · exact onDev_answers ((Dev.onEither_of_fabric htake _).trans (Dev.coordAnnounce_of_site hsite))
    · exact onDev_answers ((Dev.onEither_of_segment htake _ _).trans (Dev.coordAnnounce_of_site hsite))
  · intro s d p hd hrun hcoord hdue hp
    show execCoordAnnounceSend s = _
    exact onDev_answers (Dev.coordSend_of_due hd hrun hcoord hdue hp)
  · intro s p pkt d htake hfresh
    show execTokenReq s = _
    exact onDev_answers (Dev.onEither_of_fresh htake hfresh _)
  · intro s fr pkt d htake
    show execTokenReq s = _
    exact onDev_answers (Dev.onEither_of_segment htake _ _)
  · intro s p pkt d e htake hfresh hsite he
    show execTokenGrant s = _
    refine onDev_answers ((Dev.onEither_of_fresh htake hfresh _).trans ?_)
    rw [Dev.tokenGrant_of_site hsite, ← he]
  · intro s fr pkt d htake hsite
    show execTokenGrant s = _
    exact onDev_answers ((Dev.onEither_of_segment htake _ _).trans (Dev.tokenGrant_of_site hsite))

end Sys2Proof.Proofs
end

section
/-! # O39 to O44: firmware, security, management, host ports and start-up (chapters 13 and 17 to 22) -/

namespace Sys2Proof.Machine

variable {d e : Dev}

/-! ### Firmware cores -/

/-- A running core with fewer than three recent restarts restarts (R408). -/
theorem Dev.coreFails_of_few {c : Nat} (hrun : d.coreState c = 0) {f : Dev} (hf : f = d.showRecent c)
    (hfew : (Tab.get (fun _ => []) f.fw.times c).length < 3)
    (he : e = (f.setFw fun u => { u with
      times := Tab.put (fun _ => []) u.times c (f.clk.timeNs :: Tab.get (fun _ => []) f.fw.times c) }).showRecent c) (cause : Nat) :
    d.coreFails c cause = (e.beginRestart c cause).set GLB_FW_EVENT.restarted 1 := by
  subst he
  unfold Dev.coreFails
  dsimp only
  rw [← hf, hrun, if_neg (by simp)]
  exact if_pos hfew

/-- A restart that no job and no restart op waits for ends (R408). -/
theorem Dev.coreReturns_of_alone {c us : Nat} (hstate : d.coreState c = 1 ∨ d.coreState c = 2)
    (he : e = ((d.sets [(GLB_FW_CORE.state c, 0), (GLB_FW_CORET.last_restart_us c, us)]).setFw
      fun u => { u with begun := Tab.put (fun _ => 0) u.begun c 0 }).coreBack c)
    (hjob : e.fw.job = none) (hrestarts : e.fw.restarts = []) : d.coreReturns c us = e.fwAdvance := by
  unfold Dev.coreReturns
  dsimp only
  rw [if_neg (by rcases hstate with h | h <;> simp [h]), ← he, hjob]
  dsimp only
  rw [hrestarts]

/-- A stage op from device memory ends as the bundle's checks say (R404). -/
theorem Dev.stageDone_of_memory {x : Via} {a n : Nat} {l : List Byte} {b : Bundle} (hstage : d.fw.stage = some x)
    (hfree : d.secFree = true) (ha : a = d.get GLB_FW_STAGE0.src) (hn : n = d.get GLB_FW_STAGE1.len) (hkind : localKind a = .hbm)
    (hbase : a ≠ d.get MGT_STAGE.stage_base) (hl : l = d.localBytes a n)
    (hb : b = { level := imgNat l 8 4, images := (List.range 4).map (bundleInfo l) })
    (he : e = { d with board := { d.board with slots := d.board.slots.set (1 - d.get GLB_FW_SLOTS.a_phys) b } }) :
    d.stageDone true = if d.bundleReason l ≠ 0 then d.stageFails (d.bundleReason l)
      else ((e.setFw fun u => { u with stage := none }).sets
        [(GLB_FW_SLOTS.staging, 0), (GLB_FW_SLOTS.b_valid, 1), (GLB_FW_LEVELS.b_level, b.level), (GLB_FW_CMDSTAT.result, 2),
         (GLB_FW_EVENT.staged, 1)]).jnlEventAfter 0x10 0x0020 (regAddr GLB_FW_CMD.off) b.level := by
  unfold Dev.stageDone
  rw [hstage]
  dsimp only
  rw [← ha, ← hn, hfree, if_neg (by decide), hkind]
  dsimp only
  rw [if_neg Bool.false_ne_true, if_neg hbase, ← hl, ← hb, ← he]
  by_cases hreason : d.bundleReason l ≠ 0
  · rw [if_pos hreason, if_pos hreason]
  · rw [if_neg hreason, if_neg hreason, if_neg (by decide), hb]

/-! ### Security and journal -/

theorem Dev.exportPoll_of_translated {p a : Nat} (hen : d.flag JNL_CFG.export_en = true) (hplace : d.exportPlace = some (p, a))
    (hmapped : d.untranslated p 0 a 64 = false) :
    d.exportPoll true = (d.setJnl fun j => { j with consumedSeq := ofBytes (d.hostBytes p a 8) }).exportRun := by
  unfold Dev.exportPoll
  rw [hen, if_neg (by decide), hplace]
  exact if_neg (by rw [hmapped]; decide)

theorem Dev.spdmRequest_of_doe {p : HostPort} {r : Nat} {msg : List Byte} (hup : d.flag (HIF_PORT_STATUS.link_up p.val) = true)
    (hpuf : d.flag SEC_STATUS.puf_ok = true) (hsec : d.secRunning = true) :
    d.spdmRequest (.doe p) r msg = d.spdmServe (.doe p) r msg := by
  unfold Dev.spdmRequest
  dsimp only
  rw [if_pos hup, Dev.spdmArrives, hpuf, if_neg (by decide)]
  exact if_pos hsec

/-! ### Management -/

/-- A discovery packet that has come through the fabric is taken before one of the segment (R463). -/
theorem Dev.onDiscovery_of_fabric {type p : Nat} {pkt : Packet} (htake : d.takePacket opControl (some type) = some (p, pkt, e))
    (fabric : Dev → Nat → Packet → Dev) (segment : Dev → Frame → Packet → Dev) :
    d.onDiscovery type fabric segment = fabric e p pkt := by
  unfold Dev.onDiscovery
  rw [if_pos (Dev.any_inbox_of_taken htake), Dev.onPacket_of_taken htake]

theorem Dev.onDiscovery_of_segment {s : State} {type : Nat} {fr : Frame} {pkt : Packet} (h : Claims.segTakes s type fr pkt e)
    (fabric : Dev → Nat → Packet → Dev) (segment : Dev → Frame → Packet → Dev) :
    s.dev.onDiscovery type fabric segment = segment e fr pkt := by
  obtain ⟨hnone, q, hhead, htype, he⟩ := h
  unfold Dev.onDiscovery
  rw [hnone, if_neg Bool.false_ne_true, hhead, he]
  exact if_pos htype

/-- A message of the type at the head of the receive queues. -/
theorem Dev.onMessage_of_head {type k : Nat} {fr : Frame} {m : Msg} (hhead : d.mgtHead = some (k, fr))
    (hetype : fr.etype.toNat = d.get MGT_CFG.mgmt_etype) (hmsg : readMsg fr.payload = .ok m) (htype : m.type = type)
    (f : Dev → Frame → Msg → Dev) : d.onMessage type f = f (d.served k) fr m := by
  unfold Dev.onMessage
  rw [hhead]
  dsimp only
  rw [if_neg (by simp [hetype]), hmsg]
  exact if_pos htype

/-- The answer kept for the sender of a message that repeats its sequence (R467). -/
def Dev.keptAnswer (d : Dev) (mac seq : Nat) : Option (Nat × Frame) :=
  (d.peerIndex mac).bind fun i => (Tab.get (fun _ => none) d.mgt.kept i).filter fun k => k.1 == seq

theorem Dev.keptAnswer_of_new {mac seq : Nat}
    (h : ∀ i g, d.peerIndex mac = some i → Tab.get (fun _ => none) d.mgt.kept i = some g → g.1 ≠ seq) :
    d.keptAnswer mac seq = none := by
  unfold Dev.keptAnswer
  cases hi : d.peerIndex mac with
  | none => rfl
  | some i =>
    rw [Option.bind_some, Option.filter_eq_none_iff]
    intro g hg
    simpa using h i g hi hg

theorem Dev.keptAnswer_of_repeated {mac seq i : Nat} {g : Nat × Frame} (hi : d.peerIndex mac = some i)
    (hg : Tab.get (fun _ => none) d.mgt.kept i = some g) (hseq : g.1 = seq) : d.keptAnswer mac seq = some g := by
  rw [Dev.keptAnswer, hi, Option.bind_some, hg]
  exact Option.filter_some_pos (beq_iff_eq.2 hseq)

section
variable {type q k : Nat} {fr : Frame} {m : Msg} (perform : Dev → Bool → Msg → Dev × Msg)
  (hhead : d.mgtHead = some (k, fr)) (hetype : fr.etype.toNat = d.get MGT_CFG.mgmt_etype)
  (hmsg : readMsg fr.payload = .ok m) (htype : m.type = type)
include hhead hetype hmsg htype

/-- A new request is performed and answered. -/
theorem Dev.onRequest_of_new (hnew : (d.served k).keptAnswer fr.src.toNat m.seq = none) :
    d.onRequest type q perform =
      (perform (d.served k) ((d.served k).permitted fr.src.toNat false) m).1.answerPeer q fr.src.toNat
        (perform (d.served k) ((d.served k).permitted fr.src.toNat false) m).2 := by
  unfold Dev.keptAnswer at hnew
  rw [Dev.onRequest, Dev.onFresh, Dev.onMessage_of_head hhead hetype hmsg htype]
  dsimp only
  rw [hnew]

/-- A repeated request is answered from the kept answer. -/
theorem Dev.onRequest_of_repeated {g : Nat × Frame} (hkept : (d.served k).keptAnswer fr.src.toNat m.seq = some g) :
    d.onRequest type q perform =
      ((d.served k).incSat MGT_MSGCNT.dup 1).putTxq q ((d.served k).txq q ++ [{ frame := g.2, attempts := 0 }]) := by
  unfold Dev.keptAnswer at hkept
  rw [Dev.onRequest, Dev.onFresh, Dev.onMessage_of_head hhead hetype hmsg htype]
  dsimp only
  rw [hkept]

end

/-! ### The MAC -/

theorem Dev.frameReceive_of_good {f : Frame} (hen : d.flag MGT_CFG.mac_en = true) (hsize : frameSizeOk f = true)
    (haddr : d.addrOk f.dst.toNat = true) (he : e = d.incWrap MGT_RXCNT.frames_rx 1) (hetype : f.etype.toNat = e.get MGT_CFG.mgmt_etype)
    (hroom : (e.rxq (e.steer f)).length < 16) :
    d.frameReceive f false = (e.putRxq (e.steer f) (e.rxq (e.steer f) ++ [f])).agentFlush 64 := by
  unfold Dev.frameReceive
  dsimp only
  rw [hen, if_neg (by decide), hsize, if_neg (by decide), haddr, if_neg (by decide), ← he, if_neg (by simp [hetype])]
  exact if_neg (Nat.not_le.2 hroom)

theorem Dev.frameTransmit_of_turn {q : Nat} {t : TxFrame} (hturn : d.mayTransmit = true) (hhead : d.txHead = some (q, t))
    (he : e = d.setMgt fun u => { u with turn := u.turn - 1 }) :
    d.frameTransmit false = ((e.putTxq q (e.txq q).tail).incWrap MGT_TXCNT.frames_tx 1).emit (.frame t.frame) := by
  subst he
  unfold Dev.frameTransmit
  rw [hturn, if_neg (by decide), hhead]
  rfl

/-- A collision outside PLCA below the attempt limit backs off by a drawn number of slots (R458). -/
theorem Dev.collision_of_early {q : Nat} {t : TxFrame} (hair : d.mgt.onAir = some (q, t))
    (he : e = ((d.setMgt fun u => { u with onAir := none }).incSat MGT_TXCNT.collisions 1).emit .jam)
    (hstate : e.get MGT_STATUS.state ≠ 2) (hlimit : t.attempts + 1 < 16) :
    d.collision false =
      (e.fresh.2.putTxq q ({ t with attempts := t.attempts + 1 } :: (e.fresh.2.txq q).tail)).setMgt fun u =>
        { u with backoff := some (e.fresh.2.clk.timeNs + 51200 * (Config.randomDraw e.fresh.1 % 2 ^ min (t.attempts + 1) 10)) } := by
  unfold Dev.collision
  rw [hair]
  dsimp only
  rw [← he, if_neg hstate, if_neg Bool.false_ne_true, if_neg (Nat.not_le.2 hlimit)]

/-! ### Start-up -/

/-- A step of the start-up that may end shows its number and time, and the next begins (R471). -/
theorem Dev.startupStep_of_end {n verified cause holdMax : Nat} {aclk : Bool} {f : Dev}
    (hd : e = if aclk && d.boot.released && !d.lockLate then d.set GLB_STATUS.aclk_lock 1 else d) (hboot : e.booting = true)
    (hn : d.boot.step = n) (h2 : 2 ≤ n) (h13 : n < 13) (hmode : n = 2 → e.get GLB_BOOTINFO.boot_mode ≠ 3)
    (hcause : (stopCauses n).contains cause = false) (hend : e.stepCanEnd n = true) (hf : f = e.stepDoes n verified holdMax)
    (hhalted : f.boot.halted = false) {g : Dev} (hg : g = f.sets [(GLB_STATUS.boot_step, n), (GLB_BOOT_TIME.end_us n, f.bootUs)]) :
    d.startupStep aclk verified cause holdMax =
      if n = 12 then g
      else if (n == 7 && g.get GLB_BOOTINFO.boot_mode == 1) = true then g.setBoot fun u => { u with halted := true }
      else g.beginStep (n + 1) := by
  have hwithin : within n 2 13 = true := by simp [within, h2, h13]
  unfold Dev.startupStep
  dsimp only
  rw [hn, ← hd, hboot, hwithin, if_neg (by decide), if_neg (by simpa using hmode), hcause, if_neg Bool.false_ne_true, hend,
    if_neg (by decide), ← hf, hhalted, if_neg Bool.false_ne_true, ← hg]
  simp only [Bool.and_eq_true, beq_iff_eq, decide_eq_true_eq]

end Sys2Proof.Machine

namespace Sys2Proof.Proofs
open Sys2Proof.Machine Sys2Proof.Claims

/-- Settles O39: the three causes share `Dev.coreFails_of_few`; a restart and a stage op end by their guards. -/
theorem firmwareCoreEventsTakeEffect : Obligations.FirmwareCoreEventsTakeEffect := by
  unfold Obligations.FirmwareCoreEventsTakeEffect
  refine ⟨?_, ?_, ?_⟩
  · intro c s d e hrun hd hfew he
    have hfails := Dev.coreFails_of_few hrun hd hfew he
    refine ⟨?_, ?_, ?_⟩
    · show execWatchdog c s = _
      exact onDev_answers (hfails 1)
    · show execFatalTrap c s = _
      exact onDev_answers (hfails 2)
    · show execCoreMemoryError { core := c, lost := none } s = _
      exact onDev_answers (hfails 3)
  · intro c us s d hc hstate _ _ hsec hd hjob hrestarts
    show execCoreRestartDone c us s = _
    refine onDev_answers ?_
    dsimp only
    rw [hsec, Dev.coreReturns_of_alone hstate hd hjob hrestarts]
    rfl
  · intro s x a n l b d hstage hfree ha hn hkind hbase hl hb hd
    show execStageDone true s = _
    exact onDev_answers (Dev.stageDone_of_memory hstage hfree ha hn hkind hbase hl hb hd)

/-- Settles O40: each event passes its guards, and then its operation gives the state named. -/
theorem securityAndJournalEventsTakeEffect : Obligations.SecurityAndJournalEventsTakeEffect := by
  unfold Obligations.SecurityAndJournalEventsTakeEffect
  refine ⟨?_, ?_, ?_, ?_, ?_, fun _ _ _ => rfl⟩
  · intro s htime hsec
    show execSeal s = _
    exact onDev_answers ((if_neg (by rw [htime]; decide)).trans (if_pos hsec))
  · intro s htime hsec
    show execSeal s = _
    exact onDev_answers ((if_neg (by rw [htime]; decide)).trans (if_neg (by rw [hsec]; decide)))
  · intro s d e hd he
    subst he hd
    rfl
  · intro s p a hen hplace hmapped
    show execExportPoll true s = _
    exact onDev_answers (Dev.exportPoll_of_translated hen hplace hmapped)
  · intro p r msg s hup hpuf hsec
    show execSpdmRequest (.doe p) r msg s = _
    exact onDev_answers (Dev.spdmRequest_of_doe hup hpuf hsec)

/-- A request of the segment is served as the operation on requests says, and left waiting only where a held write keeps it. -/
theorem servesRequest_of_eq {c : Instr} {type q : Nat} {held : Bool} {perform : Dev → Bool → Msg → Dev × Msg}
    (hc : ∀ s, exec c s = onDev s fun d => if held then d.unlessHeld (d.onRequest type q perform) else d.onRequest type q perform) :
    ServesRequest c type q held perform := by
  have hserves : ∀ (s : State) (e : Dev), s.dev.onRequest type q perform = e →
      (held = true → e.jnl.held.length = s.dev.jnl.held.length ∧ s.dev.jnl.held.length < 1024) → Answers c s e := by
    intro s e he hroom
    show exec c s = _
    rw [hc]
    refine onDev_answers ?_
    rw [he]
    by_cases hheld : held = true
    · obtain ⟨hsame, hless⟩ := hroom hheld
      rw [if_pos hheld]
      exact if_neg (by simp [hsame, hless])
    · exact if_neg hheld
  intro s k fr m d e hhead hetype hmsg htype hd
  subst hd
  refine ⟨?_, ?_⟩
  · intro hnew he hroom
    exact hserves s e ((Dev.onRequest_of_new perform hhead hetype hmsg htype (Dev.keptAnswer_of_new hnew)).trans he.symm) hroom
  · intro i g hi hg hseq he hroom
    exact hserves s e
      ((Dev.onRequest_of_repeated perform hhead hetype hmsg htype (Dev.keptAnswer_of_repeated hi hg hseq)).trans he.symm) hroom

/-- Settles O41: discovery packets come by the fabric or by the segment (`Dev.onDiscovery`), and the three requests share
`servesRequest_of_eq`. -/
theorem managementMessagesTakeEffect : Obligations.ManagementMessagesTakeEffect := by
  unfold Obligations.ManagementMessagesTakeEffect
  refine ⟨?_, ?_, ?_, ?_, ?_, ?_, ?_, servesRequest_of_eq fun _ => rfl, servesRequest_of_eq fun _ => rfl, servesRequest_of_eq fun _ => rfl⟩
  · intro s p pkt d htake
    show execDiscover s = _
    exact onDev_answers (Dev.onDiscovery_of_fabric htake _ _)
  · intro s fr pkt d htake
    show execDiscover s = _
    refine onDev_answers ((Dev.onDiscovery_of_segment htake _ _).trans ?_)
    simp only [Dev.segmentDiscover, beq_iff_eq]
  · intro s p pkt d htake
    show execDiscoverReply s = _
    exact onDev_answers (Dev.onDiscovery_of_fabric htake _ _)
  · intro s fr pkt d htake
    show execDiscoverReply s = _
    exact onDev_answers (Dev.onDiscovery_of_segment htake _ _)
  · intro s t m pkt rest htake
    show execDiscoverReplyDelay s = _
    refine onDev_answers ?_
    rw [Dev.delayedReply, htake]
  · intro s p pkt d hroom htake
    show execAssign s = _
    exact onDev_answers ((if_neg (by rw [hroom]; decide)).trans (Dev.onDiscovery_of_fabric htake _ _))
  · intro s fr pkt d hroom htake hpermitted hassign
    show execAssign s = _
    refine onDev_answers ((if_neg (by rw [hroom]; decide)).trans ((Dev.onDiscovery_of_segment htake _ _).trans ?_))
    rw [Dev.segmentAssign, hpermitted, if_neg (by decide), if_pos hassign]

/-- Settles O42: each event passes its guards, and then its operation gives the state named. -/
theorem macEventsTakeEffect : Obligations.MacEventsTakeEffect := by
  unfold Obligations.MacEventsTakeEffect
  refine ⟨?_, ?_, ?_, ?_, ?_, ?_⟩
  · intro f s d hen hsize haddr hd hetype hroom
    show execFrameReceive f false s = _
    exact onDev_answers (Dev.frameReceive_of_good hen hsize haddr hd hetype hroom)
  · intro s q t d hturn hhead hd
    show execFrameTransmit false s = _
    exact onDev_answers (Dev.frameTransmit_of_turn hturn hhead hd)
  · intro s q t d hair hd hstate hlimit
    show execCollision false s = _
    exact onDev_answers (Dev.collision_of_early hair hd hstate hlimit)
  · intro s t hback hdue
    show execBackoffExpiry s = _
    refine onDev_answers ?_
    rw [Dev.backoffExpiry, hback]
    exact if_neg (Nat.not_lt.2 hdue)
  · intro s hen hplca hnode
    show execPlcaBeacon s = _
    refine onDev_answers ?_
    rw [Dev.plcaBeacon, hen, hplca, if_neg (by decide)]
    exact if_neg (by rw [Dev.get_set_reg _ MGT_STATUS.state MGT_PLCA.node_id 2 (by decide)]; exact hnode)
  · intro s hstate hnode hdue
    show execBeaconLost s = _
    refine onDev_answers ?_
    exact if_neg (by simp [hstate, hnode, hdue])

/-- Settles O43: the guards of a link and of a range pass, and every other operation has none. -/
theorem hostPortEventsTakeEffect : Obligations.HostPortEventsTakeEffect := by
  unfold Obligations.HostPortEventsTakeEffect
  refine ⟨?_, ?_, ?_, fun _ _ => rfl, ?_, fun _ _ _ => rfl, ?_⟩
  · intro p w r f s hreleased hup
    show execLinkUp p w r f s = _
    exact onDev_answers (if_neg (by simp [hreleased, hup]))
  · intro p k s hk
    show execHostLoss p k s = _
    cases k with
    | perst => exact absurd rfl hk
    | hotReset | linkDown | flrPf0 | busMasterOff => rfl
  · intro p s
    rfl
  · intro p vf s d hd
    show execVfFlr p vf s = _
    refine onDev_answers ?_
    unfold Dev.vfReset
    dsimp only
    rw [← hd]
  · intro p f base len s hlen
    show execAtsInvalidation p f base len false s = _
    refine onDev_answers ?_
    rw [Dev.atsInvalidate, if_neg (by simpa using hlen)]

/-- Settles O44: the guards of a release, a lock time-out, a step and a reset pass, and every other operation is the state
named. -/
theorem startUpAndResetEventsTakeEffect : Obligations.StartUpAndResetEventsTakeEffect := by
  unfold Obligations.StartUpAndResetEventsTakeEffect
  refine ⟨?_, ?_, ?_, fun _ _ _ _ _ _ _ => rfl, fun _ => rfl, ?_, fun _ => rfl, fun _ _ => rfl⟩
  · intro feed slot mode refA s hreleased
    show execAoRelease feed slot mode refA s = _
    exact onDev_answers (if_neg (by rw [hreleased]; decide))
  · intro s hreleased hlock hdue
    show execAclkLockTimeout s = _
    exact onDev_answers (if_neg (by simp [hreleased, hlock, hdue]))
  · intro aclk v c h s n d e hd hboot hn h2 h13 hmode hcause hend he hhalted
    show execStartupStepComplete aclk v c h s = _
    exact onDev_answers (Dev.startupStep_of_end hd hboot hn h2 h13 hmode hcause hend he hhalted rfl)
  · intro s hreleased htrip
    show execWrstNAssert s = _
    refine onDev_answers ?_
    rw [Dev.warmReset, hreleased, if_neg (by decide), htrip]
    exact if_neg (by simp)

end Sys2Proof.Proofs
end
